-- ==== Sys2Proof/Word.lean ====
section
/-!
DEFINITION. Word.lean: the word types of the Selok and the plainest ways to read them (01_node_anatomy.md,
R4: data are little-endian; a byte string's first byte holds bits 7:0).
-/
namespace Sys2Proof

/-- A byte. -/
abbrev Byte := BitVec 8

/-- A 64-bit register or data word. -/
abbrev W64 := BitVec 64

/-- A 48-bit cadence count. -/
abbrev Count := BitVec 48

end Sys2Proof
end

