-- ==== Sys2Proof/Machine/Bits.lean ====
section
/-!
DEFINITION. Bits.lean: bit fields of numbers, little-endian byte strings, sign extension, parity and CRC: the helpers
every encoding of the spec is read with. R4 fixes the byte order.
-/
namespace Sys2Proof.Machine

open Sys2Proof

/-- Bits [hi:lo] of a number. -/
def field (x hi lo : Nat) : Nat := (x >>> lo) % 2 ^ (hi + 1 - lo)

/-- Bit `i` of a number. -/
def bitAt (x i : Nat) : Bool := x.testBit i

/-- A number with bits [hi:lo] replaced by `v` (cut to the field's width). -/
def setField (x hi lo v : Nat) : Nat :=
  (x >>> (hi + 1)) <<< (hi + 1) + (v % 2 ^ (hi + 1 - lo)) <<< lo + x % 2 ^ lo

/-- A bit as a number. -/
def bit01 (b : Bool) : Nat := if b then 1 else 0

/-- The little-endian number that a byte string spells (R4). -/
def leNat : List Byte → Nat
  | [] => 0
  | b :: bs => b.toNat + 256 * leNat bs

/-- The first `n` little-endian bytes of a number (R4). -/
def leBytes : Nat → Nat → List Byte
  | 0, _ => []
  | n + 1, x => BitVec.ofNat 8 x :: leBytes n (x / 256)

/-- `len` bytes of a string from offset `off`, zeros past its end. -/
def slice (bs : List Byte) (off len : Nat) : List Byte :=
  let t := (bs.drop off).take len
  t ++ List.replicate (len - t.length) 0

/-- The little-endian number at offset `off` of a byte string. -/
def leAt (bs : List Byte) (off len : Nat) : Nat := leNat (slice bs off len)

/-- The two's-complement reading of the low `n` bits. -/
def toSigned (n x : Nat) : Int :=
  let y := x % 2 ^ n
  if 2 * y ≥ 2 ^ n then (y : Int) - 2 ^ n else y

/-- The low `n` bits of an integer in two's complement. -/
def ofSigned (n : Nat) (x : Int) : Nat := (x % (2 ^ n : Int)).toNat

/-- The list 0, 1, …, n−1. -/
def upTo (n : Nat) : List Nat := List.range n

/-- Number of ones among the low `n` bits. -/
def popCount (n x : Nat) : Nat := (upTo n).foldl (fun c i => c + bit01 (x.testBit i)) 0

/-- Parity of the low `n` bits. -/
def parity (n x : Nat) : Bool := popCount n x % 2 == 1

/-- Positions of the ones among the low `n` bits, lowest first. -/
def onesOf (n x : Nat) : List Nat := (upTo n).filter (fun i => x.testBit i)

/-- Smallest of a list, `d` if it is empty. -/
def minList (d : Nat) : List Nat → Nat
  | [] => d
  | x :: xs => xs.foldl Nat.min x

/-- Reduce a number to at most `m`. -/
def satTo (m x : Nat) : Nat := if x > m then m else x

/-- One bit into a CRC of width `n` with polynomial `poly`, most significant bit first. -/
def crcBit (n poly : Nat) (crc : Nat) (b : Bool) : Nat :=
  let top := (crc >>> (n - 1)) % 2 == 1
  let sh := (crc <<< 1) % 2 ^ n
  if top != b then sh ^^^ poly else sh

/-- One byte into a most-significant-bit-first CRC. -/
def crcByte (n poly : Nat) (crc : Nat) (b : Byte) : Nat :=
  [7, 6, 5, 4, 3, 2, 1, 0].foldl (fun c i => crcBit n poly c (b.getLsbD i)) crc

/-- A CRC over a byte string, from the initial value `init`. -/
def crcBytes (n poly init : Nat) (bs : List Byte) : Nat := bs.foldl (crcByte n poly) init

/-- R23: the 8-bit CRC over a cadence count, polynomial 0x07, initial value 0, taken over the count's bits in the order
they are sent, least significant first (log entry 9: DEDUCED). -/
def cadenceCrc (count : Nat) : Nat := (upTo 48).foldl (fun c i => crcBit 8 0x07 c (count.testBit i)) 0

/-- Replace element `i` of a list (nothing past the end). -/
def listSet {α : Type} (xs : List α) (i : Nat) (x : α) : List α := xs.set i x

/-- Join a list of lists of bytes. -/
def joinBytes (xs : List (List Byte)) : List Byte := xs.flatten

/-- The ceiling of a quotient. -/
def ceilDiv (a b : Nat) : Nat := (a + b - 1) / b

end Sys2Proof.Machine
end

