-- ==== Sys2Proof/Machine/Symbol.lean ====
section
/-!
DEFINITION. Symbol.lean: the symbol code of an HBM transfer (R241, R242). The code is linear, so what a read decodes depends
only on the error pattern: which of the 36 symbols differ from the stored codeword, and by what.
-/
namespace Sys2Proof.Machine

/-- R241: x^16 + x^12 + x^3 + x + 1. -/
def gfPoly : Nat := 0x1100B

/-- Multiply by α = x. -/
def gfX (a : Nat) : Nat := if a.testBit 15 then (a <<< 1) ^^^ gfPoly else a <<< 1

/-- Product in GF(2^16). -/
def gfMul (a b : Nat) : Nat :=
  [15, 14, 13, 12, 11, 10, 9, 8, 7, 6, 5, 4, 3, 2, 1, 0].foldl
    (fun r i => let r2 := gfX r; if b.testBit i then r2 ^^^ a else r2) 0

/-- Power by squaring, over the 16 bits of the exponent. -/
def gfPow (a n : Nat) : Nat :=
  [15, 14, 13, 12, 11, 10, 9, 8, 7, 6, 5, 4, 3, 2, 1, 0].foldl
    (fun r i => let r2 := gfMul r r; if n.testBit i then gfMul r2 a else r2) 1

/-- The inverse of a nonzero element. -/
def gfInv (a : Nat) : Nat := gfPow a 65534

/-- α^n. -/
def gfAlpha (n : Nat) : Nat := gfPow 2 n

/-- An error pattern: (position in c(x), value), positions 0-3 the check symbols, 4-35 the data symbols (R241). -/
abbrev Pattern := List (Nat × Nat)

/-- Syndrome j of a pattern. -/
def syndrome (p : Pattern) (j : Nat) : Nat :=
  p.foldl (fun s e => s ^^^ gfMul e.2 (gfAlpha (e.1 * j))) 0

/-- The four syndromes. -/
def syndromes (p : Pattern) : List Nat := [syndrome p 0, syndrome p 1, syndrome p 2, syndrome p 3]

/-- R241: Π, which a poisoned transfer adds to its check symbols. -/
def poisonPattern : Pattern := [(0, 0x9E37), (1, 0x79B9), (2, 0x7F4A), (3, 0x7C15)]

/-- A single-symbol correction of the syndromes. -/
def correctOne (s : List Nat) : Option Pattern :=
  let s0 := s.getD 0 0
  (upTo 36).findSome? (fun i => if s0 ≠ 0 ∧ syndromes [(i, s0)] = s then some [(i, s0)] else none)

/-- The values at positions i and j that meet the first two syndromes. -/
def pairValues (s : List Nat) (i j : Nat) : Nat × Nat :=
  let s0 := s.getD 0 0
  let s1 := s.getD 1 0
  let xi := gfAlpha i
  let xj := gfAlpha j
  -- ei + ej = s0, ei·xi + ej·xj = s1
  let ej := gfMul (s1 ^^^ gfMul s0 xi) (gfInv (xi ^^^ xj))
  (s0 ^^^ ej, ej)

/-- A two-symbol correction of the syndromes. -/
def correctTwo (s : List Nat) : Option Pattern :=
  (upTo 36).findSome? (fun i => (upTo i).findSome? (fun j =>
    let v := pairValues s i j
    let p : Pattern := [(i, v.1), (j, v.2)]
    if v.1 ≠ 0 ∧ v.2 ≠ 0 ∧ syndromes p = s then some p else none))

/-- A correction in at most two symbols. -/
def correctUpTo2 (s : List Nat) : Option Pattern :=
  match correctOne s with
  | some p => some p
  | none => correctTwo s

/-- The outcomes of R242. The pattern is what is left on the data after the correction. -/
inductive Decoded where
  | clean (left : Pattern)
  | poisoned (left : Pattern)
  | corrected (left : Pattern)
  | uncorrectable (left : Pattern)
  deriving DecidableEq, Repr

/-- R242, in table order: the pattern of a read, of a transfer that is poisoned or not. -/
def decodePattern (poisoned : Bool) (e : Pattern) : Decoded :=
  let full : Pattern := if poisoned then e ++ poisonPattern else e
  let s := syndromes full
  if s = [0, 0, 0, 0] then .clean e
  else
    let sp := syndromes (full ++ poisonPattern)
    if sp = [0, 0, 0, 0] then .poisoned e
    else match correctUpTo2 sp with
      | some c => .poisoned (e ++ c)
      | none =>
        match correctUpTo2 s with
        | some c => .corrected (e ++ c)
        | none => .uncorrectable e

/-- The change that a pattern makes to data byte `k` (0-63). -/
def patternByte (p : Pattern) (k : Nat) : Byte :=
  p.foldl (fun b e => if e.1 = k / 2 + 4 then b ^^^ BitVec.ofNat 8 (e.2 >>> (8 * (k % 2))) else b) 0

end Sys2Proof.Machine
end

