-- ==== Sys2Proof/Machine/Packet.lean ====
section
/-!
DEFINITION. Packet.lean: the operand types of the commands: engine kinds, agents, packets with the headers of R285 and
R309 to R313, memory-side requests. A packet here is a whole frame, or one segment of it (R309).
-/
namespace Sys2Proof.Machine

open Sys2Proof

/-- The four kinds of engine with a submission port. -/
inductive EngKind where
  | tbl | atm | sol | shf
  deriving DecidableEq, Repr

/-- Instances of a kind (R9, R11). -/
def EngKind.count : EngKind → Nat
  | .tbl | .atm => 64
  | .sol | .shf => 16

/-- Who writes or reads a register (R482, R427). -/
inductive Agent where
  | banker
  | dealer (core : Fin 192)
  deriving DecidableEq, Repr

/-- Who owns a completion ring and a RUN bit: an engine or the Trick engine (R112, R346). -/
inductive RingOwner where
  | eng (k : EngKind) (i : Fin 64)
  | trick
  deriving DecidableEq, Repr

/-- The actions that carry a release cadence and wait for it (R33). -/
inductive ActionRef where
  | eng (k : EngKind) (i : Fin 64)
  | trick
  | decant
  deriving DecidableEq, Repr

/-- R299: a physical node. -/
structure Node where
  rack : BitVec 16
  pslot : BitVec 6
  deriving DecidableEq, Repr

/-- A physical unit that a known-answer run or the yield map names (R399, R404). Positions 0-15 of a Deck kind are 4·Suit +
engine, 16 is the spare; P-die positions 128-135 are the spares. -/
inductive UnitId where
  | tbl (deck : Fin 4) (pos : Fin 17)
  | atm (deck : Fin 4) (pos : Fin 17)
  | dlr (deck : Fin 4) (pos : Fin 17)
  | pdlr (pos : Fin 136)
  | sol (i : Fin 16)
  | shf (i : Fin 16)
  | hbmc (i : Fin 16)
  | deckAdder (deck : Fin 4)
  | lane (link : Fin 14)
  | fdie
  | pdie
  deriving DecidableEq, Repr

/-- A unit that the Scorecard counts (R447). -/
inductive ScoUnit where
  | tbl (i : Fin 64)
  | atm (i : Fin 64)
  | sol (i : Fin 16)
  | shf (i : Fin 16)
  | dlr (i : Fin 192)
  | mem (i : Fin 16)
  | fdie
  deriving DecidableEq, Repr

/-- R369. -/
inductive ErrClass where
  | corrected | contained | uncontained | notice
  deriving DecidableEq, Repr

/-- R390: the source blocks. -/
inductive Block where
  | tbl | atm | sol | cmp | shf | dlr | mem | fab | hnd | trk | cad | ckp | flt | bnk | pwr | suit | pdie
  deriving DecidableEq, Repr

/-- R370, R414: the scope of a reset. -/
inductive Scope where
  | core (b : Block) (i : Fin 192)
  | suit (s : Fin 16)
  | deck (d : Fin 4)
  | package
  deriving DecidableEq, Repr

/-- Where an on-die SRAM word fails (R371, R374, R486): at a local address of a store, in a Dealer core's caches, in the P-die
cache or its directory, in the remote-read cache, or in a replay table or the rank table. -/
inductive SramSite where
  | store (addr : W64)
  | dealerCache (c : Fin 192) (line : W64)
  | pdieCache (line : W64)
  | pdieDirectory
  | rrc (line : Nat)
  | fdieTable
  deriving DecidableEq, Repr

/-- A transfer that the scrubber reads (R232, R242, R245): the symbols in error that it meets, by place and exclusive-or with what was stored,
and whether the stack itself reports an error. -/
structure ScrubRead where
  noise : List (Fin 36 × BitVec 16)
  report : Bool
  deriving DecidableEq, Repr

/-- A flit as error correction leaves it (R260, R261), and the codewords that came with it: the wavelength of each, and how many of its symbols
were corrected. -/
structure FlitIn where
  bytes : List Byte
  fec : List (Fin 10 × Fin 16)
  deriving DecidableEq, Repr

/-- A unit whose arithmetic or registers are at fault (R373): its number, and whether it is retired state that is lost. -/
structure FaultyUnit where
  idx : Fin 192
  retired : Bool
  deriving DecidableEq, Repr

/-- A scope at its re-entry (R372, R407), and whether it re-enters. -/
structure Reentry where
  scope : Scope
  enters : Bool
  deriving DecidableEq, Repr

/-- The digests with which the two dies' own parts of the known-answer run have ended (R403, R404), where they differ. -/
structure DieRuns where
  fdie : Option (BitVec 256)
  pdie : Option (BitVec 256)
  deriving DecidableEq, Repr

/-- The runs that a die's answers stand for. -/
def DieRuns.runs (d : DieRuns) : List (UnitId × BitVec 256) := (d.fdie.map (UnitId.fdie, ·)).toList ++ (d.pdie.map (UnitId.pdie, ·)).toList

/-- What a host or the job manager writes into a mailbox (R418, R419). -/
structure MbxReq where
  seq : BitVec 32
  cmd : BitVec 16
  reqLen : BitVec 16
  part : BitVec 32
  arg : BitVec 64
  last : Bool
  payload : List Byte
  deriving DecidableEq, Repr

/-- The transaction header of R285. -/
structure Hdr where
  kind : BitVec 8
  retry : Bool := false
  jobTag : BitVec 16 := 0
  incarnation : BitVec 16 := 0
  tag : BitVec 16 := 0
  srcSlot : BitVec 8 := 0xFF
  dstSlot : BitVec 8 := 0xFF
  len : BitVec 16 := 0
  epoch : BitVec 32 := 0
  rangeSlot : BitVec 6 := 0
  laddr : BitVec 44 := 0
  status : BitVec 8 := 0
  code : BitVec 8 := 0
  fmt : BitVec 5 := 0
  fetch : Bool := false
  count : BitVec 16 := 0
  slot : BitVec 4 := 0
  deriving DecidableEq, Repr

/-- The hand header of R310. -/
structure HandHdr where
  hand : BitVec 32
  issuer : BitVec 8
  code : BitVec 8 := 0
  reason : BitVec 8 := 0
  nent : BitVec 8 := 0
  slots : List (BitVec 8) := []
  deriving DecidableEq, Repr

/-- The rank header of R311. -/
structure RankHdr where
  srcRank : BitVec 32
  dstRank : BitVec 32
  dstRack : BitVec 16 := 0
  dstPslot : BitVec 8 := 0
  queue : BitVec 8 := 0
  slot : BitVec 16 := 0
  srcId : BitVec 64 := 0
  deriving DecidableEq, Repr

/-- The Trick header of R312. -/
structure TrkHdr where
  srcRank : BitVec 32
  inst : BitVec 32
  progSlot : BitVec 8
  frame : BitVec 8
  level : BitVec 8
  deck : BitVec 8 := 0
  step : BitVec 16 := 0
  count : BitVec 16 := 0
  index : BitVec 64 := 0
  deriving DecidableEq, Repr

/-- The kind's own header (R309). -/
inductive KindHdr where
  | none
  | hand (h : HandHdr)
  | rank (h : RankHdr)
  | trick (h : TrkHdr)
  deriving DecidableEq, Repr

/-- Where a frame that leaves goes: a node of the rank table, the same by the RACK ports (R336), or the link partner of a port (R309). A frame
that arrives holds here the port on which it came. -/
inductive Dest where
  | node (n : Node)
  | detour (n : Node)
  | port (p : Fin 32)
  deriving DecidableEq, Repr

/-- The node to which a frame goes. -/
def Dest.target : Dest → Option Node
  | .node n | .detour n => some n
  | .port _ => none

/-- A packet (R285, R309): header, kind header, data. -/
structure Packet where
  hdr : Hdr
  kh : KindHdr := .none
  data : List Byte := []
  dest : Dest := .port 0
  /-- of a segment: OFFSET of its data, and TOTAL; none for a whole frame -/
  off : Nat := 0
  total : Option Nat := none
  deriving DecidableEq, Repr

/-- R249, R268: a memory-side operation or fabric atomic as the controller sees it. -/
structure MsReq where
  code : BitVec 8
  fmt : BitVec 5
  target : BitVec 64
  count : Nat
  fetch : Bool
  recipe : BitVec 4 := 0
  payload : List Byte
  flush : Bool
  deriving DecidableEq, Repr

/-- Where a memory-side command finds its request: the operation that a core has issued and that is outstanding, or a request
that reaches the controller otherwise. -/
inductive MsSource where
  | issued (id : Nat)
  | given (r : MsReq)
  deriving DecidableEq, Repr

/-! ### Wire forms (R285, R310-R312) -/

/-- R285: the 32 bytes of a transaction header. -/
def Hdr.bytes (h : Hdr) : List Byte :=
  leBytes 1 h.kind.toNat ++ leBytes 1 (bit01 h.retry * 128) ++ leBytes 2 h.jobTag.toNat ++
  leBytes 2 h.incarnation.toNat ++ leBytes 2 h.tag.toNat ++ leBytes 1 h.srcSlot.toNat ++ leBytes 1 h.dstSlot.toNat ++
  leBytes 2 h.len.toNat ++ leBytes 4 h.epoch.toNat ++ leBytes 8 (h.rangeSlot.toNat * 2 ^ 44 + h.laddr.toNat) ++
  leBytes 1 h.status.toNat ++ leBytes 1 h.code.toNat ++ leBytes 1 h.fmt.toNat ++ leBytes 1 (bit01 h.fetch) ++
  leBytes 2 h.count.toNat ++ leBytes 2 h.slot.toNat

/-- R285: a transaction header from its bytes. -/
def Hdr.ofBytes (bs : List Byte) : Hdr where
  kind := BitVec.ofNat 8 (leAt bs 0 1)
  retry := (leAt bs 1 1).testBit 7
  jobTag := BitVec.ofNat 16 (leAt bs 2 2)
  incarnation := BitVec.ofNat 16 (leAt bs 4 2)
  tag := BitVec.ofNat 16 (leAt bs 6 2)
  srcSlot := BitVec.ofNat 8 (leAt bs 8 1)
  dstSlot := BitVec.ofNat 8 (leAt bs 9 1)
  len := BitVec.ofNat 16 (leAt bs 10 2)
  epoch := BitVec.ofNat 32 (leAt bs 12 4)
  rangeSlot := BitVec.ofNat 6 (leAt bs 16 8 / 2 ^ 44)
  laddr := BitVec.ofNat 44 (leAt bs 16 8)
  status := BitVec.ofNat 8 (leAt bs 24 1)
  code := BitVec.ofNat 8 (leAt bs 25 1)
  fmt := BitVec.ofNat 5 (leAt bs 26 1)
  fetch := (leAt bs 27 1).testBit 0
  count := BitVec.ofNat 16 (leAt bs 28 2)
  slot := BitVec.ofNat 4 (leAt bs 30 2)

/-- R310, R311, R312: the 32 bytes of a kind header for one segment. -/
def KindHdr.bytes (k : KindHdr) (total offset : Nat) : List Byte :=
  let pre := leBytes 4 total ++ leBytes 4 offset
  match k with
  | .none => []
  | .hand h =>
    let folded := h.code.toNat = 1
    let slots := if folded then h.reason :: List.replicate 15 0
      else if h.slots.isEmpty then List.replicate 16 0
      else h.slots ++ List.replicate (16 - h.slots.length) (0xFF : BitVec 8)
    pre ++ leBytes 4 h.hand.toNat ++ [h.issuer, h.code, BitVec.ofNat 8 h.slots.length, h.nent] ++ slots
  | .rank h =>
    pre ++ leBytes 4 h.srcRank.toNat ++ leBytes 4 h.dstRank.toNat ++ leBytes 2 h.dstRack.toNat ++ [h.dstPslot, h.queue] ++
    leBytes 2 h.slot.toNat ++ leBytes 2 0 ++ leBytes 8 h.srcId.toNat
  | .trick h =>
    pre ++ leBytes 4 h.srcRank.toNat ++ leBytes 4 h.inst.toNat ++ [h.progSlot, h.frame, h.level, h.deck] ++
    leBytes 2 h.step.toNat ++ leBytes 2 h.count.toNat ++ leBytes 8 h.index.toNat

/-- Pad to a multiple of 16 bytes (R285, R309). -/
def pad16 (bs : List Byte) : List Byte := bs ++ List.replicate ((16 - bs.length % 16) % 16) 0

/-- R309: the packets that carry a frame: one for each segment of up to 224 bytes (`fuel` segments at most). -/
def segments (h : Hdr) (k : KindHdr) (total : Nat) : Nat → Nat → List Byte → List (List Byte)
  | 0, _, _ => []
  | n + 1, off, bs =>
    let seg := bs.take 224
    let kb := k.bytes total off
    let h' := { h with len := BitVec.ofNat 16 (kb.length + seg.length) }
    let pkt := h'.bytes ++ kb ++ pad16 seg
    if bs.length ≤ 224 then [pkt] else pkt :: segments h k total n (off + 224) (bs.drop 224)

/-- The wire form of a frame. -/
def Packet.wire (p : Packet) : List (List Byte) :=
  match p.kh with
  | .none => [p.hdr.bytes ++ pad16 p.data]
  | k => segments p.hdr k p.data.length (p.data.length / 224 + 1) 0 p.data

/-- R260: the CRC-64 of a flit: ECMA-182 polynomial, initial value and final XOR all ones. -/
def crc64 (bs : List Byte) : Nat :=
  crcBytes 64 0x42F0E1EBA9EA3693 0xFFFFFFFFFFFFFFFF bs ^^^ 0xFFFFFFFFFFFFFFFF

end Sys2Proof.Machine
end

