-- ==== Sys2Proof/Syntax.lean ====
section
/-!
DEFINITION. Syntax.lean: the commands of the package, one constructor a row of spec/opcode_table.json, in the table's order.
The operands are what the row's rule needs from outside: a core, a register number, a packet, a pin. A Dealer instruction
names the core that runs it and its fields as R219 decodes them.
-/
namespace Sys2Proof

open Sys2Proof.Machine

/-- The commands (spec/opcode_table.json). -/
inductive Instr where
  -- cadence and scheduling (R22-R45)
  | marker (src : Fin 33) (count : Count) (crc : Byte)
  | sourceInvalid (src : Fin 33)
  | acquireTimeout
  | cadenceIntervalTick
  | forcedFreeRun
  | alignmentHandshake (mismatch : BitVec 6)
  | cadCtrlWrite (v : W64)
  | actionRelease (ref : ActionRef)
  | registerWrite (agent : Agent) (addr : W64) (v : W64)
  -- engines (R87-R211)
  | submit (c : Fin 192) (a b : Fin 32)
  | tblAccept (i : Fin 64)
  | atmAccept (i : Fin 64)
  | solAccept (i : Fin 16)
  | shfAccept (i : Fin 16)
  | descriptorHead (k : EngKind) (i : Fin 64)
  | pipWaitSatisfied (k : EngKind) (i : Fin 64)
  | chunkConsume (i : Fin 64)
  | tblTileOutput (i : Fin 64)
  | tblCommit (i : Fin 64)
  | pipTimeout (k : EngKind) (i : Fin 64)
  | cqHeadWrite (o : RingOwner) (v : W64)
  | ctrlRunWrite (o : RingOwner) (v : W64)
  | organSplitWrite (i : Fin 64) (v : W64)
  | atmTileInvocation (i : Fin 64)
  | atmCommit (i : Fin 64)
  | compounderLaneGroup (i : Fin 16)
  | solFactorise (i : Fin 16) (p : BitVec 12)
  | solRefine (i : Fin 16) (p : BitVec 12)
  | solProblemCommit (i : Fin 16)
  | shfCommit (i : Fin 16)
  | shfStateWrite (i : Fin 16) (off : BitVec 12) (v : W64)
  | shfJaBaseWrite (i : Fin 16) (v : W64)
  -- Dealer integer (R219)
  | add (c : Fin 192) (d a b : Fin 32)
  | sub (c : Fin 192) (d a b : Fin 32)
  | and (c : Fin 192) (d a b : Fin 32)
  | or (c : Fin 192) (d a b : Fin 32)
  | xor (c : Fin 192) (d a b : Fin 32)
  | sll (c : Fin 192) (d a b : Fin 32)
  | srl (c : Fin 192) (d a b : Fin 32)
  | sra (c : Fin 192) (d a b : Fin 32)
  | mul (c : Fin 192) (d a b : Fin 32)
  | mulhs (c : Fin 192) (d a b : Fin 32)
  | mulhu (c : Fin 192) (d a b : Fin 32)
  | div (c : Fin 192) (d a b : Fin 32)
  | divu (c : Fin 192) (d a b : Fin 32)
  | rem (c : Fin 192) (d a b : Fin 32)
  | remu (c : Fin 192) (d a b : Fin 32)
  | slt (c : Fin 192) (d a b : Fin 32)
  | sltu (c : Fin 192) (d a b : Fin 32)
  | addi (c : Fin 192) (d a : Fin 32) (imm : BitVec 16)
  | andi (c : Fin 192) (d a : Fin 32) (imm : BitVec 16)
  | ori (c : Fin 192) (d a : Fin 32) (imm : BitVec 16)
  | xori (c : Fin 192) (d a : Fin 32) (imm : BitVec 16)
  | slti (c : Fin 192) (d a : Fin 32) (imm : BitVec 16)
  | slli (c : Fin 192) (d a : Fin 32) (sh : BitVec 6)
  | srli (c : Fin 192) (d a : Fin 32) (sh : BitVec 6)
  | srai (c : Fin 192) (d a : Fin 32) (sh : BitVec 6)
  | lui (c : Fin 192) (d : Fin 32) (imm : BitVec 16)
  | ld64 (c : Fin 192) (d a : Fin 32) (imm : BitVec 16)
  | ld32 (c : Fin 192) (d a : Fin 32) (imm : BitVec 16)
  | ld16 (c : Fin 192) (d a : Fin 32) (imm : BitVec 16)
  | ld8 (c : Fin 192) (d a : Fin 32) (imm : BitVec 16)
  | ld32u (c : Fin 192) (d a : Fin 32) (imm : BitVec 16)
  | ld16u (c : Fin 192) (d a : Fin 32) (imm : BitVec 16)
  | ld8u (c : Fin 192) (d a : Fin 32) (imm : BitVec 16)
  | st64 (c : Fin 192) (d a : Fin 32) (imm : BitVec 16)
  | st32 (c : Fin 192) (d a : Fin 32) (imm : BitVec 16)
  | st16 (c : Fin 192) (d a : Fin 32) (imm : BitVec 16)
  | st8 (c : Fin 192) (d a : Fin 32) (imm : BitVec 16)
  | fld (c : Fin 192) (d a : Fin 32) (imm : BitVec 16)
  | fst (c : Fin 192) (d a : Fin 32) (imm : BitVec 16)
  | fld32 (c : Fin 192) (d a : Fin 32) (imm : BitVec 16)
  | fst32 (c : Fin 192) (d a : Fin 32) (imm : BitVec 16)
  | beq (c : Fin 192) (d a : Fin 32) (imm : BitVec 16)
  | bne (c : Fin 192) (d a : Fin 32) (imm : BitVec 16)
  | blt (c : Fin 192) (d a : Fin 32) (imm : BitVec 16)
  | bge (c : Fin 192) (d a : Fin 32) (imm : BitVec 16)
  | bltu (c : Fin 192) (d a : Fin 32) (imm : BitVec 16)
  | bgeu (c : Fin 192) (d a : Fin 32) (imm : BitVec 16)
  | jmp (c : Fin 192) (off : BitVec 26)
  | jal (c : Fin 192) (off : BitVec 26)
  | jr (c : Fin 192) (a : Fin 32)
  | jalr (c : Fin 192) (a : Fin 32)
  -- Dealer scalar floating point (R217); `single` is FUNCT[7]
  | fadd (c : Fin 192) (d a b : Fin 32) (single : Bool)
  | fsub (c : Fin 192) (d a b : Fin 32) (single : Bool)
  | fmul (c : Fin 192) (d a b : Fin 32) (single : Bool)
  | ffma (c : Fin 192) (d a b : Fin 32) (single : Bool)
  | fdiv (c : Fin 192) (d a b : Fin 32) (single : Bool)
  | fsqrt (c : Fin 192) (d a : Fin 32) (single : Bool)
  | fmin (c : Fin 192) (d a b : Fin 32) (single : Bool)
  | fmax (c : Fin 192) (d a b : Fin 32) (single : Bool)
  | feq (c : Fin 192) (d a b : Fin 32) (single : Bool)
  | flt (c : Fin 192) (d a b : Fin 32) (single : Bool)
  | fle (c : Fin 192) (d a b : Fin 32) (single : Bool)
  | fcvt (c : Fin 192) (d a : Fin 32) (code : Fin 32) (single : Bool)
  | ftoi (c : Fin 192) (d a : Fin 32) (single : Bool)
  | itof (c : Fin 192) (d a : Fin 32) (single : Bool)
  | fmvg (c : Fin 192) (d a : Fin 32) (single : Bool)
  | fmvf (c : Fin 192) (d a : Fin 32) (single : Bool)
  -- Dealer system (R216, R218, R219, R280)
  | fence (c : Fin 192) (d a : Fin 32)
  | fenceComplete (c : Fin 192)
  | rdcyc (c : Fin 192) (d : Fin 32)
  | rdcad (c : Fin 192) (d : Fin 32)
  | rdacr (c : Fin 192) (d : Fin 32)
  | wracr (c : Fin 192) (a : Fin 32)
  | rdflags (c : Fin 192) (d : Fin 32)
  | wrflags (c : Fin 192) (a : Fin 32)
  | trapret (c : Fin 192)
  | brk (c : Fin 192)
  | wrtvec (c : Fin 192) (a : Fin 32)
  -- Dealer-V (R220-R227)
  | setvl (c : Fin 192) (d a : Fin 32) (safe : Bool) (vt : BitVec 8)
  | vadd (c : Fin 192) (d a b : Fin 32) (m : Fin 8)
  | vsub (c : Fin 192) (d a b : Fin 32) (m : Fin 8)
  | vmul (c : Fin 192) (d a b : Fin 32) (m : Fin 8)
  | vfma (c : Fin 192) (d a b : Fin 32) (m : Fin 8)
  | vdiv (c : Fin 192) (d a b : Fin 32) (m : Fin 8)
  | vsqrt (c : Fin 192) (d a : Fin 32) (m : Fin 8)
  | vmin (c : Fin 192) (d a b : Fin 32) (m : Fin 8)
  | vmax (c : Fin 192) (d a b : Fin 32) (m : Fin 8)
  | vand (c : Fin 192) (d a b : Fin 32) (m : Fin 8)
  | vor (c : Fin 192) (d a b : Fin 32) (m : Fin 8)
  | vxor (c : Fin 192) (d a b : Fin 32) (m : Fin 8)
  | vsll (c : Fin 192) (d a b : Fin 32) (m : Fin 8)
  | vsrl (c : Fin 192) (d a b : Fin 32) (m : Fin 8)
  | vsra (c : Fin 192) (d a b : Fin 32) (m : Fin 8)
  | vcmpeq (c : Fin 192) (d a b : Fin 32) (m : Fin 8)
  | vcmplt (c : Fin 192) (d a b : Fin 32) (m : Fin 8)
  | vcmple (c : Fin 192) (d a b : Fin 32) (m : Fin 8)
  | vsel (c : Fin 192) (d a b : Fin 32) (m : Fin 8)
  | vsplat (c : Fin 192) (d a : Fin 32) (m : Fin 8)
  | vmv (c : Fin 192) (d a : Fin 32) (m : Fin 8)
  | vcvt (c : Fin 192) (d a : Fin 32) (code : Fin 32) (m : Fin 8)
  | vsad (c : Fin 192) (d a b : Fin 32) (m : Fin 8)
  | vsada (c : Fin 192) (d a b : Fin 32) (m : Fin 8)
  | vredsum (c : Fin 192) (d a b : Fin 32) (m : Fin 8)
  | vredmax (c : Fin 192) (d a b : Fin 32) (m : Fin 8)
  | vld (c : Fin 192) (d a : Fin 32) (m : Fin 8)
  | vst (c : Fin 192) (d a : Fin 32) (m : Fin 8)
  | vlds (c : Fin 192) (d a b : Fin 32) (m : Fin 8)
  | vsts (c : Fin 192) (d a b : Fin 32) (m : Fin 8)
  | gather (c : Fin 192) (d a b : Fin 32) (m : Fin 8) (sh iw : BitVec 2)
  | gatherff (c : Fin 192) (d a b : Fin 32) (m : Fin 8) (sh iw : BitVec 2)
  | scatter (c : Fin 192) (d a b : Fin 32) (m : Fin 8) (sh iw : BitVec 2)
  -- Dealer fabric instructions (R267-R296)
  | atom (c : Fin 192) (d a b : Fin 32)
  | rput (c : Fin 192) (d a b : Fin 32)
  | rget (c : Fin 192) (d a b : Fin 32)
  | inval (c : Fin 192) (a b : Fin 32)
  | invalSend (c : Fin 192) (d a b : Fin 32)
  | hand (c : Fin 192) (d a : Fin 32)
  | msend (c : Fin 192) (d a : Fin 32)
  -- Dealer core control (R229-R231)
  | dlrCtrlWrite (c : Fin 192) (v : W64)
  | safepointHalt (c : Fin 192)
  | ctxSave (c : Fin 192)
  | ctxRestore (c : Fin 192)
  -- pips (R333)
  | pipRaise (suit : Fin 16) (v : W64)
  | pipLower (suit : Fin 16) (v : W64)
  -- memory-side operations and controllers (R245-R258, R269)
  | iadd (r : MsSource)
  | smin (r : MsSource)
  | smax (r : MsSource)
  | umin (r : MsSource)
  | umax (r : MsSource)
  | msideFmin (r : MsSource)
  | msideFmax (r : MsSource)
  | plainFadd (r : MsSource)
  | aadd (r : MsSource)
  | aclear (r : MsSource)
  | aread (r : MsSource)
  | recipe (r : MsSource)
  | swap (r : MsSource)
  | cas (r : MsSource)
  | aregDeclare (x : Fin 64) (v : W64)
  | memCtrlWrite (ctl : Fin 16) (v : W64)
  | memRetrain (ctl : Fin 16) (v : W64)
  | channelRetrain (ctl : Fin 16) (ch : Fin 32) (temp : BitVec 8)
  | channelRetrainDone (ctl : Fin 16) (ch : Fin 32) (ok : Bool) (temp : BitVec 8)
  | patrolScrub (ctl : Fin 16) (pch : Fin 64) (r : ScrubRead)
  -- the fabric (R260-R286)
  | flitReceive (port : Fin 32) (f : FlitIn)
  | wavelengthFailing (port : Fin 32) (w : Fin 10)
  | wavelengthSpared (port : Fin 32)
  | load (p : Packet)
  | store (p : Packet)
  | rputPacket (p : Packet)
  | atomPacket (p : Packet)
  | invalPacket (p : Packet)
  | confirm (p : Packet)
  | data (id : Nat) (p : Packet)
  | ack (p : Packet)
  | retryTimeout (id : Nat)
  | replayEntryExpiry (key : Nat) (tag : BitVec 16)
  | fabRetryWrite (v : W64)
  | fabCtrlWrite (v : W64)
  | portRoleWrite (port : Fin 32) (v : W64)
  -- hands, messages, partners (R287-R314)
  | hstage (p : Packet)
  | hvote (p : Packet)
  | hshow (p : Packet)
  | hfold (p : Packet)
  | hfoldReq (p : Packet)
  | hquery (p : Packet)
  | msg (p : Packet)
  | heartbeat (p : Packet)
  | heartbeatMiss (identity : BitVec 256)
  | hello (p : Packet)
  | fenced (p : Packet)
  | suspect (p : Packet)
  | witnessEntryFree (suspectRank : BitVec 32) (w : BitVec 48)
  | attestReq (p : Packet)
  | attestRsp (p : Packet)
  | mbxReq (p : Packet)
  | mbxRsp (p : Packet)
  | mbxEvent (p : Packet)
  | discoveryEpoch
  | rankUpdateRelease
  | rxqWrite (q : Fin 64) (cfg : Bool) (v : W64)
  -- collectives (R315-R346)
  | trickLaunch (agent : Agent) (v : W64)
  | trickLaunchHead
  | trkChunk (p : Packet)
  | trkCredit (p : Packet)
  | trkMaxima (p : Packet)
  | trkReady (p : Packet)
  | trkAbort (p : Packet)
  | trkResend (p : Packet)
  | rankSilent (progSlot : Fin 64) (inst : BitVec 32) (rank : BitVec 32)
  | detour (progSlot : Fin 64) (inst : BitVec 32) (rank : BitVec 32)
  -- checkpoint and restore (R347-R368)
  | decantLaunch (agent : Agent) (v : W64)
  | decantCheck
  | decantComplete
  | dryDownStart
  | dryDownCd
  | ckpCtrlWrite (v : W64)
  | restoreCopy
  | restoreCopyDone
  -- faults and resets (R369-R411)
  | arithReplay (b : Block) (u : FaultyUnit)
  | sramError (site : SramSite) (uncorrectable : Bool)
  | dlinkLaneRepair (link : Fin 14)
  | dlinkLaneRepairDone (link : Fin 14)
  | lockstep
  | fltFenceWrite
  | witnessEnWrite (v : W64)
  | partialReset (sc : Scope) (controller : Bool)
  | resetQuiesceDone (sc : Scope)
  | resetReentry (r : Reentry)
  | returnToService (sc : Scope) (runs : List (UnitId × BitVec 256))
  | packageReset
  -- bring-up and power (R394-R405, R462-R473)
  | supplyRamp (vin : BitVec 16)
  | undervoltage
  | rstNAssert
  | rstNRelease (straps : BitVec 2)
  | perstN
  | firmwareVerified (answers : Bool)
  | hbmTrainingDone (k : Fin 16) (ok : Bool) (temp : BitVec 8)
  | portTrainingDone (port : Fin 32) (delay : BitVec 16) (bad : BitVec 10)
  | knownAnswerRun (dies : DieRuns) (runs : List (UnitId × BitVec 256))
  | blockDetach (b : Fin 4)
  | blockReattach (b : Fin 4)
  | thermalSample (decks : BitVec 32) (f p hbm : BitVec 8)
  | throttleUpdate (package p f hbm decks : BitVec 12)
  | dutySlot
  -- the Banker (R415-R446)
  | mailboxHandoff (m : Fin 16) (writes : BitVec 16) (r : MbxReq)
  | mailboxPoll
  | inventoryRead (m : Fin 32)
  | inventoryClear (m : Fin 32)
  | configRead (m : Fin 32)
  | configWrite (m : Fin 32)
  | jobAttach (m : Fin 32)
  | attachStart
  | jobDetach (m : Fin 32)
  | rankUpdate (m : Fin 32)
  | formulaLoad (m : Fin 32)
  | atomizerProgramLoad (m : Fin 32)
  | trickProgramLoad (m : Fin 32)
  | recipeLoad (m : Fin 32)
  | regAccess (m : Fin 32)
  | logRead (m : Fin 32)
  | ckpDrydown (m : Fin 32)
  | ckpStatement (m : Fin 32)
  | ckpSeal (m : Fin 32)
  | ckpStage (m : Fin 32)
  | ckpCommit (m : Fin 32)
  | ckpShardRead (m : Fin 32)
  | attest (m : Fin 32)
  | certRead (m : Fin 32)
  | fwStage (m : Fin 32)
  | fwActivate (m : Fin 32)
  | fwConfirm (m : Fin 32)
  | bootLoad (m : Fin 32)
  | scopedReset (m : Fin 32)
  | debugUnlockChallenge (m : Fin 32)
  | debugUnlockToken (m : Fin 32)
  | smbusBlockRead (cmd : Byte)
  -- boundary scan (R443)
  | bypass
  | idcode
  | samplePreload (pins preload : BitVec 40)
  | extest (pins : BitVec 40)
  -- Scorecard (R448-R452) and the supply (R473)
  | scoCtlWrite (u : ScoUnit) (i : Fin 16) (v : W64)
  | scoCntWrite (u : ScoUnit) (i : Fin 16) (v : W64)
  | scoSampleWrite (u : ScoUnit) (v : W64)
  | vinLow (vin : BitVec 16)
  deriving DecidableEq, Repr

end Sys2Proof
end

