-- ==== Sys2Proof/Decode.lean ====
section
/-!
DEFINITION. Decode.lean: the commands of this block come from outside as they are: no row of spec/opcode_table.json gives bits. The rows that are
instructions of a Dealer core have a word of their own in the spec (R219, R222, R225), which is read here.
-/
namespace Sys2Proof

/-- The command that a word spells by the table's bits: none, as no row of the table has bits. -/
def decodeTableWord (_nbits _w : Nat) : Option Instr := none

/-! ### The instruction words of a Dealer core (R219) -/

/-- Bits [lo + n - 1 : lo] of an instruction word. -/
def wordBits (w : BitVec 32) (lo n : Nat) : Nat := w.toNat / 2 ^ lo % 2 ^ n

/-- The D, A and B fields of a word. -/
def wordD (w : BitVec 32) : Fin 32 := Fin.ofNat 32 (wordBits w 21 5)
def wordA (w : BitVec 32) : Fin 32 := Fin.ofNat 32 (wordBits w 16 5)
def wordB (w : BitVec 32) : Fin 32 := Fin.ofNat 32 (wordBits w 11 5)

/-- MAJOR 0x00 by FUNCT. -/
def integerWord (c : Fin 192) (d a b : Fin 32) (funct : Nat) : Option Instr :=
  [Instr.add c d a b, .sub c d a b, .and c d a b, .or c d a b, .xor c d a b, .sll c d a b, .srl c d a b, .sra c d a b,
   .mul c d a b, .mulhs c d a b, .mulhu c d a b, .div c d a b, .divu c d a b, .rem c d a b, .remu c d a b, .slt c d a b, .sltu c d a b][funct]?

/-- MAJOR 0x06: a shift by IMM[5:0], its kind IMM[7:6]. -/
def shiftWord (c : Fin 192) (d a : Fin 32) (imm : BitVec 16) : Option Instr :=
  let sh := BitVec.ofNat 6 imm.toNat
  [Instr.slli c d a sh, .srli c d a sh, .srai c d a sh][imm.toNat / 64 % 4]?

/-- MAJOR 0x01 to 0x1D: format I. -/
def immediateWord (c : Fin 192) (d a : Fin 32) (imm : BitVec 16) : Nat → Option Instr
  | 0x01 => some (.addi c d a imm)
  | 0x02 => some (.andi c d a imm)
  | 0x03 => some (.ori c d a imm)
  | 0x04 => some (.xori c d a imm)
  | 0x05 => some (.slti c d a imm)
  | 0x06 => shiftWord c d a imm
  | 0x07 => some (.lui c d imm)
  | 0x08 => some (.ld64 c d a imm)
  | 0x09 => some (.ld32 c d a imm)
  | 0x0A => some (.ld16 c d a imm)
  | 0x0B => some (.ld8 c d a imm)
  | 0x0C => some (.ld32u c d a imm)
  | 0x0D => some (.ld16u c d a imm)
  | 0x0E => some (.ld8u c d a imm)
  | 0x10 => some (.st64 c d a imm)
  | 0x11 => some (.st32 c d a imm)
  | 0x12 => some (.st16 c d a imm)
  | 0x13 => some (.st8 c d a imm)
  | 0x14 => some (.fld c d a imm)
  | 0x15 => some (.fst c d a imm)
  | 0x16 => some (.fld32 c d a imm)
  | 0x17 => some (.fst32 c d a imm)
  | 0x18 => some (.beq c d a imm)
  | 0x19 => some (.bne c d a imm)
  | 0x1A => some (.blt c d a imm)
  | 0x1B => some (.bge c d a imm)
  | 0x1C => some (.bltu c d a imm)
  | 0x1D => some (.bgeu c d a imm)
  | _ => none

/-- MAJOR 0x21 by FUNCT[6:0]; FUNCT[7] chooses binary32. -/
def floatWord (c : Fin 192) (d a b : Fin 32) (single : Bool) : Nat → Option Instr
  | 0x00 => some (.fadd c d a b single)
  | 0x01 => some (.fsub c d a b single)
  | 0x02 => some (.fmul c d a b single)
  | 0x03 => some (.ffma c d a b single)
  | 0x04 => some (.fdiv c d a b single)
  | 0x05 => some (.fsqrt c d a single)
  | 0x06 => some (.fmin c d a b single)
  | 0x07 => some (.fmax c d a b single)
  | 0x08 => some (.feq c d a b single)
  | 0x09 => some (.flt c d a b single)
  | 0x0A => some (.fle c d a b single)
  | 0x10 => some (.fcvt c d a b single)
  | 0x11 => some (.ftoi c d a single)
  | 0x12 => some (.itof c d a single)
  | 0x13 => some (.fmvg c d a single)
  | 0x14 => some (.fmvf c d a single)
  | _ => none

/-- MAJOR 0x24 by FUNCT. -/
def systemWord (c : Fin 192) (d a : Fin 32) (funct : Nat) : Option Instr :=
  [Instr.fence c d a, .rdcyc c d, .rdcad c d, .rdacr c d, .wracr c a, .rdflags c d, .wrflags c a, .trapret c, .brk c, .wrtvec c a][funct]?

/-- MAJOR 0x28 to 0x2B by FUNCT (R267, R268, R288, R296). -/
def fabricWord (c : Fin 192) (d a b : Fin 32) : Nat → Nat → Option Instr
  | 0x28, 0x00 => some (.atom c d a b)
  | 0x29, 0x00 => some (.rput c d a b)
  | 0x29, 0x01 => some (.rget c d a b)
  | 0x2A, 0x00 => some (.inval c a b)
  | 0x2A, 0x01 => some (.invalSend c d a b)
  | 0x2B, 0x00 => some (.hand c d a)
  | 0x2B, 0x01 => some (.msend c d a)
  | _, _ => none

/-- MAJOR 0x2D by FUNCT (R222-R224). -/
def vectorWord (c : Fin 192) (d a b : Fin 32) (m : Fin 8) : Nat → Option Instr
  | 0x00 => some (.vadd c d a b m)
  | 0x01 => some (.vsub c d a b m)
  | 0x02 => some (.vmul c d a b m)
  | 0x03 => some (.vfma c d a b m)
  | 0x04 => some (.vdiv c d a b m)
  | 0x05 => some (.vsqrt c d a m)
  | 0x06 => some (.vmin c d a b m)
  | 0x07 => some (.vmax c d a b m)
  | 0x08 => some (.vand c d a b m)
  | 0x09 => some (.vor c d a b m)
  | 0x0A => some (.vxor c d a b m)
  | 0x0B => some (.vsll c d a b m)
  | 0x0C => some (.vsrl c d a b m)
  | 0x0D => some (.vsra c d a b m)
  | 0x10 => some (.vcmpeq c d a b m)
  | 0x11 => some (.vcmplt c d a b m)
  | 0x12 => some (.vcmple c d a b m)
  | 0x18 => some (.vsel c d a b m)
  | 0x19 => some (.vsplat c d a m)
  | 0x1A => some (.vmv c d a m)
  | 0x1B => some (.vcvt c d a b m)
  | 0x20 => some (.vsad c d a b m)
  | 0x21 => some (.vsada c d a b m)
  | 0x28 => some (.vredsum c d a b m)
  | 0x29 => some (.vredmax c d a b m)
  | _ => none

/-- MAJOR 0x2E by FUNCT[3:0]; FUNCT[5:4] is SH and FUNCT[7:6] is IW, both 0 in all but gathers and scatters (R225, R228). -/
def vectorMemWord (c : Fin 192) (d a b : Fin 32) (m : Fin 8) (funct : Nat) : Option Instr :=
  let sh : BitVec 2 := BitVec.ofNat 2 (funct / 16)
  let iw : BitVec 2 := BitVec.ofNat 2 (funct / 64)
  match funct % 16 with
  | 0x4 => some (.gather c d a b m sh iw)
  | 0x5 => some (.gatherff c d a b m sh iw)
  | 0x6 => some (.scatter c d a b m sh iw)
  | _ => match funct with
    | 0x0 => some (.vld c d a m)
    | 0x1 => some (.vst c d a m)
    | 0x2 => some (.vlds c d a b m)
    | 0x3 => some (.vsts c d a b m)
    | 0xF => some (.submit c a b)
    | _ => none

/-- R219: the instruction that a word spells at a core; none where MAJOR or FUNCT is reserved. A bit that the format gives an instruction
no use for is ignored (log entry 15). -/
def dealerWord (c : Fin 192) (w : BitVec 32) : Option Instr :=
  let d := wordD w
  let a := wordA w
  let b := wordB w
  let m : Fin 8 := Fin.ofNat 8 (wordBits w 8 3)
  let funct := wordBits w 0 8
  let major := wordBits w 26 6
  if major = 0x00 then integerWord c d a b funct
  else if major = 0x1E then some (.jmp c (BitVec.ofNat 26 w.toNat))
  else if major = 0x1F then some (.jal c (BitVec.ofNat 26 w.toNat))
  else if major = 0x20 then [Instr.jr c a, .jalr c a][funct]?
  else if major = 0x21 then floatWord c d a b (w.getLsbD 7) (funct % 128)
  else if major = 0x24 then systemWord c d a funct
  else if major = 0x2D then vectorWord c d a b m funct
  else if major = 0x2E then vectorMemWord c d a b m funct
  else if major = 0x2F then some (.setvl c d a (w.getLsbD 15) (BitVec.ofNat 8 w.toNat))
  else if major ≥ 0x28 then fabricWord c d a b major funct
  else immediateWord c d a (BitVec.ofNat 16 w.toNat) major

end Sys2Proof
end

