-- ==== Sys2Proof/Config.lean ====
section
/-!
DEFINITION. Config.lean: what an implementation fixes and what the spec leaves open. Every constant here is opaque: no proof
can see its value, so a statement that holds, holds whatever the value is (log entries 6 and 7).
-/
namespace Sys2Proof.Config

open Sys2Proof

/-- R238: what a byte of HBM reads as after the window geometry has changed; by the epoch of the change and the byte's place
(log entry 6). -/
opaque unspecByte : Nat → Nat → BitVec 8

/-- A free value by the counter of State (log entry 6). -/
opaque freeWord : Nat → BitVec 64

/-- R97: where the bits sp, n > 0, neg_only, wl and ax stand in bits [159:152] of an accumulator slot; the argument is
those facts as a number (log entry 6). -/
opaque slotBits : Nat → BitVec 8

/-- R399: the fuse yield map of the package, 768 bits (log entry 7). -/
opaque fuseYield : BitVec 768

/-- R440: byte by byte, the public key of the identity key pair; the private key is behind `sign` alone (log entry 7). -/
opaque publicKeyByte : Nat → BitVec 8

/-- R435: the key derived from the fused device secret (log entry 7). -/
opaque recordKey : List (BitVec 8)

/-- R415: Onasar's PCI vendor identifier (log entry 7). -/
opaque vendorId : BitVec 16

/-- R415: the width and the rate at which the endpoint has trained, as places in the lists of the rule (log entry 7). -/
opaque linkWidth : Fin 3
opaque linkRate : Fin 6

/-- R439: the fused security version number at the first reset (log entry 7). -/
opaque fuseSvn : BitVec 8

/-- R440, R441: ML-DSA-65 signing by the package's key over a message; the algorithm is outside the spec (log entry 11). -/
opaque sign : List (BitVec 8) → List (BitVec 8)

/-- R439, R440, R360, R442: ML-DSA-65 verification: key digest, message, signature (log entry 11). -/
opaque verify : BitVec 256 → List (BitVec 8) → List (BitVec 8) → Bool

/-- R440: the certificate chain, part by part (log entry 7). -/
opaque certificate : List (BitVec 8)

/-- R437, R440, R442: does a certificate (or chain of them) lead from the fused root to the key with this digest (log entry 11)? -/
opaque chainOk : List (BitVec 8) → BitVec 256 → Bool

/-- R437: the digest of the key that signs images, which the image's certificate carries (log entry 11). -/
opaque signerOf : List (BitVec 8) → BitVec 256

/-- R441: SHAKE256 of the boot ROM (log entry 7). -/
opaque romDigest : BitVec 256

/-- R443: the 32-bit device identification code of the JTAG port (log entry 7). -/
opaque jtagIdcode : BitVec 32

/-- R444: the entropy of the n-th challenge or nonce (log entry 6). -/
opaque entropy : Nat → BitVec 256

/-- R450: the value in one cycle of a Scorecard event that depends on durations which the model leaves out: event code, unit,
cycle (log entry 6). -/
opaque activity : Nat → Nat → Nat → Nat

/-- R437: the fields of a firmware image's 128-byte header whose places the spec does not give: 0 BODY_LEN, 1 CERT_LEN,
2 BODY_DIGEST, 3 DEBUG_KEY (log entry 7). -/
opaque imageField : List (BitVec 8) → Nat → Nat

/-- R143, R144: an I32 result that does not fit 32 bits and whose value the spec does not give: operation (0 ABS, 1 NEG, 2 FMA) and
operands (log entry 6). -/
opaque intCorner : Nat → Nat → Nat → Nat → BitVec 32

/-- R219: SLL, SRL and SRA by 64 or more, which the spec does not give: operation (0, 1, 2), value and count (log entry 6). -/
opaque shiftCorner : Nat → BitVec 64 → BitVec 64 → BitVec 64

end Sys2Proof.Config
end

