-- ==== Sys2Proof/Machine/Shake.lean ====
section
/-!
DEFINITION. Shake.lean: SHAKE256, which R41 to R43, R168, R190, R349, R390 and R430 name (log entry 10: PRESUMED, as in
FIPS 202; the spec names the function and does not define it).
-/
namespace Sys2Proof.Machine

/-- A lane of the state, by index x + 5y. -/
def lane (a : List (BitVec 64)) (i : Nat) : BitVec 64 := a.getD i 0

/-- Where the step that moves lanes takes the lane at an index: (x, y) goes to (y, 2x + 3y). -/
def kNext (i : Nat) : Nat := i / 5 + 5 * ((2 * (i % 5) + 3 * (i / 5)) % 5)

/-- The moves of the 24 lanes other than lane 0, along their one cycle from lane 1: from, to, and the rotation on the way, whose t-th is
the t-th triangular number. -/
def kMoves : List (Nat × Nat × Nat) :=
  ((upTo 24).foldl (fun (at_, ms) t => (kNext at_, ms ++ [(at_, kNext at_, (t + 1) * (t + 2) / 2)])) (1, [])).2

/-- The feedback register that gives the bits of the round constants: x^8 + x^6 + x^5 + x^4 + 1. -/
def kFeed (r : Nat) : Nat := if r < 128 then 2 * r else (2 * r) % 256 ^^^ 0x71

/-- The 24 round constants: bit 2^j - 1 of each takes the register's next bit, for j = 0 to 6. -/
def kConsts : List (BitVec 64) :=
  ((upTo 24).foldl (fun (r, cs) _ =>
    let (r', c) := (upTo 7).foldl (fun (x, c) j => (kFeed x, if x % 2 = 1 then c + 2 ^ (2 ^ j - 1) else c)) (r, 0)
    (r', cs ++ [BitVec.ofNat 64 c])) (1, [])).2

/-- The parity of the column of a lane. -/
def kParity (a : List (BitVec 64)) (x : Nat) : BitVec 64 := (upTo 5).foldl (fun p y => p ^^^ lane a (x % 5 + 5 * y)) 0

/-- Every lane takes the parities of the columns beside its own. -/
def kMix (a : List (BitVec 64)) : List (BitVec 64) :=
  let ps := (upTo 5).map (kParity a)
  (upTo 25).map (fun i => lane a i ^^^ lane ps ((i + 4) % 5) ^^^ (lane ps ((i + 1) % 5)).rotateLeft 1)

/-- The lanes are rotated and moved. -/
def kMove (a : List (BitVec 64)) : List (BitVec 64) := kMoves.foldl (fun b (m : Nat × Nat × Nat) => b.set m.2.1 ((lane a m.1).rotateLeft m.2.2)) a

/-- The non-linear step within a row. -/
def kRow (a : List (BitVec 64)) : List (BitVec 64) :=
  (upTo 25).map (fun i =>
    let at_ (k : Nat) : BitVec 64 := lane a (i / 5 * 5 + (i + k) % 5)
    at_ 0 ^^^ (at_ 2 &&& ~~~(at_ 1)))

/-- The permutation: 24 rounds, each of which ends with its constant on lane 0. -/
def kPerm (a : List (BitVec 64)) : List (BitVec 64) :=
  kConsts.foldl (fun a rc => let b := kRow (kMove (kMix a)); b.set 0 (lane b 0 ^^^ rc)) a

/-- The lanes of a block of 136 bytes, and eight lanes of zeros. -/
def kLanes (block : List Byte) : List (BitVec 64) :=
  (upTo 25).map (fun i => BitVec.ofNat 64 (leAt block (8 * i) 8))

/-- Absorb a block. -/
def kAbsorb (a : List (BitVec 64)) (block : List Byte) : List (BitVec 64) :=
  kPerm (List.zipWith (fun x y => x ^^^ y) a (kLanes block))

/-- Absorb the whole blocks of a message and its padded last block (`fuel` blocks at most). -/
def kAbsorbAll : Nat → List (BitVec 64) → List Byte → List (BitVec 64)
  | 0, a, _ => a
  | n + 1, a, m =>
    if m.length < 136 then
      let padded := m ++ [0x1F] ++ List.replicate (135 - m.length) 0
      let last := padded.set 135 (padded.getD 135 0 ||| 0x80)
      kAbsorb a last
    else kAbsorbAll n (kAbsorb a (m.take 136)) (m.drop 136)

/-- The bytes of the state's first 136 bytes. -/
def kSqueeze (a : List (BitVec 64)) : List Byte := ((a.take 17).map (fun x => leBytes 8 x.toNat)).flatten

/-- The first `n` bytes of SHAKE256 of a message (n at most 136). -/
def shake256 (n : Nat) (m : List Byte) : List Byte :=
  (kSqueeze (kAbsorbAll (m.length / 136 + 1) (List.replicate 25 0) m)).take n

/-- A 32-byte digest as a number, byte 0 lowest. -/
def digest256 (m : List Byte) : BitVec 256 := BitVec.ofNat 256 (leNat (shake256 32 m))

/-- The 32 bytes of a digest. -/
def digestBytes (d : BitVec 256) : List Byte := leBytes 32 d.toNat

end Sys2Proof.Machine

namespace Sys2Proof.Config

open Sys2Proof.Machine

/-- R440: the public key, 1,952 bytes. -/
def publicKey : List Byte := (upTo 1952).map publicKeyByte

/-- R440: the identity digest: SHAKE256, 32 bytes, of the public key. -/
def identity : BitVec 256 := digest256 publicKey

end Sys2Proof.Config
end

