-- ==== Sys2Proof/Machine/Num.lean ====
section
/-!
DEFINITION. Num.lean: exact numbers, the floating-point encodings of R69-R71, one rounding for every unit (R53-R56,
R82-R85), and the integers of R79. A finite value is a sign, a magnitude and a power of two, or a quotient of such.
-/
namespace Sys2Proof.Machine

/-- The sticky flags of anchored arithmetic (R63). -/
structure AFlags where
  /-- bits below the window were dropped -/
  windowLoss : Bool := false
  /-- the final rounding changed the value -/
  inexact : Bool := false
  /-- an operand or a result was flushed -/
  flushed : Bool := false
  /-- the output format could not hold the result -/
  resultOvf : Bool := false
  /-- a memory-side term exceeded its declared anchor -/
  anchorExceeded : Bool := false
  deriving DecidableEq, Repr

/-- R64: flags are joined by logical OR. -/
def AFlags.or (a b : AFlags) : AFlags where
  windowLoss := a.windowLoss || b.windowLoss
  inexact := a.inexact || b.inexact
  flushed := a.flushed || b.flushed
  resultOvf := a.resultOvf || b.resultOvf
  anchorExceeded := a.anchorExceeded || b.anchorExceeded

/-- The OR of a list of flags. -/
def AFlags.all (fs : List AFlags) : AFlags := fs.foldl AFlags.or {}

/-- A decoded value (R70, R71, R74): a NaN, an infinity, or ± mag·2^exp; a zero keeps its sign. -/
inductive FVal where
  | nan
  | inf (neg : Bool)
  | fin (neg : Bool) (mag : Nat) (exp : Int)
  deriving DecidableEq, Repr

/-- Positive zero. -/
def FVal.zero : FVal := .fin false 0 0

/-- Is this a NaN? -/
def FVal.isNan : FVal → Bool
  | .nan => true
  | _ => false

/-- Is this an infinity? -/
def FVal.isInf : FVal → Bool
  | .inf _ => true
  | _ => false

/-- Is this a zero of either sign? -/
def FVal.isZero : FVal → Bool
  | .fin _ 0 _ => true
  | _ => false

/-- The sign bit (a NaN of the device has sign bit 0, R71). -/
def FVal.neg : FVal → Bool
  | .nan => false
  | .inf n => n
  | .fin n _ _ => n

/-- Change the sign. -/
def FVal.negate : FVal → FVal
  | .nan => .nan
  | .inf n => .inf (!n)
  | .fin n m e => .fin (!n) m e

/-- The absolute value. -/
def FVal.abs : FVal → FVal
  | .nan => .nan
  | .inf _ => .inf false
  | .fin _ m e => .fin false m e

/-- E(x) of the anchored sums: floor(log2 |x|) of a finite nonzero value; none for the others (R58). -/
def FVal.expo : FVal → Option Int
  | .fin _ m e => if m = 0 then none else some ((m.log2 : Int) + e)
  | _ => none

/-- The signed significand of a finite value. -/
def signedMag (neg : Bool) (m : Nat) : Int := if neg then -(m : Int) else m

/-- A finite value from a signed significand; the zero takes the sign `zneg`. -/
def FVal.ofInt (zneg : Bool) (m : Int) (e : Int) : FVal :=
  if m = 0 then .fin zneg 0 0 else .fin (decide (m < 0)) m.natAbs e

/-- Exact product, with the IEEE rules for infinities, zeros and NaNs. -/
def FVal.mul : FVal → FVal → FVal
  | .nan, _ => .nan
  | _, .nan => .nan
  | .inf a, .inf b => .inf (a != b)
  | .inf a, .fin b m _ => if m = 0 then .nan else .inf (a != b)
  | .fin a m _, .inf b => if m = 0 then .nan else .inf (a != b)
  | .fin a m e, .fin b n f => .fin (a != b) (m * n) (e + f)

/-- Exact sum; an exact zero of unlike operands is +0, or −0 when `down` (rounding towards minus infinity). -/
def FVal.add (down : Bool) : FVal → FVal → FVal
  | .nan, _ => .nan
  | _, .nan => .nan
  | .inf a, .inf b => if a = b then .inf a else .nan
  | .inf a, .fin _ _ _ => .inf a
  | .fin _ _ _, .inf b => .inf b
  | .fin a m e, .fin b n f =>
    if m = 0 then (if n = 0 then .fin (if a = b then a else down) 0 0 else .fin b n f)
    else if n = 0 then .fin a m e
    else
      let l := min e f
      let s := signedMag a (m <<< (e - l).toNat) + signedMag b (n <<< (f - l).toNat)
      FVal.ofInt down s l

/-- Multiply by a power of two. -/
def FVal.scale (k : Int) : FVal → FVal
  | .fin a m e => .fin a m (e + k)
  | v => v

/-- The order of two finite or infinite values: −1, 0 or 1; none if one is a NaN. Zeros of either sign are equal. -/
def FVal.cmp : FVal → FVal → Option Int
  | .nan, _ => none
  | _, .nan => none
  | .inf a, .inf b => some (bit01 (!a) - bit01 (!b) : Int)
  | .inf a, .fin _ _ _ => some (if a then -1 else 1)
  | .fin _ _ _, .inf b => some (if b then 1 else -1)
  | .fin a m e, .fin b n f =>
    let l := min e f
    let x := signedMag a (m <<< (e - l).toNat)
    let y := signedMag b (n <<< (f - l).toNat)
    some (if x < y then -1 else if x = y then 0 else 1)

/-- Is the first value less than the second (false with a NaN)? -/
def FVal.lt (a b : FVal) : Bool := FVal.cmp a b == some (-1)

/-- Are two values numerically equal (false with a NaN)? -/
def FVal.eqv (a b : FVal) : Bool := FVal.cmp a b == some 0

/-- Is the first value at most the second (false with a NaN)? -/
def FVal.le (a b : FVal) : Bool := FVal.lt a b || FVal.eqv a b

/-! ### Floating-point formats -/

/-- How a format spends its top exponent (R69, R70). -/
inductive TopKind where
  /-- exponent all ones holds infinities and NaNs -/
  | ieee
  /-- only S.1111.111 is a NaN (E4M3) -/
  | oneNan
  /-- every encoding is finite -/
  | finite
  deriving DecidableEq, Repr

/-- A floating-point format (R69): exponent bits, significand bits, bias. -/
structure FFmt where
  ew : Nat
  mw : Nat
  bias : Int
  top : TopKind
  deriving DecidableEq, Repr

/-- binary64 (R69). -/
def fp64 : FFmt := ⟨11, 52, 1023, .ieee⟩
/-- binary32 (R69). -/
def fp32 : FFmt := ⟨8, 23, 127, .ieee⟩
/-- binary16 (R69). -/
def fp16 : FFmt := ⟨5, 10, 15, .ieee⟩
/-- BF16 (R69). -/
def bf16 : FFmt := ⟨8, 7, 127, .ieee⟩
/-- OCP E4M3 (R69). -/
def e4m3 : FFmt := ⟨4, 3, 7, .oneNan⟩
/-- OCP E5M2 (R69). -/
def e5m2 : FFmt := ⟨5, 2, 15, .ieee⟩
/-- E3M2, in MX blocks only (R69). -/
def e3m2 : FFmt := ⟨3, 2, 3, .finite⟩
/-- E2M3, in MX blocks only (R69). -/
def e2m3 : FFmt := ⟨2, 3, 1, .finite⟩
/-- E2M1, in MX blocks only (R69). -/
def e2m1 : FFmt := ⟨2, 1, 1, .finite⟩

/-- Bits of one element. -/
def FFmt.width (f : FFmt) : Nat := 1 + f.ew + f.mw

/-- The encoding of the largest finite magnitude (R69). -/
def FFmt.maxBits (f : FFmt) : Nat :=
  match f.top with
  | .ieee => (2 ^ f.ew - 1) * 2 ^ f.mw - 1
  | .oneNan => 2 ^ (f.ew + f.mw) - 2
  | .finite => 2 ^ (f.ew + f.mw) - 1

/-- The canonical quiet NaN (R69, R71). -/
def FFmt.nanBits (f : FFmt) : Nat :=
  match f.top with
  | .ieee => (2 ^ f.ew - 1) * 2 ^ f.mw + 2 ^ (f.mw - 1)
  | .oneNan => 2 ^ (f.ew + f.mw) - 1
  | .finite => 0

/-- The encoding of an infinity's magnitude (formats of kind `ieee` only). -/
def FFmt.infBits (f : FFmt) : Nat := (2 ^ f.ew - 1) * 2 ^ f.mw

/-- The sign bit in place. -/
def FFmt.signBits (f : FFmt) (neg : Bool) : Nat := if neg then 2 ^ (f.ew + f.mw) else 0

/-- R70, R71: decode an encoding. -/
def FFmt.decode (f : FFmt) (bits : Nat) : FVal :=
  let neg := bits.testBit (f.ew + f.mw)
  let frac := bits % 2 ^ f.mw
  let ex := (bits >>> f.mw) % 2 ^ f.ew
  let finite : FVal :=
    if ex = 0 then .fin neg frac (1 - f.bias - f.mw)
    else .fin neg (2 ^ f.mw + frac) ((ex : Int) - f.bias - f.mw)
  match f.top with
  | .ieee => if ex = 2 ^ f.ew - 1 then (if frac = 0 then .inf neg else .nan) else finite
  | .oneNan => if ex = 2 ^ f.ew - 1 ∧ frac = 2 ^ f.mw - 1 then .nan else finite
  | .finite => finite

/-- Is this encoding a nonzero subnormal? -/
def FFmt.isSubnormal (f : FFmt) (bits : Nat) : Bool :=
  (bits >>> f.mw) % 2 ^ f.ew == 0 && bits % 2 ^ f.mw != 0

/-- R56: decode an operand, replacing a subnormal by a zero of its sign when FLUSH is 1; and whether it was flushed. -/
def FFmt.decodeFlush (f : FFmt) (flush : Bool) (bits : Nat) : FVal × Bool :=
  if flush && f.isSubnormal bits then (.fin (bits.testBit (f.ew + f.mw)) 0 0, true) else (f.decode bits, false)

/-- The rounding choices: R53, R54 for the engines, R85 and R216 for the Dealer. `sr` carries the 24-bit draw. -/
inductive Rnd where
  | rne
  | rtz
  | rup
  | rdn
  | sr (draw : Nat)
  deriving DecidableEq, Repr

/-- Does the magnitude floor `q` with remainder `r`/`d` go up? R53, R54. -/
def Rnd.up (m : Rnd) (neg : Bool) (q r d : Nat) : Bool :=
  if r = 0 then false
  else match m with
    | .rne => decide (2 * r > d) || (decide (2 * r = d) && q % 2 == 1)
    | .rtz => false
    | .rup => !neg
    | .rdn => neg
    | .sr draw => decide (r * 2 ^ 24 > draw * d)

/-- Floor, remainder and divisor of (n/d)·2^k. -/
def scaledDiv (n d : Nat) (k : Int) : Nat × Nat × Nat :=
  if 0 ≤ k then
    let x := n <<< k.toNat
    (x / d, x % d, d)
  else
    let dd := d <<< (-k).toNat
    (n / dd, n % dd, dd)

/-- floor(log2 (n/d)) for n, d > 0. -/
def ratLog2 (n d : Nat) : Int :=
  let k : Int := (n.log2 : Int) - d.log2
  let below : Bool := if 0 ≤ k then decide (n < d <<< k.toNat) else decide (n <<< (-k).toNat < d)
  if below then k - 1 else k

/-- A rounded result: its encoding, whether it changed, whether it left the finite range, whether it was flushed, and
whether the exact value was nonzero but below the smallest normal. -/
structure Rounded where
  bits : Nat
  inexact : Bool
  overflow : Bool
  flushed : Bool
  tiny : Bool
  deriving DecidableEq, Repr

/-- R53-R56: round ± (n/d)·2^e, with n, d > 0, once to a floating-point format. A result that FLUSH makes zero is inexact and flushed, that of
the conversion of an MX element included (R83 names FLUSHED alone, R56 and R63 both: DEDUCED, log entry 29). -/
def FFmt.roundRat (f : FFmt) (m : Rnd) (flush neg : Bool) (n d : Nat) (e : Int) : Rounded :=
  if n = 0 then ⟨f.signBits neg, false, false, false, false⟩
  else
    let ex := ratLog2 n d + e
    let lsb := max (ex - f.mw) (1 - f.bias - f.mw)
    let (q, r, dd) := scaledDiv n d (e - lsb)
    let up := m.up neg q r dd
    let q' := if up then q + 1 else q
    let mag := ((lsb + f.mw + f.bias - 1).toNat) * 2 ^ f.mw + q'
    let inexact := decide (r ≠ 0)
    let tiny := decide (ex < 1 - f.bias)
    if mag > f.maxBits then
      let toMax : Bool := match m with
        | .rtz => true
        | .rup => neg
        | .rdn => !neg
        | _ => false
      let mg := if toMax || f.top != .ieee then f.maxBits else f.infBits
      ⟨f.signBits neg + mg, true, true, false, tiny⟩
    else if flush && mag != 0 && decide (mag < 2 ^ f.mw) then
      ⟨f.signBits neg, true, false, true, tiny⟩
    else ⟨f.signBits neg + mag, inexact, false, false, tiny⟩

/-- R55, R56, R84: a value into a floating-point format, with its flags. -/
def FFmt.encode (f : FFmt) (m : Rnd) (flush : Bool) (v : FVal) : Nat × AFlags :=
  match v with
  | .nan => (f.nanBits, {})
  | .inf neg =>
    match f.top with
    | .ieee => (f.signBits neg + f.infBits, {})
    | _ => (f.signBits neg + f.maxBits, { resultOvf := true })
  | .fin neg mag e =>
    let r := f.roundRat m flush neg mag 1 e
    (r.bits, { inexact := r.inexact, resultOvf := r.overflow, flushed := r.flushed })

/-- Round ± mag·2^e to an integer (R79: round_ne_int or the choice of R54). -/
def roundInt (m : Rnd) (neg : Bool) (mag : Nat) (e : Int) : Int × Bool :=
  let (q, r, d) := scaledDiv mag 1 e
  let q' := if m.up neg q r d then q + 1 else q
  (signedMag neg q', decide (r ≠ 0))

/-- R55, R79: a value into an n-bit two's-complement integer: its encoding and flags. -/
def encodeInt (n : Nat) (m : Rnd) (v : FVal) : Nat × AFlags :=
  match v with
  | .nan => (0, { resultOvf := true })
  | .inf neg => (ofSigned n (if neg then -(2 ^ (n - 1) : Int) else 2 ^ (n - 1) - 1), { resultOvf := true })
  | .fin neg mag e =>
    let (i, ix) := roundInt m neg mag e
    if i > 2 ^ (n - 1) - 1 then (2 ^ (n - 1) - 1, { resultOvf := true, inexact := true })
    else if i < -(2 ^ (n - 1) : Int) then (2 ^ (n - 1), { resultOvf := true, inexact := true })
    else (ofSigned n i, { inexact := ix })

/-- Decode an n-bit integer (R79). -/
def decodeInt (n bits : Nat) : FVal := FVal.ofInt false (toSigned n bits) 0

/-- Integer square root by bits, most significant first (`fuel` bits). -/
def isqrtAux (n : Nat) : Nat → Nat → Nat
  | 0, r => r
  | k + 1, r => let c := r + 2 ^ k; isqrtAux n k (if c * c ≤ n then c else r)

/-- floor(sqrt n). -/
def isqrt (n : Nat) : Nat := isqrtAux n (n.log2 / 2 + 1) 0

/-- The square root of a positive mag·2^e as an exact-for-rounding dyadic: 128 bits of root and a sticky bit below. -/
def sqrtSticky (mag : Nat) (e : Int) : Nat × Int :=
  let e0 : Int := if e % 2 = 0 then e else e - 1
  let m0 := if e % 2 = 0 then mag else 2 * mag
  let m1 := m0 <<< 256
  let r := isqrt m1
  let sticky := if r * r = m1 then 0 else 1
  (2 * r + sticky, e0 / 2 - 128 - 1)

end Sys2Proof.Machine
end

