-- ==== Sys2Proof/Machine/Anchored.lean ====
section
/-!
DEFINITION. Anchored.lean: the anchored sum (R46-R66), the format codes of R67 and their roles (R68, R86), the microscaling
blocks (R72-R78), E8M0 (R74, R484) and FIX36 (R80, R81).
-/
namespace Sys2Proof.Machine

/-! ### Anchored sums -/

/-- The special part `sp` of an anchored sum (R48, R49). -/
inductive Special where
  | finite
  | pinf
  | ninf
  | nan
  deriving DecidableEq, Repr

/-- R49: join. -/
def Special.join : Special → Special → Special
  | .finite, x => x
  | x, .finite => x
  | .pinf, .pinf => .pinf
  | .ninf, .ninf => .ninf
  | _, _ => .nan

/-- The infinity of a sign. -/
def Special.ofSign (neg : Bool) : Special := if neg then .ninf else .pinf

/-- A use's window and guard widths (R46). -/
structure Window where
  w : Nat
  g : Nat
  deriving DecidableEq, Repr

/-- R46, the five kinds of use. -/
def win128 : Window := ⟨128, 24⟩
/-- R46: FP64 sums of the engines. -/
def win192 : Window := ⟨192, 24⟩
/-- R46: Trick reduce traffic, FP64. -/
def winTrick64 : Window := ⟨192, 32⟩
/-- R46: Trick reduce traffic, FP32 and narrower. -/
def winTrick32 : Window := ⟨96, 32⟩
/-- R46: memory-side cell of 128 bits. -/
def winCell32 : Window := ⟨104, 24⟩
/-- R46: memory-side cell of 256 bits. -/
def winCell64 : Window := ⟨224, 32⟩

/-- A sum in progress (R48, R49): the integer, the special part, the terms seen, whether all were negative, the flags. -/
structure ASum where
  s : Int := 0
  sp : Special := .finite
  n : Nat := 0
  negOnly : Bool := true
  wl : Bool := false
  ax : Bool := false
  deriving DecidableEq, Repr

/-- R48: wrap to n bits. -/
def wrapInt (n : Nat) (x : Int) : Int := toSigned n (ofSigned n x)

/-- R48: round_ne_int of ± mag·2^e. -/
def roundNeInt (neg : Bool) (mag : Nat) (e : Int) : Int × Bool := roundInt .rne neg mag e

/-- R48: one term into a sum with anchor `a`. -/
def ASum.term (win : Window) (a : Int) (acc : ASum) (t : FVal) : ASum :=
  let acc := { acc with n := acc.n + 1, negOnly := acc.negOnly && t.neg }
  match t with
  | .nan => { acc with sp := acc.sp.join .nan }
  | .inf neg => { acc with sp := acc.sp.join (.ofSign neg) }
  | .fin neg mag e =>
    if mag ≠ 0 ∧ (mag.log2 : Int) + e ≥ a then { acc with sp := acc.sp.join (.ofSign neg), ax := true }
    else
      let (q, lost) := roundNeInt neg mag (e + win.w - a)
      { acc with s := wrapInt (win.w + win.g) (acc.s + q), wl := acc.wl || lost }

/-- R48: the terms, in any order. -/
def ASum.terms (win : Window) (a : Int) (acc : ASum) (ts : List FVal) : ASum := ts.foldl (ASum.term win a) acc

/-- R49: two partial sums joined. -/
def ASum.merge (win : Window) (x y : ASum) : ASum where
  s := wrapInt (win.w + win.g) (x.s + y.s)
  sp := x.sp.join y.sp
  n := x.n + y.n
  negOnly := x.negOnly && y.negOnly
  wl := x.wl || y.wl
  ax := x.ax || y.ax

/-- R52, R53: the exact value that the final rounding rounds. -/
def ASum.value (win : Window) (a : Int) (acc : ASum) : FVal :=
  match acc.sp with
  | .nan => .nan
  | .pinf => .inf false
  | .ninf => .inf true
  | .finite => FVal.ofInt (decide (acc.n > 0) && acc.negOnly) acc.s (a - win.w)

/-- The flags of the accumulation itself (R63). -/
def ASum.flags (acc : ASum) : AFlags := { windowLoss := acc.wl, anchorExceeded := acc.ax }

/-- The larger of two optional exponents. -/
def maxExpo : Option Int → Option Int → Option Int
  | none, y => y
  | x, none => x
  | some x, some y => some (max x y)

/-- R58: max of E over a list of values (none if all are zero, NaN or infinite). -/
def maxE (vs : List FVal) : Option Int := vs.foldl (fun m v => maxExpo m v.expo) none

/-! ### Format codes -/

/-- The formats of R67. -/
inductive Fmt where
  | b64 | b32 | b16 | bf16 | e4m3 | e5m2
  | mxE4m3 | mxE5m2 | mxE3m2 | mxE2m3 | mxE2m1 | mxInt8
  | int8 | int32 | int64 | fix36 | e8m0
  deriving DecidableEq, Repr

/-- R67: the code table; reserved codes give none. -/
def fmtOfCode (c : Nat) : Option Fmt :=
  match c with
  | 0x00 => some .b64
  | 0x01 => some .b32
  | 0x02 => some .b16
  | 0x03 => some .bf16
  | 0x04 => some .e4m3
  | 0x05 => some .e5m2
  | 0x08 => some .mxE4m3
  | 0x09 => some .mxE5m2
  | 0x0A => some .mxE3m2
  | 0x0B => some .mxE2m3
  | 0x0C => some .mxE2m1
  | 0x0D => some .mxInt8
  | 0x10 => some .int8
  | 0x11 => some .int32
  | 0x12 => some .int64
  | 0x14 => some .fix36
  | 0x15 => some .e8m0
  | _ => none

/-- R67: bits of one element. -/
def Fmt.bits : Fmt → Nat
  | .b64 => 64 | .b32 => 32 | .b16 => 16 | .bf16 => 16 | .e4m3 => 8 | .e5m2 => 8
  | .mxE4m3 => 8 | .mxE5m2 => 8 | .mxE3m2 => 6 | .mxE2m3 => 6 | .mxE2m1 => 4 | .mxInt8 => 8
  | .int8 => 8 | .int32 => 32 | .int64 => 64 | .fix36 => 64 | .e8m0 => 8

/-- R67: does the format need a scale array? -/
def Fmt.isMx : Fmt → Bool
  | .mxE4m3 | .mxE5m2 | .mxE3m2 | .mxE2m3 | .mxE2m1 | .mxInt8 => true
  | _ => false

/-- The encoding of a floating-point format, or of an MX format's element (R69). -/
def Fmt.ff : Fmt → Option FFmt
  | .b64 => some fp64 | .b32 => some fp32 | .b16 => some fp16 | .bf16 => some Machine.bf16
  | .e4m3 => some Machine.e4m3 | .e5m2 => some Machine.e5m2
  | .mxE4m3 => some Machine.e4m3 | .mxE5m2 => some Machine.e5m2
  | .mxE3m2 => some e3m2 | .mxE2m3 => some e2m3 | .mxE2m1 => some e2m1
  | _ => none

/-- The scale address that means "no scale array" (R68). -/
def noScale : Nat := 0xFFFF_FFFF_FFFF_FFFF

/-- R68, second and third cases: does a scale address agree with the format? -/
def scaleAgrees (f : Fmt) (scaleAddr : Nat) : Bool :=
  if f.isMx then scaleAddr != noScale
  else match f with
    | .fix36 => true
    | _ => scaleAddr == noScale

/-- R86: may the format stand as a Tableau operand? -/
def Fmt.tblOperand : Fmt → Bool
  | .int32 | .int64 | .fix36 | .e8m0 => false
  | _ => true

/-- R86: may the format stand as a Tableau output (INT32 for INT8 × INT8 only)? -/
def Fmt.tblOutput (bothInt8 : Bool) : Fmt → Bool
  | .int32 => bothInt8
  | .int64 | .fix36 | .e8m0 => false
  | _ => true

/-- R86: may the format stand in an Atomizer load or store? -/
def Fmt.atmStream : Fmt → Bool
  | .int64 | .fix36 => false
  | _ => true

/-- R86: may the format stand as a Shuffle score row? -/
def Fmt.shfScore : Fmt → Bool
  | .b32 | .b16 | .bf16 => true
  | _ => false

/-- R86: may the format stand in a Trick reduce? -/
def Fmt.trickReduce : Fmt → Bool
  | .b64 | .b32 | .b16 | .bf16 => true
  | _ => false

/-- R86: may the format stand in a Trick move? -/
def Fmt.trickMove : Fmt → Bool
  | .fix36 => false
  | _ => true

/-- R56, R71, R79: decode one element of a format without a scale array; the flag says it was flushed. -/
def Fmt.decode (f : Fmt) (flush : Bool) (bits : Nat) : FVal × Bool :=
  match f with
  | .int8 => (decodeInt 8 bits, false)
  | .int32 => (decodeInt 32 bits, false)
  | .int64 => (decodeInt 64 bits, false)
  | .e8m0 => (if bits % 256 = 255 then .nan else .fin false 1 ((bits % 256 : Nat) - 127), false)
  | .b64 | .b32 | .b16 | .bf16 | .e4m3 | .e5m2 =>
    match f.ff with
    | some ff => ff.decodeFlush flush bits
    | none => (.zero, false)
  | _ => (.zero, false)

/-- R484: a value into an E8M0 byte, by truncation of the exponent in every rounding mode. -/
def encodeE8m0 (v : FVal) : Nat × AFlags :=
  match v with
  | .nan => (0xFF, { resultOvf := true })
  | .inf _ => (0xFF, { resultOvf := true, inexact := true })
  | .fin neg mag e =>
    if mag = 0 ∨ neg then (0xFF, { resultOvf := true, inexact := true })
    else
      let ex : Int := (mag.log2 : Int) + e
      let out := decide (ex > 127) || decide (ex < -127)
      let cl := min (max ex (-127)) 127
      ((cl + 127).toNat, { resultOvf := out, inexact := out || mag != 2 ^ mag.log2 })

/-- R55, R79, R82, R484: a value into one element of a format without a scale array. -/
def Fmt.encode (f : Fmt) (m : Rnd) (flush : Bool) (v : FVal) : Nat × AFlags :=
  match f with
  | .int8 => encodeInt 8 m v
  | .int32 => encodeInt 32 m v
  | .int64 => encodeInt 64 m v
  | .e8m0 => encodeE8m0 v
  | _ =>
    match f.ff with
    | some ff => ff.encode m flush v
    | none => (0, {})

/-! ### Microscaling blocks -/

/-- R76: emax of an element format (0 for MXINT8). -/
def Fmt.emax : Fmt → Int
  | .mxE4m3 => 8 | .mxE5m2 => 15 | .mxE3m2 => 4 | .mxE2m3 => 2 | .mxE2m1 => 2 | _ => 0

/-- R59: the element bound b. -/
def Fmt.bound : Fmt → Int
  | .mxE2m1 => 3 | .mxE2m3 => 3 | .mxE3m2 => 5 | .mxE4m3 => 9 | .mxE5m2 => 16 | .mxInt8 => 2 | _ => 0

/-- R73: bytes of one block of 32 elements. -/
def Fmt.blockBytes (f : Fmt) : Nat := 4 * f.bits

/-- R73: the code of element `j` of a block's bytes: the element bits are consecutive in the little-endian string. -/
def blockElem (f : Fmt) (bytes : List Byte) (j : Nat) : Nat := (leNat bytes >>> (f.bits * j)) % 2 ^ f.bits

/-- R73: the bytes of a block from its 32 element codes. -/
def packBlock (f : Fmt) (codes : List Nat) : List Byte :=
  leBytes f.blockBytes (codes.foldr (fun c acc => c % 2 ^ f.bits + acc * 2 ^ f.bits) 0)

/-- R75: the element value alone, before its scale. -/
def mxElemValue (f : Fmt) (code : Nat) : FVal :=
  match f with
  | .mxInt8 => FVal.ofInt false (toSigned 8 code) (-6)
  | _ =>
    match f.ff with
    | some ff => ff.decode code
    | none => .zero

/-- R75: an element with its block scale. -/
def mxDecode (f : Fmt) (scale code : Nat) : FVal :=
  if scale % 256 = 255 then .nan else (mxElemValue f code).scale ((scale % 256 : Nat) - 127)

/-- The largest finite element of R76 (127/64 for MXINT8). -/
def mxMax (f : Fmt) : FVal :=
  match f with
  | .mxInt8 => .fin false 127 (-6)
  | _ =>
    match f.ff with
    | some ff => ff.decode ff.maxBits
    | none => .zero

/-- The code of the largest finite element of a sign. -/
def mxMaxCode (f : Fmt) (neg : Bool) : Nat :=
  match f with
  | .mxInt8 => if neg then 256 - 127 else 127
  | _ =>
    match f.ff with
    | some ff => ff.signBits neg + ff.maxBits
    | none => 0

/-- R76: one value, already divided by the block scale, onto the element grid. -/
def mxRound (f : Fmt) (m : Rnd) (v : FVal) : Nat :=
  match f with
  | .mxInt8 =>
    match v with
    | .fin neg mag e => ofSigned 8 (roundInt m neg mag (e + 6)).1
    | _ => 0
  | _ =>
    match f.ff with
    | some ff => (ff.encode m false v).1
    | none => 0

/-- The result of encoding one block. -/
structure MxBlock where
  scale : Nat
  codes : List Nat
  flags : AFlags
  deriving DecidableEq, Repr

/-- R76-R78: encode the values of one block (at most 32; a partial block is padded with +0). The rounding of position `j` is
`m j`. -/
def encodeMxBlock (f : Fmt) (m : Nat → Rnd) (vs : List FVal) : MxBlock :=
  let pad := List.replicate (32 - vs.length) 0
  if vs.any FVal.isNan then
    ⟨0xFF, List.replicate 32 0, { resultOvf := true, inexact := vs.any (fun v => !v.isNan) }⟩
  else
    let anyInf := vs.any FVal.isInf
    match (if anyInf then some (127 : Int) else (maxE vs).map (fun e => min (max (e - f.emax) (-127)) 127)) with
    | none => ⟨0, List.replicate 32 0, {}⟩
    | some x =>
      let one (jv : Nat × FVal) : Nat × AFlags :=
        let v := jv.2
        let sv := v.scale (-x)
        match v with
        | .inf neg => (mxMaxCode f neg, { resultOvf := true })
        | _ =>
          if FVal.lt (mxMax f) sv.abs then (mxMaxCode f v.neg, { resultOvf := true, inexact := true })
          else
            let c := mxRound f (m jv.1) sv
            (c, { inexact := !(FVal.eqv (mxElemValue f c) sv) })
      let rs := (List.zip (upTo vs.length) vs).map one
      ⟨(x + 127).toNat, rs.map Prod.fst ++ pad, AFlags.all (rs.map Prod.snd)⟩

/-! ### FIX36 -/

/-- R81: a binary64 value into FIX36 with scale exponent `sig`: the 36-bit integer and whether it saturated or was a NaN. -/
def toFix36 (sig : Int) (v : FVal) : Int × Bool :=
  match v with
  | .nan => (0, true)
  | .inf neg => (if neg then -(2 ^ 35 : Int) else 2 ^ 35 - 1, true)
  | .fin neg mag e =>
    let (i, _) := roundInt .rne neg mag (e + 35 - sig)
    if i > 2 ^ 35 - 1 then (2 ^ 35 - 1, true)
    else if i < -(2 ^ 35 : Int) then (-(2 ^ 35 : Int), true)
    else (i, false)

/-- R80: the value of a FIX36 integer. -/
def fix36Value (sig : Int) (m : Int) : FVal := FVal.ofInt false m (sig - 35)

/-- R80: the 64-bit container of a FIX36 integer, and back. -/
def fix36Container (m : Int) : Nat := ofSigned 64 m
/-- R80: a container is decoded from bits [35:0] only. -/
def fix36OfContainer (c : Nat) : Int := toSigned 36 c

end Sys2Proof.Machine
end

