-- ==== Sys2Proof/Machine/State.lean ====
section
/-!
DEFINITION. State.lean: everything the spec gives the package, as plain data, unit by unit in the order of the chapters, and
the state at reset. INVENTORY.md lists every field with its rule and its reset value; values the spec does not give are
log entries 4 and 5. A field whose value follows from others (a FIFO count, a valid bit of a source) is computed when a
register is read and has no home here.
-/
namespace Sys2Proof.Machine

open Sys2Proof

/-! ### Cadence (R22-R45) -/

/-- What the receiver keeps of one marker source (R24). -/
structure CadSource where
  /-- the source is valid -/
  valid : Bool
  /-- consecutive accepted markers whose counts increase by one, on time -/
  run : Nat
  /-- a marker has been accepted -/
  seen : Bool
  /-- the count of the last accepted marker -/
  lastCount : Count
  /-- the reference cycle at which it arrived -/
  lastAt : Nat
  /-- consecutive accepted markers, since it became valid, whose count differed from the node's own -/
  differ : Nat
  deriving DecidableEq, Repr

/-- R44: CAD_STATUS.STATE. -/
inductive CadState where
  | acquiring | aligning | lockedPrimary | lockedSecondary | lockedElectrical | freeRun
  deriving DecidableEq, Repr

/-- The cadence unit: its registers (R44), its sources (R24), the handshake (R29) and the relock in progress (R25-R27). -/
structure Cadence where
  secondary : BitVec 5
  primary : BitVec 5
  src : BitVec 2
  secEnable : Bool
  freerunCd : BitVec 32
  phaseErr : Int
  aligned : Bool
  st : CadState
  count : Count
  /-- the phase, below 60,000 -/
  phase : Nat
  events : BitVec 6
  jumpDelta : BitVec 48
  /-- the optical ports 0-31 and CAD_IN (32) -/
  sources : Vector CadSource 33
  /-- the source on which the node is locked, or aligns -/
  active : Fin 33
  /-- a change of PRIMARY or SRC waits for the new source's marker (R44) -/
  selPending : Bool
  /-- a count jump waits for this source's next marker (R25) -/
  jumpFrom : Option (Fin 33)
  /-- the phase error still to be slewed (R26) -/
  slew : Int
  /-- handshake: the count of marker M (R29); none while M has not arrived -/
  markerM : Option Count
  /-- handshake attempts that have failed -/
  attempts : Nat
  /-- the alignment runs on the node's own counter (R25) -/
  alignFree : Bool
  /-- cycles of the on-package reference since RST_N was released -/
  refAc : Nat
  deriving DecidableEq, Repr

/-! ### Errors (R369-R393) -/

/-- R390: an error record; CHECK is computed when the record is written out. -/
structure ErrRec where
  seq : BitVec 32 := 0
  cls : ErrClass
  scope : Nat := 0
  replayed : Bool := false
  spared : Bool := false
  workLost : Bool := false
  block : Block
  unit : Nat := 0
  code : Nat
  status : Nat := 0
  jobTag : BitVec 16 := 0
  stamp : BitVec 64 := 0
  addr : Nat := 0
  rank : BitVec 32 := 0xFFFFFFFF
  peer : BitVec 32 := 0xFFFFFFFF
  tag : BitVec 16 := 0
  count : Nat := 1
  holdAc : Nat := 0
  detail : Nat := 0
  deriving DecidableEq, Repr

/-! ### Memory (R234-R248, R333, R374, R476) -/

/-- Contents given to every key of [lo, hi) whose offset mod 2^30 is below `off`: the `n`-th unspecified ones (R96, R238), or zero data
where none (R401). -/
structure Fill where
  lo : Nat
  hi : Nat
  off : Nat
  n : Option Nat
  deriving DecidableEq, Repr

/-- The bytes of the local address space: cells in rising order of key, none equal to what an unlisted key reads as; the
poisoned 64-byte lines (key / 64) in rising order; the symbol errors standing in stored transfers. In a stack of `lost` every
transfer has been written poisoned (R377), and the lines of `poison` are those that are not. -/
structure Memory where
  cells : List Host.Cell
  /-- number of times that contents have become unspecified since reset (R96, R238) -/
  epoch : Nat
  /-- what unlisted keys read as, newest first; zero where none applies -/
  fills : List Fill
  poison : List Nat
  lost : BitVec 16
  upset : List (Nat × Pattern)
  deriving DecidableEq, Repr

/-- One HBM4 controller and its stack (R258, R245-R248). -/
structure HbmCtl where
  scrubHours : BitVec 6
  retraining : BitVec 32
  /-- retrains that MEM_RETRAIN or more than 32 corrections in one cd ask for, not yet started (R247) -/
  retrainReq : BitVec 32
  fencedCh : BitVec 32
  trained : Bool
  rate : BitVec 3
  failing : BitVec 64
  retired : BitVec 64
  corr : BitVec 32
  uncorr : BitVec 32
  err : BitVec 8
  /-- sticky flags of the 64 anchored regions at this controller (R254) -/
  aregStat : Vector (BitVec 5) 64
  /-- retrains that have failed their check, by channel -/
  retrainFails : List (Nat × Nat)
  /-- the next offset of the patrol scrub, by pseudo-channel -/
  scrubAt : Vector Nat 64
  /-- the scrub period (R245), and the pseudo-channels whose pass in it is complete -/
  period : Nat
  scrubbed : BitVec 64
  /-- distinct transfers corrected in this scrub period: (pseudo-channel, transfer) -/
  correctedInPeriod : List (Nat × Nat)
  /-- corrections in the current cd: (count of the cd, channel, number) -/
  correctedInCd : List (Count × Nat × Nat)
  /-- pseudo-channel and time of its last uncorrectable transfer, in cd -/
  lastUncorr : List (Nat × Nat)
  /-- transfers, by line, found uncorrectable since the last snapshot of a Decant (R365) -/
  hurt : List Nat
  /-- temperature at which each channel last trained -/
  trainTemp : Vector Int 32
  deriving DecidableEq, Repr

/-- R253, R258: an anchored region entry. -/
structure Areg where
  base : BitVec 64
  size : BitVec 64
  anchor : BitVec 16
  flush : Bool
  fp64Class : Bool
  valid : Bool
  deriving DecidableEq, Repr

/-- The package-wide memory state (R235, R253, R255). -/
structure MemUnit where
  ctl : Vector HbmCtl 16
  winSplit : BitVec 11
  /-- MEM_CTRL.SACHET -/
  sachet : BitVec 3
  /-- m in force -/
  sachetNow : BitVec 3
  /-- training has completed (R238, R258) -/
  trainedOnce : Bool
  grpMask : BitVec 16
  areg : Vector Areg 64
  /-- recipe images, empty where nothing is loaded (R255, R257) -/
  recipes : Vector (List Byte) 16
  /-- pip boards: the raised pips, as suit·4096 + pip, rising -/
  pips : List Nat
  /-- pips raised in the present ac: a lower in the same ac does not lower them (R334) -/
  raised : List Nat
  deriving DecidableEq, Repr

/-! ### Engines (R87-R211) -/

/-- Completion ring registers (R112, R116). -/
structure Cq where
  base : BitVec 64
  sizeLog2 : BitVec 4
  head : BitVec 32
  tail : BitVec 32
  deriving DecidableEq, Repr


/-- A descriptor stored by SUBMIT (R93, R228). -/
structure Submission where
  /-- the submitting core (none: work that Banker firmware runs) -/
  core : Option (Fin 192)
  flush : Bool
  desc : BitVec 1024
  deriving DecidableEq, Repr

/-- A descriptor in an engine's FIFO with what acceptance recorded (R92, R93, R483). -/
structure Entry where
  sub : Submission
  /-- parameter block, program image or formula image as read at acceptance -/
  image : List Byte
  /-- the Atomizer's stream table as read at acceptance -/
  stab : List Byte
  /-- status of the acceptance checks -/
  status : BitVec 16
  seq : BitVec 32
  /-- when it was accepted, in ac (R453) -/
  at_ : Nat := 0
  deriving DecidableEq, Repr

/-- Where the descriptor at the head stands. -/
inductive HeadPhase where
  | idle | waitRelease | waitPips | running | finished
  deriving DecidableEq, Repr

/-- R146: a contribution of one lane to a reduction slot: slot, line, index along the reduced dimension, value, and whether it
was of type F64. -/
structure Contrib where
  slot : Nat
  line : Nat
  idx : Nat
  v : FVal
  f64 : Bool
  deriving DecidableEq, Repr

/-- A finished reduction of one line (R147, R148): its bits in the stream's format and its value. -/
structure RedResult where
  slot : Nat
  line : Nat
  v : FVal
  deriving DecidableEq, Repr

/-- A problem of a Solitaire descriptor (R162-R186). -/
structure Problem where
  idx : Nat
  /-- the FP64 matrix, row-major encodings -/
  a : List Nat
  /-- the FIX36 matrix, row-major integers -/
  fix : List Int
  /-- right-hand sides, column-major -/
  b : List Nat
  /-- entries written, row-major -/
  wrote : List Bool
  rangeBad : Bool
  /-- a formula load met poison (R186) -/
  poisoned : Bool
  /-- factors: L and U (or D) row-major, reciprocals (r, b), pivot positions -/
  factors : List Int
  recips : List (Int × Nat)
  pivots : List Nat
  /-- exponents of the factors: σ_F and σ_M or σ_C -/
  sigF : Int
  sigL : Int
  factored : Bool
  /-- status code of R183, 0 while running -/
  status : Nat
  corrections : Nat
  column : Nat
  warmUsed : Bool
  refactored : Bool
  warmRejected : Bool
  perturbed : Bool
  resNorm : Option Nat
  x : List Nat
  done : Bool
  fl : AFlags
  deriving DecidableEq, Repr

/-- What an engine holds of the descriptor it runs, by kind. -/
structure EngRun where
  /-- Tableau: sums of the current tile, slot by slot (R97) -/
  sums : List ASum := []
  /-- Tableau: the accumulation is FP64, two slots a sum (R97) -/
  wide : Bool := false
  /-- Tableau: K-chunks consumed -/
  chunks : List Nat := []
  /-- Tableau: tiles finished -/
  tiles : Nat := 0
  /-- Atomizer: group, phase and tile of the next invocation (R138) -/
  group : Nat := 0
  phase : Nat := 0
  tile : Nat := 0
  contribs : List Contrib := []
  results : List RedResult := []
  /-- Solitaire: problems held in the work area, problems assembled, problems committed, fallbacks -/
  problems : List Problem := []
  assembled : Nat := 0
  committed : Nat := 0
  fallbacks : Nat := 0
  deriving DecidableEq, Repr

/-- R454: the cycles, in ac, that the head has waited for its release, for a pip, for ring space and for a duty slot. -/
structure Waits where
  release : Nat := 0
  pip : Nat := 0
  ring : Nat := 0
  duty : Nat := 0
  deriving DecidableEq, Repr

/-- The head of an engine's FIFO. -/
structure Head where
  phase : HeadPhase
  late : Bool
  /-- the earliest cycle of its arithmetic, in ac (R35) -/
  firstEffect : Nat
  /-- stamp of the first arithmetic cycle -/
  start : Option (BitVec 64)
  status : BitVec 16
  flags : AFlags
  /-- EMPTY (R157, R199) and TRUNC_CAP (R199) -/
  empty : Bool
  truncCap : Bool
  /-- the commit waits for ring space (R112) -/
  held : Bool
  /-- pips of the wait set that have been observed at 1 since the release (R101, R103) -/
  seen : List Nat
  /-- memory as it stood when the pips of the wait set had risen (R99) -/
  snap : Memory
  run : EngRun
  /-- when it became the head, in ac, and what it has waited for since (R454) -/
  since : Nat := 0
  waits : Waits := {}
  deriving DecidableEq, Repr

/-- The registers and queue that every kind of engine has (R116, R160, R188, R211). -/
structure Engine where
  runBit : Bool
  onSpare : Bool
  cq : Cq
  pipLimit : BitVec 16
  err : BitVec 6
  fifo : List Entry
  /-- submissions held at the port, in arrival order (R94) -/
  port : List Submission
  seq : BitVec 32
  head : Head
  deriving DecidableEq, Repr

/-- R204, R211: a sequence slot. -/
structure SeqSlot where
  active : Bool
  stream : BitVec 32
  pos : BitVec 64
  deriving DecidableEq, Repr

/-- The Shuffle state of a unit (R208). -/
structure ShfState where
  slots : Vector SeqSlot 2
  lanes : Vector (BitVec 96) 64
  deriving DecidableEq, Repr

/-- The Compounder's registers (R189). -/
structure Compounder where
  rangeCount : BitVec 13
  err : BitVec 1
  deriving DecidableEq, Repr

/-- All engines of the package. -/
structure Engines where
  tbl : Vector Engine 64
  atm : Vector Engine 64
  sol : Vector Engine 16
  shf : Vector Engine 16
  tblMask : BitVec 64
  atmMask : BitVec 64
  solMask : BitVec 16
  shfMask : BitVec 16
  cmpMask : BitVec 16
  /-- TBL_ORGAN_SPLIT.STAGE_BASE -/
  organSplit : Vector (BitVec 9) 64
  /-- lanes of T0-T31, register by register; lanes past the end are zero (R132) -/
  tileRegs : Vector (List (BitVec 32)) 64
  cmp : Vector Compounder 16
  shfState : Vector ShfState 16
  /-- the Vetiver key in every evaluator (R191) -/
  key : BitVec 128
  deriving DecidableEq, Repr

/-! ### Dealer cores (R212-R231) -/

/-- R225: a Dealer-V memory instruction that waits for a remote element: FUNCT[3:0], the register fields, M, SH and IW. -/
structure VecMem where
  op : Nat
  d : Fin 32
  a : Fin 32
  b : Fin 32
  m : Fin 8
  sh : BitVec 2
  iw : BitVec 2
  deriving DecidableEq, Repr

/-- What a stalled core waits for. -/
inductive Stall where
  /-- a SUBMIT that is not yet accepted (R228) -/
  | submit
  /-- a FENCE (R280); the register that takes its outcome and the list address, none where G[A] is G0 -/
  | fence (d : Nat) (list : Option Nat)
  /-- a remote load (R267): the operation, destination register, size, sign extension, whether to an F register -/
  | load (id : Nat) (d : Nat) (size : Nat) (signed : Bool) (toF : Bool)
  /-- a remote element of a Dealer-V load (R225): the operation, the instruction, the element and how many of them it covers -/
  | vec (id : Nat) (i : VecMem) (e n : Nat)
  /-- a fetching ATOM (R267): the operation, the register that takes its outcome -/
  | atom (id : Nat) (d : Nat)
  /-- a HAND (R288) -/
  | hand (d : Nat) (hand : Nat)
  deriving DecidableEq, Repr

/-- A Dealer core: its context (R214) and its registers (R231). -/
structure Core where
  g : Vector (BitVec 64) 32
  v : Vector (BitVec 128) 32
  k : Vector (BitVec 16) 8
  vl : BitVec 5
  vtype : BitVec 8
  pc : BitVec 64
  acr : BitVec 64
  fflags : BitVec 64
  tvec : BitVec 64
  epc : BitVec 64
  vfaddr : BitVec 64
  cause : BitVec 16
  vfault : BitVec 16
  haltAtSafe : Bool
  runBit : Bool
  onSpare : Bool
  atSafepoint : Bool
  halted : Bool
  trapped : Bool
  /-- an arithmetic fault has been seen in the instruction at the pc (R373) -/
  faulted : Bool
  /-- halting under HALT_AT_SAFE since this dc (R231) -/
  haltingSince : Option (BitVec 64)
  ctxBase : BitVec 64
  ctxResult : BitVec 8
  ctxDone : Bool
  cycle : BitVec 64
  err : BitVec 3
  stall : Option Stall
  deriving DecidableEq, Repr

/-! ### Fabric (R259-R286) -/

/-- One optical port and its link layer (R259-R263, R286). -/
structure Port where
  fecLimit : BitVec 16
  role : BitVec 2
  delay : BitVec 16
  failed : BitVec 10
  activeW : BitVec 10
  switching : Bool
  degraded : Bool
  trained : Bool
  up : Bool
  retried : BitVec 32
  fecCorr : BitVec 32
  /-- symbols corrected in the cd named, by wavelength (R261) -/
  fecCd : Count
  fecSyms : Vector Nat 10
  /-- next flit sequence number expected and next to send -/
  rxNext : BitVec 12
  txNext : BitVec 12
  /-- the retry buffer: flits sent and not yet acknowledged, oldest first: (sequence number, packet data) -/
  retryBuf : List (BitVec 12 × List Byte)
  /-- packet data that waits for room in the retry buffer, flit by flit -/
  waiting : List (List Byte)
  /-- packet data delivered in order -/
  rxData : List Byte
  /-- the model's own: flits sent, oldest first (R260, log entry 3) -/
  txFlits : List (List Byte)
  /-- the failing wavelengths whose shares are being moved, one after another (R261) -/
  moving : List (Fin 10)
  deriving DecidableEq, Repr

/-- The kinds of operation that an agent has outstanding (R267, R280, R290, R296). -/
inductive OpKind where
  | load | store | rput | rget | atom | invalSend | msg | hand | localAtom | banker | trick
  deriving DecidableEq, Repr

/-- Why an operation became unknown (R280). -/
inductive UnkReason where
  | timeout | replayLost | departed
  deriving DecidableEq, Repr

/-- How an operation stands. -/
inductive OpState where
  | outstanding
  | acked (code : BitVec 8)
  | unknown (code : BitVec 8) (why : UnkReason)
  deriving DecidableEq, Repr

/-- An operation that this node has issued (R267-R280). -/
structure OutOp where
  id : Nat
  kind : OpKind
  /-- the issuing core; none for the message engine, Trick engine and Banker firmware -/
  core : Option (Fin 192)
  node : Node
  slot : Nat
  /-- the target's logical rank; the model's own 2^32 where it has none -/
  rank : Nat
  tag : BitVec 16
  /-- the model's own: which sequence the tag belongs to -/
  key : Nat
  /-- the remote address as issued -/
  addr : BitVec 64
  /-- local address that takes the result: RGET destination, ATOM block, hand block -/
  localAddr : Nat
  len : Nat
  pkt : Packet
  sentAt : Nat
  retries : Nat
  stamp : BitVec 64
  /-- the port of the last attempt (R276) -/
  port : Option (Fin 32)
  st : OpState
  /-- lines of 256 bytes that a cached read still waits for, and those it has (R282) -/
  want : List Nat
  got : List (Nat × List Byte)
  /-- lines of the read that an invalidation has covered since it was issued (R284) -/
  noInstall : List Nat
  /-- the last response was HELD or MSG_FULL: the next sending is not a retry (R276) -/
  held : Bool
  /-- the memory-side request of a local ATOM -/
  req : Option MsReq
  deriving DecidableEq, Repr

/-- R275: a replay-table entry, keyed by the source node, or by rank or identity for the kinds of R298. -/
structure Replay where
  key : Nat
  tag : BitVec 16
  code : BitVec 8
  fetched : List Byte
  /-- time at which the write was applied, in ac -/
  at_ : Nat
  deriving DecidableEq, Repr

/-- R282: a line of the remote-read cache. -/
structure RrcLine where
  node : Node
  line : Nat
  data : List Byte
  deriving DecidableEq, Repr

/-- R309: the segments of a frame that have come: its source's key, kind, tag and TOTAL, and pieces by OFFSET. -/
structure Partial where
  key : Nat
  kind : BitVec 8
  tag : BitVec 16
  total : Nat
  pieces : List (Nat × List Byte)
  deriving DecidableEq, Repr

/-- A tagged write that a Deck reset holds (R377). -/
structure HeldOp where
  key : Nat
  pkt : Packet
  deck : Fin 4
  deriving DecidableEq, Repr

/-- R299: a rank-table entry that is VALID. -/
structure RankEntry where
  rank : Nat
  node : Node
  deriving DecidableEq, Repr

/-- R300: an update waiting for its release. -/
structure RankUpdate where
  epoch : BitVec 32
  release : BitVec 64
  entries : List (Nat × BitVec 64)
  deriving DecidableEq, Repr

/-- R303-R306: what the node knows of a partner. -/
structure Partner where
  identity : BitVec 256
  rank : BitVec 32
  /-- the port on which its last frame came -/
  port : Fin 32
  model : BitVec 8
  incarnation : BitVec 16
  /-- the last cd for which a heartbeat came -/
  lastBeat : Count
  misses : Nat
  departed : Bool
  /-- challenge sent and not answered -/
  challenge : Option (BitVec 256)
  attested : Bool
  /-- a HELLO has come, and its report was clean -/
  reported : Bool
  clean : Bool
  /-- when it became both attested and clean, in ac -/
  readySince : Option Nat
  admitted : Bool
  deriving DecidableEq, Repr

/-- R308: a warm fabric profile. -/
structure WarmProfile where
  digest : BitVec 256
  ranks : List RankEntry
  members : List (BitVec 256)
  deriving DecidableEq, Repr

/-- The fabric unit (R259-R286, R299-R308). -/
structure Fabric where
  incarnation : BitVec 16
  rackBase : BitVec 16
  mySlot : BitVec 6
  rrcEn : Bool
  enable : Bool
  lateAck : BitVec 32
  unknown : BitVec 32
  limit : BitVec 4
  timeout : BitVec 20
  err : BitVec 5
  epoch : BitVec 32
  jobTag : BitVec 16
  notClean : BitVec 16
  staleEpoch : BitVec 16
  foreignTag : BitVec 32
  ports : Vector Port 32
  portMask : BitVec 32
  ops : List OutOp
  nextId : Nat
  /-- next tag toward each target node (R275), and each receiver rank (R298) -/
  nextTag : List (Nat × BitVec 16)
  /-- the lowest tag not yet confirmed toward a node or rank, and when an operation toward it was last sent again or became unknown -/
  confirmed : List (Nat × BitVec 16)
  lastRetry : List (Nat × Nat)
  replay : List Replay
  msgReplay : List Replay
  rrc : List RrcLine
  /-- answers that wait at the F-die for the way to their core, by operation, oldest first (R14, R384) -/
  answers : List (Nat × Packet)
  heldOps : List HeldOp
  /-- frames of which only some segments have come (R309) -/
  parts : List Partial
  /-- ranks whose frames are dropped with no partner of that rank known (R304): all of them, or those of an epoch before the one named -/
  gone : List (Nat × Option (BitVec 32))
  ranks : List RankEntry
  rankUpdate : Option RankUpdate
  partners : List Partner
  profiles : List WarmProfile
  prevJobTag : BitVec 16
  /-- discovery epochs that have been released (R27, R306) -/
  epochs : List Nat
  /-- tags of messages toward a rank that are not confirmed (R298) -/
  msgTags : List (Nat × BitVec 16)
  /-- pip raises that wait for a Deck in reset: Suit and pip (R375) -/
  heldPips : List (Nat × Nat)
  deriving DecidableEq, Repr

/-! ### Hands and messages (R287-R298, R314) -/

/-- R288: an entry of a hand, with its payload read. -/
structure HandEntry where
  idx : Nat
  kind : BitVec 8
  code : BitVec 8
  fmt : BitVec 5
  fetch : Bool
  count : Nat
  slot : Nat
  laddr : Nat
  payload : List Byte
  /-- TARGET as the hand block gives it -/
  target : BitVec 64
  deriving DecidableEq, Repr

/-- A hand that this node issued (R290). -/
structure HandOut where
  num : BitVec 32
  core : Fin 192
  dreg : Fin 32
  block : Nat
  entries : List HandEntry
  slots : List Nat
  /-- the node of each slot, translated at issue -/
  nodes : List Node
  /-- slots that voted STAGED -/
  votes : List Nat
  /-- none before the commit point; true SHOW, false FOLD -/
  decided : Option Bool
  reason : Nat
  foldSlot : Nat
  /-- slots that acknowledged the decision, and slots whose acknowledgement became unknown -/
  acks : List Nat
  silent : List Nat
  fetched : List (Nat × List Byte)
  /-- R375: its core's work is lost: the outcome is discarded -/
  absorbed : Bool := false
  deriving DecidableEq, Repr

/-- R310: the state of a hand held here as a target. -/
inductive HandState where
  | staged | voted | applied | discarded
  deriving DecidableEq, Repr

/-- A hand held here as a target (R290-R294). -/
structure HandIn where
  num : BitVec 32
  issuer : Nat
  issuerNode : Node
  slots : List Nat
  entries : List HandEntry
  st : HandState
  /-- slots still to answer an HQUERY (R294) -/
  asking : List Nat
  /-- kept held by the last case of R294 -/
  stuck : Bool
  deriving DecidableEq, Repr

/-- R297, R314: a receive queue's registers. -/
structure RxQueue where
  base : BitVec 64
  pipBase : BitVec 12
  suit : BitVec 4
  slotLog2 : BitVec 4
  slots : BitVec 12
  valid : Bool
  /-- busy slots -/
  busy : List Nat
  deriving DecidableEq, Repr

/-- R275, R290: a hand packet before it has its tag. -/
structure HandSend where
  kind : Nat
  slot : Nat
  node : Node
  hdr : HandHdr
  data : List Byte
  deriving DecidableEq, Repr

/-- R297: a message that has begun to arrive, by the key and tag of its frames, and the queue and slot that it goes to. -/
structure SlotClaim where
  key : Nat
  tag : BitVec 16
  queue : Nat
  slot : Nat
  deriving DecidableEq, Repr

/-- The hand and message unit (R314). -/
structure HandUnit where
  err : BitVec 4
  rxq : Vector RxQueue 64
  out : List HandOut
  inn : List HandIn
  nextHand : BitVec 32
  /-- operations on staged bytes wait here, in arrival order (R291) -/
  waiting : List (Nat × Packet)
  /-- hand packets that wait for a free tag toward their node (R275) -/
  unsent : List HandSend
  /-- slots of receive queues that a message took with its first byte and has not filled yet (R297) -/
  claims : List SlotClaim
  deriving DecidableEq, Repr

/-! ### Trick engine (R315-R346) -/

/-- R316, R319: a queued launch: the address of its record, and the FLUSH and the rank table in force with it. -/
structure TrickLaunch where
  rec_ : Nat
  flush : Bool
  ranks : List RankEntry
  deriving DecidableEq, Repr

/-- A member of a collective, with its node when the groups were formed (R316). -/
structure TrkMember where
  rank : Nat
  node : Node
  deriving DecidableEq, Repr

/-- Where a collective stands: it waits for its release; its release has come and it may not start yet; it has started and its first effect
is to come; it runs; or it has its completion to write. -/
inductive TrkPhase where
  | waitRelease | blocked | released | running | finished
  deriving DecidableEq, Repr

/-- A chunk that one member sends another (R332): level, whether it is move traffic, of a move kind the member whose contribution it is
part of and the one member that takes it, the Deck whose share it serves, step, sending and receiving member positions, number within the
step, and the elements (or bytes) [lo, hi). -/
structure TrkChunk where
  level : Nat
  dist : Bool
  con : Nat
  taker : Option Nat
  deck : Nat
  step : Nat
  src : Nat
  dst : Nat
  idx : Nat
  lo : Nat
  hi : Nat
  deriving DecidableEq, Repr

/-- R325: a mark of the anchor pass, sent or received: frame (2 MAXIMA, 3 READY), step (0 exchange, 1 return), level, anchor group,
member position of its sender. -/
structure TrkMark where
  frame : Nat
  step : Nat
  level : Nat
  group : Nat
  pos : Nat
  deriving DecidableEq, Repr

/-- A collective that has left the queue (R322-R345). -/
structure Collective where
  progSlot : Nat
  inst : BitVec 32
  tag : BitVec 32
  release : BitVec 64
  flush : Bool
  image : List Byte
  members : List TrkMember
  me : Nat
  /-- the chunks that this member sends and receives, and the elements that it rounds (R328, R332) -/
  plan : List TrkChunk
  owned : List (Nat × Nat)
  phase : TrkPhase
  late : Bool
  start : Option (BitVec 64)
  firstEffect : Nat
  /-- maxima by block, combined so far (R325) -/
  maxima : List (Option Int)
  marks : List TrkMark
  /-- anchor groups whose integer pass has started -/
  formed : List Nat
  /-- partial sums, element by element (R326), and their values for MAX and MIN -/
  sums : List ASum
  vals : List FVal
  /-- elements of which an operand was flushed here (R56) -/
  flushes : List Bool
  /-- rounded elements: bits and flags (R328) -/
  rounded : List (Option (Nat × AFlags))
  /-- chunks received and chunks sent -/
  got : List TrkChunk
  sent : List TrkChunk
  /-- credits held toward members, and granted to members and not used: (level, position, number) (R332) -/
  credits : List (Nat × Nat × Nat)
  granted : List (Nat × Nat × Nat)
  /-- landing units whose pips have risen -/
  landed : List Nat
  /-- requests for a chunk that failed its check (R327, R331) -/
  resends : List (TrkChunk × Nat)
  /-- bytes of contributions to be passed on: the chunk that brought them, and they (R332) -/
  relay : List (TrkChunk × List Byte)
  /-- move chunks that wait for credit, and since when (R336), in ac -/
  waits : List (TrkChunk × Nat)
  /-- stages that wait for one member position alone, that position, and since when (R337), in ac -/
  alone : List (List Nat × Nat × Nat)
  status : BitVec 16
  namedRank : BitVec 32
  detoured : Bool
  flags : AFlags
  held : Bool
  deriving DecidableEq, Repr

/-- R275, R309: a Trick frame before it has its tag, the node it goes to and that node's rank. -/
structure TrkSend where
  pkt : Packet
  node : Node
  rank : Nat
  deriving DecidableEq, Repr

/-- The Trick engine (R346). -/
structure Trick where
  runBit : Bool
  cq : Cq
  err : BitVec 5
  crcRetry : BitVec 16
  residueRetry : BitVec 16
  stale : BitVec 32
  progs : Vector (List Byte) 64
  queue : List TrickLaunch
  running : List Collective
  /-- instances completed here: (slot, instance) (R320) -/
  done : List (Nat × BitVec 32)
  /-- frames for instances not yet started here, and reduce chunks that wait for an enabled duty slot (R468) -/
  early : List Packet
  /-- frames that wait for a free tag toward their node (R275) -/
  unsent : List TrkSend
  deriving DecidableEq, Repr

/-! ### Checkpoint unit (R347-R368) -/

/-- R347: the Sachet states. -/
inductive SachetState where
  | empty | decanting | held | draining | drained | incomplete | staging | verified
  deriving DecidableEq, Repr

/-- R348: an entry of a checkpoint set. -/
structure SetEntry where
  base : Nat
  len : Nat
  region : Nat
  deriving DecidableEq, Repr

/-- R350: the fields of a Decant record that the unit has read. -/
structure DecantRec where
  addr : Nat
  step : BitVec 64
  release : BitVec 64
  setAddr : Nat
  nEntries : Nat
  dryBudget : Nat
  dryRank : BitVec 32
  dryQueue : Nat
  drySlots : Nat
  donePip : Nat
  doneSuit : Nat
  deriving DecidableEq, Repr

/-- Where the Decant at the head of the queue stands (R351, R352): released, it is checked again and is then armed for its snapshot. -/
inductive DecantPhase where
  | idle | waitRelease | released | armed | copying
  deriving DecidableEq, Repr

/-- R356, R357: a piece of a Dry-down and how it stands. -/
inductive PieceState where
  | toSend (tries : Nat)
  | nextCd (tries : Nat)
  | sent (opId : Nat) (tries : Nat)
  | acked
  deriving DecidableEq, Repr

/-- R356: a Dry-down in progress. -/
structure DryRun where
  rec_ : DecantRec
  pieces : List PieceState
  /-- the cd whose budget is being spent, and the bytes sent in it -/
  cd : Nat
  spent : Nat
  deriving DecidableEq, Repr

/-- R361: a restore staging in progress, and the mailbox that waits for its end. -/
structure Staging where
  step : BitVec 64
  rank : BitVec 32
  shardDigest : BitVec 256
  set : List SetEntry
  queue : Nat
  /-- bytes of the shard placed: (offset, length) -/
  placed : List (Nat × Nat)
  /-- digests of the chunks that are complete (R349) -/
  digests : List (Nat × List Byte)
  /-- ranks whose pieces have been placed: the storage partner (R365) -/
  sources : List Nat
  mbx : Nat
  deriving DecidableEq, Repr

/-- R364: a shard read in progress: the range wanted of a shard of `total` bytes, its destination, the pieces of index and data that have
come, the chunks finished, and whether one has failed. -/
structure ShardRead where
  step : BitVec 64
  rank : BitVec 32
  shardDigest : BitVec 256
  total : Nat
  queue : Nat
  off : Nat
  len : Nat
  dest : Nat
  index : List (Nat × List Byte)
  data : List (Nat × List Byte)
  finished : List Nat
  bad : Bool
  mbx : Nat
  deriving DecidableEq, Repr

/-- R362: a restore commit waiting for its release. -/
structure RestoreCommit where
  step : BitVec 64
  release : BitVec 64
  copying : Bool
  /-- the copy has met a poisoned or fenced transfer (R365) -/
  bad : Bool
  mbx : Nat
  deriving DecidableEq, Repr

/-- The checkpoint unit (R368). -/
structure Checkpoint where
  dryPause : Bool
  foreignPieces : BitVec 32
  sachetStep : BitVec 64
  err : BitVec 4
  st : SachetState
  /-- the set of the step that the Sachet holds -/
  set : List SetEntry
  queue : List Nat
  phase : DecantPhase
  cur : Option DecantRec
  late : Bool
  firstEffect : Nat
  /-- memory at the snapshot instant, while the copy runs (R352, R353) -/
  snap : Option Memory
  /-- STEP of the last step this node completed since job attach -/
  lastStep : Option (BitVec 64)
  dry : Option DryRun
  /-- the last Decant record whose Dry-down may start (R356) -/
  dryReady : Option DecantRec
  dryReadyAt : Nat
  /-- the record of the step that the Sachet holds after a Decant -/
  lastRec : Option DecantRec
  staging : Option Staging
  reads : List ShardRead
  /-- digests of the chunks of the step that the Sachet holds, in chunk order, each made as its chunk completed there (R349) -/
  index : List Byte
  commit : Option RestoreCommit
  /-- outcomes of commands of mailboxes that have ended and are not yet answered: (mailbox, status) -/
  answers : List (Nat × Nat)
  deriving DecidableEq, Repr

/-! ### Fault unit and containment (R369-R393, R407) -/

/-- R389: an entry of the witness. -/
structure WitnessEntry where
  suspect : BitVec 32
  w : Nat
  count : Nat
  reasons : BitVec 5
  deriving DecidableEq, Repr

/-- The fault unit (R393). -/
structure FaultUnit where
  witnessEn : Bool
  fenced : Bool
  uncontained : BitVec 16
  contained : BitVec 16
  corrected : BitVec 32
  dropped : BitVec 32
  nextSeq : BitVec 32
  counted : BitVec 32
  forwarded : BitVec 16
  /-- spare lanes used, by die link -/
  spares : Vector (BitVec 4) 14
  /-- lane repairs asked for that wait for their link (R412) -/
  repairReq : List (Fin 14)
  err : BitVec 3
  /-- FLT_LAST: the record last produced -/
  last : Option ErrRec
  /-- the log, oldest first (R392) -/
  log : List ErrRec
  entries : List WitnessEntry
  /-- die links in a lane-repair retrain, and since when (R384) -/
  repairing : List (Fin 14 × Nat)
  /-- arithmetic faults seen in the running work of engines: (block, instance, SEQ of the descriptor) (R373) -/
  faulted : List (Block × Nat × Nat)
  deriving DecidableEq, Repr

/-- A containment reset that waits for one in progress to stop or to end (R410), and the work of those that it takes over. -/
structure ResetReq where
  scope : Scope
  controller : Bool
  /-- when the fault was detected, in ac -/
  began : Nat
  /-- cores and engines whose RUN bit was 1, and cores whose work is lost (R373) -/
  cores : List (Fin 192) := []
  engines : List (EngKind × Fin 64) := []
  dead : List (Fin 192) := []
  workLost : Bool := false
  replayed : Bool := false
  deriving DecidableEq, Repr

/-- A containment reset in progress (R407, R413). -/
structure ResetRun where
  scope : Scope
  /-- step of R407, 1 to 7 -/
  step : Nat
  /-- when the fault was detected, when the reset began to hold traffic, and when the present step began, in ac -/
  began : Nat
  heldFrom : Nat := began
  since : Nat
  /-- the re-entry release, once it is set -/
  reentry : Option Count
  /-- the Deck's HBM keeps its contents in self-refresh (R370, R407) -/
  hbmKept : Bool
  /-- the handshake of step 4 (R31): its marker M while it runs, and the attempts that have failed -/
  marker : Option Count := none
  attempts : Nat := 0
  /-- stacks that have still to train anew in step 5 (R21, R401) -/
  toTrain : List Nat := []
  /-- die links of the Deck that have still to retrain in step 5 -/
  links : List Nat := []
  /-- cores and engines whose RUN bit was 1 -/
  cores : List (Fin 192)
  engines : List (EngKind × Fin 64)
  /-- the work of a smaller reset that this one took over (R410) -/
  workLost : Bool
  replayed : Bool
  deriving DecidableEq, Repr

/-! ### Inventory (R9, R15-R19, R400, R404) -/

/-- How an exposed instance stands. -/
inductive UnitState where
  /-- on its own physical unit -/
  | own
  /-- on the spare at this physical position -/
  | onSpare (pos : Nat)
  /-- retired or failed with no spare: absent -/
  | absent
  deriving DecidableEq, Repr

/-- How a spare stands. -/
inductive SpareState where
  | free
  | used (index : Nat)
  | failed
  deriving DecidableEq, Repr

/-- The inventory of R405. -/
structure Inventory where
  tbl : Vector UnitState 64
  atm : Vector UnitState 64
  dlr : Vector UnitState 192
  sol : Vector UnitState 16
  shf : Vector UnitState 16
  hbmc : Vector UnitState 16
  tblSpare : Vector SpareState 4
  atmSpare : Vector SpareState 4
  dlrSpare : Vector SpareState 4
  pdieSpare : Vector SpareState 8
  deckAbsent : Vector Bool 4
  /-- R30: dies whose crossings mismatched at an ALIGN_FAIL: Decks 0-3, F-die, P-die -/
  failedDies : BitVec 6
  deriving DecidableEq, Repr

/-! ### Flash, boot and power (R394-R414, R434-R439, R462-R473) -/

/-- R434, R435: the stored configuration. -/
structure ConfigRecord where
  /-- (field ID, value) -/
  fields : List (BitVec 16 × BitVec 256)
  /-- the identity digest of the package that wrote it -/
  boundId : BitVec 256
  tag : BitVec 256
  deriving DecidableEq, Repr

/-- R404: the kinds of units that the known-answer test set has a part for. -/
inductive UnitKind where
  | tbl | atm | dlr | sol | shf | hbmc | deck | fdie | pdie
  deriving DecidableEq, Repr

/-- R403: the part of the test set for a kind of unit. -/
structure TestPart where
  kind : UnitKind
  inputs : List Byte
  programs : List Byte
  /-- SHAKE256 over every committed output and completion record -/
  expected : BitVec 256
  deriving DecidableEq, Repr

/-- R403: the known-answer test set, its signer's certificate and its signature. -/
structure TestSet where
  parts : List TestPart
  cert : List Byte
  sig : List Byte
  deriving DecidableEq, Repr

/-- R245, R248, R400, R404: a record of the persistent inventory. -/
inductive InvRecord where
  | unit (u : UnitId)
  | channel (stack : Fin 16) (ch : Fin 32)
  | pseudo (stack : Fin 16) (pch : Fin 64)
  deriving DecidableEq, Repr

/-- R438: a copy of the boot record: ACTIVE is 0 for slot A, 1 for slot B. -/
structure BootRecord where
  seq : BitVec 64
  active : Fin 2
  trial : Bool
  tries : BitVec 8
  check : BitVec 64
  deriving DecidableEq, Repr

/-- What survives a loss of supply: the flash and the fuses (R436-R439, R464). -/
structure Flash where
  /-- the two copies of the boot record -/
  copies : Vector BootRecord 2
  /-- image slots A and B; empty where nothing is written -/
  slots : Vector (List Byte) 2
  config : Option ConfigRecord
  /-- persistent inventory, with its BOUND_ID (none where nothing has been written) and its tag (R435) -/
  inventory : List InvRecord
  invBound : Option (BitVec 256)
  invTag : BitVec 256
  /-- the highest SVN burnt by FW_CONFIRM since the model's start -/
  svnRaised : Nat
  /-- package resets since the model's start (R277) -/
  incarnation : BitVec 16
  /-- the known-answer test set (R403, R436) -/
  testSet : TestSet
  deriving DecidableEq, Repr

/-- Bring-up (R394-R405, R414). -/
structure Boot where
  /-- VIN_52 has reached 44 V and has not fallen below 42 V since -/
  supply : Bool
  pwrOk : Bool
  rstN : Bool
  failCode : BitVec 16
  /-- ELAPSED_MS once it is frozen -/
  frozenMs : Option (BitVec 16)
  freeRun : Bool
  mbxWait : Bool
  image : BitVec 2
  ready : Bool
  stage : BitVec 4
  /-- the running image's bytes -/
  running : List Byte
  /-- the test set and the known-answer runs have passed -/
  katDone : Bool
  /-- stacks and ports that have still to train in step 7, and the attempts of a stack -/
  stacksLeft : List Nat
  portsLeft : List Nat
  attempts : Vector Nat 16
  /-- the test set in the P-die cache, and whether its signature verified (R403) -/
  testSet : TestSet
  setGood : Bool
  /-- the record of the Package reset whose bring-up this is (R372, R391) -/
  scopeReset : Option ErrRec
  deriving DecidableEq, Repr

/-- The power unit (R465-R473). -/
structure Power where
  vin : BitVec 16
  level : Nat
  straps : BitVec 2
  /-- 0 Air, 1 Liquid, 2 Immersion -/
  profile : BitVec 2
  tempHbm : BitVec 8
  tempF : BitVec 8
  tempP : BitVec 8
  tempDeck : BitVec 32
  avgPackage : BitVec 12
  avgP : BitVec 12
  avgF : BitVec 12
  avgHbm : BitVec 12
  avgDecks : BitVec 12
  err : BitVec 5
  /-- a sensor reached its throttle temperature in this cd -/
  hot : Bool
  /-- cd in a row without a reason to throttle, and the last cd at whose start the level was set (R469) -/
  calm : Nat
  throttled : Option Count
  /-- consecutive critical samples: Deck 0-3, F-die, P-die, HBM -/
  critical : Vector Nat 7
  thermN : Bool
  /-- when the critical trip turns the regulators off, in ac of the reference; and that they are off (R471) -/
  tripAt : Option Nat
  tripped : Bool
  /-- the present duty slot is enabled and not withheld (R467-R469) -/
  slotOn : Bool
  /-- fibre connector blocks that are detached -/
  detached : BitVec 4
  deriving DecidableEq, Repr

/-! ### Banker, mailboxes, jobs (R415-R446) -/

/-- R418: the header and payload of a mailbox. -/
structure MbxMsg where
  seq : BitVec 32
  cmd : BitVec 16
  status : BitVec 16
  reqLen : BitVec 16
  rspLen : BitVec 16
  part : BitVec 32
  arg : BitVec 64
  own : Bool
  last : Bool
  payload : List Byte
  deriving DecidableEq, Repr

/-- R421: a multi-part transfer in progress. -/
structure Transfer where
  cmd : BitVec 16
  seq : BitVec 32
  /-- the PART expected next -/
  next : Nat
  /-- payloads taken in, joined -/
  data : List Byte
  /-- the time at which the first part was taken in, in ac -/
  firstAt : Nat
  deriving DecidableEq, Repr

/-- A mailbox: 0-15 the host's, 16-31 the job manager's (R418-R424). -/
structure Mailbox where
  msg : MbxMsg
  /-- the request in hand -/
  inHand : Option MbxMsg
  xfer : Option Transfer
  /-- fabric mailboxes: the requester's identity, and the last response given (R424) -/
  from_ : Option (BitVec 256)
  kept : Option MbxMsg
  /-- the response is discarded (R423) -/
  discard : Bool
  deriving DecidableEq, Repr

/-- R430: a region entry of the attach record. -/
structure Region where
  base : Nat
  len : Nat
  kind : BitVec 2
  deriving DecidableEq, Repr

/-- R430: the USE fields of the Sillage image. -/
structure Uses where
  tbl : BitVec 64
  atm : BitVec 64
  dlr : BitVec 192
  sol : BitVec 16
  shf : BitVec 16
  mem : BitVec 16
  deriving DecidableEq, Repr

/-- R42: a chunk of an input or weight region. -/
structure InputChunk where
  kind : BitVec 2
  /-- number of its region in the attach record -/
  region : Nat
  base : Nat
  len : Nat
  /-- ranges of it (from, up to) that have not arrived since the attach -/
  left : List (Nat × Nat)
  digest : BitVec 256
  deriving DecidableEq, Repr

/-- R430-R433: the attached job. -/
structure Job where
  attached : Bool
  tag : BitVec 16
  rank : BitVec 32
  nodeCount : BitVec 32
  policy : BitVec 8
  seed : BitVec 64
  salt : BitVec 64
  start : BitVec 64
  started : Bool
  imageBase : Nat
  imageLen : Nat
  imageDigest : BitVec 256
  configDigest : BitVec 256
  /-- INPUT_DIGEST and WEIGHTS_DIGEST (R41, R42) -/
  inputDigest : BitVec 256
  weightsDigest : BitVec 256
  /-- the chunks of the input and weight regions (R42) -/
  chunks : List InputChunk
  regions : List Region
  uses : Uses
  entry : Nat
  /-- the job's results lie outside the promise (R43, R251) -/
  outside : Bool
  /-- the profile digest presented at attach, or 0 (R308) -/
  profile : BitVec 256
  /-- the mailbox whose JOB_ATTACH waits for START; the step that a JOB_DETACH has reached (R433) -/
  attachMbx : Option (Fin 32)
  detachStep : Nat
  deriving DecidableEq, Repr

/-! ### Register space (R116, R481) -/

/-- The blocks of register space. -/
inductive RegBlk where
  | eng (k : EngKind)
  | cmp | mem | port | dlr
  | cad | fab | hnd | trk | flt | ckp | bnk | pwr
  | sbuf (b : Nat)
  | sco (of : RegBlk)
  | scoF
  deriving DecidableEq, Repr

/-- R481: a write of one instance's register in the present ac. `old`: where a ring's head stood before; of another register it is unused. -/
structure RegWrite where
  blk : RegBlk
  unit : Nat
  off : Nat
  old : Nat
  value : Nat
  deriving DecidableEq, Repr

/-- R481: the register writes of the present ac, oldest first: those of one instance's registers, and the group masks that take effect from the
next ac, with block, number and value. -/
structure RegBus where
  written : List RegWrite
  masks : List (RegBlk × Nat × Nat)
  deriving DecidableEq, Repr

/-- The Banker (R415-R446). -/
structure Banker where
  mbx : Vector Mailbox 32
  dropped : BitVec 16
  debugOpen : Bool
  configDefault : Bool
  swapped : Bool
  fwTrial : Bool
  fwFallback : Bool
  err : BitVec 7
  challenge : Option (BitVec 256)
  /-- the image staged by FW_STAGE stands verified in the slot that is not running -/
  staged : Bool
  /-- the state command in hand (R422) -/
  stateCmd : Option (Fin 32)
  /-- the reset that a SCOPED_RESET has begun and waits for (R408) -/
  resetOf : Option Scope
  /-- R416: the MSI-X table, address, data and vector control of each entry, and the pending bit array -/
  msix : Vector (BitVec 128) 17
  msixPending : BitVec 17
  /-- last answer of the management bus: none a NACK (R445) -/
  smbus : Option (List Byte)
  job : Job
  deriving DecidableEq, Repr

/-- R443: what the JTAG port's instruction register selects. -/
inductive JtagInstr where
  | bypass | idcode | samplePreload | extest
  deriving DecidableEq, Repr

/-- R443: the JTAG port: instruction, captured data register, boundary cells (one a named signal land) driven under EXTEST. -/
structure Jtag where
  ir : JtagInstr
  dr : BitVec 64
  cells : BitVec 40
  deriving DecidableEq, Repr

/-! ### Scorecard (R447-R458) -/

/-- R458: the fields of SCO_CTL i. -/
structure ScoCtl where
  thresh : BitVec 16
  cmp : BitVec 2
  edge : Bool
  gated : Bool
  enable : Bool
  badEvent : Bool
  sub : BitVec 6
  event : BitVec 16
  deriving DecidableEq, Repr

/-- R447-R449: a counter. -/
structure ScoCounter where
  ctl : ScoCtl
  /-- the value written to SCO_CTL, which takes effect in the next cycle (R449) -/
  next : Option W64
  count : BitVec 48
  lost : Bool
  ovf : Bool
  /-- the condition value of the previous cycle was nonzero (R448) -/
  prev : Bool
  /-- the count written to SCO_CNT in this cycle (R449) -/
  written : Option (BitVec 48)
  deriving DecidableEq, Repr

/-- The counters and registers of one counted unit (R458). -/
structure ScoInst where
  counters : List ScoCounter
  pStart : BitVec 16
  pEnd : BitVec 16
  startCd : BitVec 48
  lenCd : BitVec 16
  period : BitVec 32
  /-- completions since PERIOD was written (R452) -/
  done : Nat
  deriving DecidableEq, Repr

/-- An event of the present cycle (R450): unit, event code, port, number of occurrences; where `cap` is not 0, at most so many of them fall in
one cycle of the unit's clock (R113, R210, R450), and the rest in the next ones. -/
structure Pulse where
  unit : ScoUnit
  event : Nat
  port : Nat
  n : Nat
  cap : Nat := 0
  deriving DecidableEq, Repr

/-- R453: a sample record of the present cycle. -/
structure Sample where
  buf : Fin 5
  block : Nat
  instance_ : Nat
  cause : Byte
  latency : BitVec 32
  id : BitVec 64
  stamp : BitVec 64
  detail : BitVec 64
  deriving DecidableEq, Repr

/-- R453, R454: a stalled core's instruction: its pc, since when it waits, in ac, and the code of the wait. -/
structure CoreStall where
  core : Fin 192
  pc : BitVec 64
  since : Nat
  code : Nat
  deriving DecidableEq, Repr

/-- The Scorecard (R447-R458). -/
structure Score where
  tbl : Vector ScoInst 64
  atm : Vector ScoInst 64
  sol : Vector ScoInst 16
  shf : Vector ScoInst 16
  dlr : Vector ScoInst 192
  mem : Vector ScoInst 16
  fdie : ScoInst
  tblMask : BitVec 64
  atmMask : BitVec 64
  solMask : BitVec 16
  shfMask : BitVec 16
  memMask : BitVec 16
  fdieMask : BitVec 1
  dlrMask : Vector (BitVec 64) 3
  sbHead : Vector (BitVec 32) 5
  sbTail : Vector (BitVec 32) 5
  sbDrop : Vector (BitVec 32) 5
  pulses : List Pulse
  samples : List Sample
  /-- the model's own: units whose counters have been written since their reset; the others count nothing -/
  watched : List ScoUnit
  stalls : List CoreStall
  deriving DecidableEq, Repr

/-! ### The machine -/

/-- The state of the package. -/
structure State where
  cad : Cadence
  mem : Memory
  hbm : MemUnit
  eng : Engines
  cores : Vector Core 192
  dlrMask : Vector (BitVec 64) 3
  fab : Fabric
  hnd : HandUnit
  trk : Trick
  ckp : Checkpoint
  flt : FaultUnit
  resets : List ResetRun
  /-- resets that wait to begin (R410) -/
  resetReqs : List ResetReq
  inv : Inventory
  flash : Flash
  boot : Boot
  pwr : Power
  bnk : Banker
  jtag : Jtag
  bus : RegBus
  /-- R12, R212: the 64-byte lines that the P-die package-coherent cache holds, by address / 64, oldest first (log entry 21) -/
  pdc : List Nat
  sco : Score
  /-- the model's own: frames sent, vectors raised, oldest first (log entry 3) -/
  tx : List Packet
  irq : List Nat
  /-- the model's own: free values drawn so far (log entry 6) -/
  freeCtr : Nat
  /-- the model's own: the commands that wait, first in first out -/
  pending : List Instr
  deriving DecidableEq, Repr

/-! ### How a command can stop -/

/-- Reasons for a stop by fault. The package reports every fault of its own as state (traps, statuses, error bits, records), so
no command of this model ends in a fault and the type has no constructor: a step cannot fault. -/
inductive Fault where
  deriving DecidableEq, Repr

/-- Reasons for a refusal. -/
inductive Refusal where
  /-- a command with no meaning yet; raised by an arm of Dispatch only, never by a meaning; safe (a run stops there) -/
  | notModelled (mnemonic : String)
  deriving DecidableEq, Repr

/-! ### Reset values, unit by unit -/

/-- R44: the cadence registers at reset, no source seen. -/
def Cadence.reset : Cadence where
  secondary := 1
  primary := 0
  src := 0
  secEnable := true
  freerunCd := 0
  phaseErr := 0
  aligned := false
  st := .acquiring
  count := 0
  phase := 0
  events := 0
  jumpDelta := 0
  sources := Vector.replicate 33 ⟨false, 0, false, 0, 0, 0⟩
  active := 0
  selPending := false
  jumpFrom := none
  slew := 0
  markerM := none
  attempts := 0
  alignFree := false
  refAc := 0

/-- Memory with nothing listed. -/
def Memory.reset : Memory := ⟨[], 0, [], [], 0, []⟩

/-- R258: a controller at reset, its stack not trained. -/
def HbmCtl.reset : HbmCtl where
  scrubHours := 12
  retraining := 0
  retrainReq := 0
  fencedCh := 0
  trained := false
  rate := 0
  failing := 0
  retired := 0
  corr := 0
  uncorr := 0
  err := 0
  aregStat := Vector.replicate 64 0
  retrainFails := []
  scrubAt := Vector.replicate 64 0
  period := 0
  scrubbed := 0
  correctedInPeriod := []
  correctedInCd := []
  lastUncorr := []
  hurt := []
  trainTemp := Vector.replicate 32 0

/-- R258, R253, R333: the memory unit at reset. -/
def MemUnit.reset : MemUnit where
  ctl := Vector.replicate 16 HbmCtl.reset
  winSplit := 0
  sachet := 2
  sachetNow := 2
  trainedOnce := false
  grpMask := 0
  areg := Vector.replicate 64 ⟨0, 0, 0, false, false, false⟩
  recipes := Vector.replicate 16 []
  pips := []
  raised := []

/-- R116: a completion ring at reset. -/
def Cq.reset : Cq := ⟨0, 6, 0, 0⟩

/-- No descriptor at the head. -/
def Head.idle : Head where
  phase := .idle
  late := false
  firstEffect := 0
  start := none
  status := 0
  flags := {}
  empty := false
  truncCap := false
  held := false
  seen := []
  snap := Memory.reset
  run := {}

/-- R116, R160, R188, R211: an engine at reset. -/
def Engine.reset : Engine := ⟨false, false, Cq.reset, 0, 0, [], [], 0, Head.idle⟩

/-- R211: the Shuffle state at reset. -/
def ShfState.reset : ShfState := ⟨Vector.replicate 2 ⟨false, 0, 0⟩, Vector.replicate 64 0⟩

/-- The engines at reset. -/
def Engines.reset : Engines where
  tbl := Vector.replicate 64 Engine.reset
  atm := Vector.replicate 64 Engine.reset
  sol := Vector.replicate 16 Engine.reset
  shf := Vector.replicate 16 Engine.reset
  tblMask := 0
  atmMask := 0
  solMask := 0
  shfMask := 0
  cmpMask := 0
  organSplit := Vector.replicate 64 0
  tileRegs := Vector.replicate 64 []
  cmp := Vector.replicate 16 ⟨0, 0⟩
  shfState := Vector.replicate 16 ShfState.reset
  key := 0

/-- R214, R216, R220, R231: a Dealer core at reset: halted, VTYPE at KIND 0 and SEW 3, K0 all ones. The general registers
and PC have no reset value in the spec (log entry 4). -/
def Core.reset : Core where
  g := Vector.replicate 32 0
  v := Vector.replicate 32 0
  k := (Vector.replicate 8 0).set 0 0xFFFF
  vl := 0
  vtype := 3
  pc := 0
  acr := 0
  fflags := 0
  tvec := 0
  epc := 0
  vfaddr := 0
  cause := 0
  vfault := 0
  haltAtSafe := false
  runBit := false
  onSpare := false
  atSafepoint := false
  halted := true
  trapped := false
  faulted := false
  haltingSince := none
  ctxBase := 0
  ctxResult := 0
  ctxDone := false
  cycle := 0
  err := 0
  stall := none

/-- R259: the role of a port at reset. -/
def portRoleReset (p : Nat) : BitVec 2 := if p < 7 then 1 else if 8 ≤ p ∧ p ≤ 23 then 2 else 3

/-- R286: a port at reset. -/
def Port.reset (p : Nat) : Port where
  fecLimit := 4096
  role := portRoleReset p
  delay := 0
  failed := 0
  activeW := 0x0FF
  switching := false
  degraded := false
  trained := false
  up := false
  retried := 0
  fecCorr := 0
  fecCd := 0
  fecSyms := Vector.replicate 10 0
  rxNext := 0
  txNext := 0
  retryBuf := []
  waiting := []
  rxData := []
  txFlits := []
  moving := []

/-- R286, R314: the fabric unit at reset. -/
def Fabric.reset : Fabric where
  incarnation := 0
  rackBase := 0
  mySlot := 0
  rrcEn := true
  enable := false
  lateAck := 0
  unknown := 0
  limit := 8
  timeout := 30000
  err := 0
  epoch := 0
  jobTag := 0
  notClean := 0
  staleEpoch := 0
  foreignTag := 0
  ports := Vector.ofFn (fun p => Port.reset p.val)
  portMask := 0
  ops := []
  nextId := 0
  nextTag := []
  confirmed := []
  lastRetry := []
  replay := []
  msgReplay := []
  rrc := []
  answers := []
  heldOps := []
  parts := []
  gone := []
  ranks := []
  rankUpdate := none
  partners := []
  profiles := []
  prevJobTag := 0
  epochs := []
  msgTags := []
  heldPips := []

/-- R314: the hand and message unit at reset. -/
def HandUnit.reset : HandUnit where
  err := 0
  rxq := Vector.replicate 64 ⟨0, 0, 0, 12, 0, false, []⟩
  out := []
  inn := []
  nextHand := 0
  waiting := []
  unsent := []
  claims := []

/-- R346: the Trick engine at reset. -/
def Trick.reset : Trick where
  runBit := false
  cq := Cq.reset
  err := 0
  crcRetry := 0
  residueRetry := 0
  stale := 0
  progs := Vector.replicate 64 []
  queue := []
  running := []
  done := []
  early := []
  unsent := []

/-- R368: the checkpoint unit at reset. -/
def Checkpoint.reset : Checkpoint where
  dryPause := false
  foreignPieces := 0
  sachetStep := 0
  err := 0
  st := .empty
  set := []
  queue := []
  phase := .idle
  cur := none
  late := false
  firstEffect := 0
  snap := none
  lastStep := none
  dry := none
  dryReady := none
  dryReadyAt := 0
  lastRec := none
  staging := none
  reads := []
  index := []
  commit := none
  answers := []

/-- R393: the fault unit at reset. -/
def FaultUnit.reset : FaultUnit where
  witnessEn := true
  fenced := false
  uncontained := 0
  contained := 0
  corrected := 0
  dropped := 0
  nextSeq := 0
  counted := 0
  forwarded := 0
  spares := Vector.replicate 14 0
  repairReq := []
  err := 0
  last := none
  log := []
  entries := []
  repairing := []
  faulted := []

/-- R9: every exposed unit on its own position, every spare free. -/
def Inventory.full : Inventory where
  tbl := Vector.replicate 64 .own
  atm := Vector.replicate 64 .own
  dlr := Vector.replicate 192 .own
  sol := Vector.replicate 16 .own
  shf := Vector.replicate 16 .own
  hbmc := Vector.replicate 16 .own
  tblSpare := Vector.replicate 4 .free
  atmSpare := Vector.replicate 4 .free
  dlrSpare := Vector.replicate 4 .free
  pdieSpare := Vector.replicate 8 .free
  deckAbsent := Vector.replicate 4 false
  failedDies := 0

/-- A flash with no image, no stored configuration and an empty inventory (log entry 7). -/
def Flash.blank : Flash where
  copies := Vector.replicate 2 ⟨0, 0, false, 0, 0⟩
  slots := Vector.replicate 2 []
  config := none
  inventory := []
  invBound := none
  invTag := 0
  svnRaised := 0
  incarnation := 0
  testSet := ⟨[], [], []⟩

/-- R414: before step 3, in reset with no supply. -/
def Boot.reset : Boot where
  supply := false
  pwrOk := false
  rstN := false
  failCode := 0
  frozenMs := none
  freeRun := false
  mbxWait := false
  image := 0
  ready := false
  stage := 0
  running := []
  katDone := false
  stacksLeft := []
  portsLeft := []
  attempts := Vector.replicate 16 0
  testSet := ⟨[], [], []⟩
  setGood := false
  scopeReset := none

/-- R473: the power unit at reset; slot 0 of the Air profile is not enabled (R467). -/
def Power.reset : Power where
  vin := 0
  level := 0
  straps := 0
  profile := 0
  tempHbm := 0
  tempF := 0
  tempP := 0
  tempDeck := 0
  avgPackage := 0
  avgP := 0
  avgF := 0
  avgHbm := 0
  avgDecks := 0
  err := 0
  hot := false
  calm := 0
  throttled := none
  critical := Vector.replicate 7 0
  thermN := false
  tripAt := none
  tripped := false
  slotOn := false
  detached := 0

/-- An empty mailbox message. -/
def MbxMsg.zero : MbxMsg := ⟨0, 0, 0, 0, 0, 0, 0, false, false, []⟩

/-- An empty mailbox. -/
def Mailbox.reset : Mailbox := ⟨MbxMsg.zero, none, none, none, none, false⟩

/-- No job attached (R446). -/
def Job.none : Job where
  attached := false
  tag := 0
  rank := 0xFFFFFFFF
  nodeCount := 0
  policy := 0
  seed := 0
  salt := 0
  start := 0
  started := false
  imageBase := 0
  imageLen := 0
  imageDigest := 0
  configDigest := 0
  inputDigest := 0
  weightsDigest := 0
  chunks := []
  regions := []
  uses := ⟨0, 0, 0, 0, 0, 0⟩
  entry := 0
  outside := false
  profile := 0
  attachMbx := Option.none
  detachStep := 0

/-- R446: the Banker at reset. -/
def Banker.reset : Banker where
  mbx := Vector.replicate 32 Mailbox.reset
  dropped := 0
  debugOpen := false
  configDefault := false
  swapped := false
  fwTrial := false
  fwFallback := false
  err := 0
  challenge := none
  staged := false
  stateCmd := none
  resetOf := none
  msix := Vector.replicate 17 0
  msixPending := 0
  smbus := none
  job := Job.none

/-- R443: the JTAG port at reset (log entry 4). -/
def Jtag.reset : Jtag := ⟨.bypass, 0, 0⟩

/-- R458: SCO_CTL at reset. -/
def ScoCtl.reset : ScoCtl := ⟨0, 0, false, false, false, false, 0, 0⟩

/-- A counter at reset. -/
def ScoCounter.reset : ScoCounter := ⟨ScoCtl.reset, none, 0, false, false, false, none⟩

/-- R447, R458: a counted unit of `n` counters at reset. -/
def ScoInst.reset (n : Nat) : ScoInst := ⟨List.replicate n ScoCounter.reset, 0, 0, 0, 0, 0, 0⟩

/-- R458: the Scorecard at reset. -/
def Score.reset : Score where
  tbl := Vector.replicate 64 (ScoInst.reset 8)
  atm := Vector.replicate 64 (ScoInst.reset 8)
  sol := Vector.replicate 16 (ScoInst.reset 8)
  shf := Vector.replicate 16 (ScoInst.reset 8)
  dlr := Vector.replicate 192 (ScoInst.reset 6)
  mem := Vector.replicate 16 (ScoInst.reset 8)
  fdie := ScoInst.reset 16
  tblMask := 0
  atmMask := 0
  solMask := 0
  shfMask := 0
  memMask := 0
  fdieMask := 0
  dlrMask := Vector.replicate 3 0
  sbHead := Vector.replicate 5 0
  sbTail := Vector.replicate 5 0
  sbDrop := Vector.replicate 5 0
  pulses := []
  samples := []
  watched := []
  stalls := []

/-- The package in reset before its first power-on: every register at its reset value, nothing in memory, nothing queued
(log entries 3, 4, 5 and 7). -/
def State.reset : State where
  cad := Cadence.reset
  mem := Memory.reset
  hbm := MemUnit.reset
  eng := Engines.reset
  cores := Vector.replicate 192 Core.reset
  dlrMask := Vector.replicate 3 0
  fab := Fabric.reset
  hnd := HandUnit.reset
  trk := Trick.reset
  ckp := Checkpoint.reset
  flt := FaultUnit.reset
  resets := []
  resetReqs := []
  inv := Inventory.full
  flash := Flash.blank
  boot := Boot.reset
  pwr := Power.reset
  bnk := Banker.reset
  jtag := Jtag.reset
  bus := ⟨[], []⟩
  pdc := []
  sco := Score.reset
  tx := []
  irq := []
  freeCtr := 0
  pending := []

end Sys2Proof.Machine
end

