-- ==== Sys2Proof/Machine/Ops.lean ====
section
/-!
DEFINITION. Ops.lean: the shared operations over the state: when a command acts, time and releases (R5, R32, R33), free
values, frames and vectors sent, access to the units, and the error log (R369, R390-R392).
-/
namespace Sys2Proof.Machine

open Sys2Proof

/-! ### When a command acts -/

/-- A command's outcome: it acts on a package that is powered and out of reset (R395, R471); otherwise nothing changes. -/
def live (s : State) (f : State → State) : Host.Outcome State Fault Refusal :=
  .next (if s.boot.rstN && !s.pwr.tripped then f s else s)

/-- R405: the package has ended bring-up FAILED; only the endpoint, the mailboxes and the BNK_ registers are in service. -/
def State.failed (s : State) : Bool := s.boot.stage == 0xF

/-- A command of a unit other than the endpoint, the mailboxes and the BNK_ registers (R405). -/
def inService (s : State) (f : State → State) : Host.Outcome State Fault Refusal :=
  live s (fun s => if s.failed then s else f s)

/-- Act where a condition holds, else leave the state (log entry 1). -/
def onlyIf (c : Bool) (f : State → State) (s : State) : State := if c then f s else s

/-! ### Vectors by number -/

/-- Element `i`, or `d` past the end. -/
def vget {α : Type} {n : Nat} (v : Vector α n) (i : Nat) (d : α) : α := if h : i < n then v[i] else d

/-- Change element `i`; nothing past the end. -/
def vmod {α : Type} {n : Nat} (v : Vector α n) (i : Nat) (f : α → α) : Vector α n :=
  if h : i < n then v.set i (f v[i]) else v

/-- Replace element `i`; nothing past the end. -/
def vput {α : Type} {n : Nat} (v : Vector α n) (i : Nat) (x : α) : Vector α n := vmod v i (fun _ => x)

/-! ### The units of the state -/

/-- Change the cadence unit. -/
def State.onCad (f : Cadence → Cadence) (s : State) : State := { s with cad := f s.cad }
/-- Change memory. -/
def State.onMem (f : Memory → Memory) (s : State) : State := { s with mem := f s.mem }
/-- Change the memory unit. -/
def State.onHbm (f : MemUnit → MemUnit) (s : State) : State := { s with hbm := f s.hbm }
/-- Change the engines. -/
def State.onEng (f : Engines → Engines) (s : State) : State := { s with eng := f s.eng }

def State.onBus (f : RegBus → RegBus) (s : State) : State := { s with bus := f s.bus }

/-- R481: a write through an instance window is remembered to the end of its ac. -/
def State.noted (b : RegBlk) (i o old v : Nat) (s : State) : State :=
  s.onBus (fun x => { x with written := x.written ++ [⟨b, i, o, old, v⟩] })
/-- Change the fabric unit. -/
def State.onFab (f : Fabric → Fabric) (s : State) : State := { s with fab := f s.fab }
/-- Change the hand unit. -/
def State.onHnd (f : HandUnit → HandUnit) (s : State) : State := { s with hnd := f s.hnd }
/-- Change the Trick engine. -/
def State.onTrk (f : Trick → Trick) (s : State) : State := { s with trk := f s.trk }
/-- Change the checkpoint unit. -/
def State.onCkp (f : Checkpoint → Checkpoint) (s : State) : State := { s with ckp := f s.ckp }
/-- Change the fault unit. -/
def State.onFlt (f : FaultUnit → FaultUnit) (s : State) : State := { s with flt := f s.flt }
/-- Change the inventory. -/
def State.onInv (f : Inventory → Inventory) (s : State) : State := { s with inv := f s.inv }
/-- Change the flash. -/
def State.onFlash (f : Flash → Flash) (s : State) : State := { s with flash := f s.flash }
/-- Change the bring-up state. -/
def State.onBoot (f : Boot → Boot) (s : State) : State := { s with boot := f s.boot }
/-- Change the power unit. -/
def State.onPwr (f : Power → Power) (s : State) : State := { s with pwr := f s.pwr }
/-- Change the Banker. -/
def State.onBnk (f : Banker → Banker) (s : State) : State := { s with bnk := f s.bnk }
/-- Change the attached job. -/
def State.onJob (f : Job → Job) (s : State) : State := { s with bnk := { s.bnk with job := f s.bnk.job } }
/-- Change the Scorecard. -/
def State.onSco (f : Score → Score) (s : State) : State := { s with sco := f s.sco }

/-- A Dealer core. -/
def State.core (s : State) (c : Fin 192) : Core := s.cores[c]
/-- Change a Dealer core. -/
def State.onCore (c : Fin 192) (f : Core → Core) (s : State) : State := { s with cores := vmod s.cores c f }
/-- Change a port. -/
def State.onPort (p : Fin 32) (f : Port → Port) (s : State) : State :=
  s.onFab (fun x => { x with ports := vmod x.ports p f })
/-- Change an HBM4 controller. -/
def State.onCtl (k : Nat) (f : HbmCtl → HbmCtl) (s : State) : State :=
  s.onHbm (fun x => { x with ctl := vmod x.ctl k f })
/-- An HBM4 controller. -/
def State.ctl (s : State) (k : Nat) : HbmCtl := vget s.hbm.ctl k HbmCtl.reset

/-- An engine by kind and index. -/
def State.engine (s : State) (k : EngKind) (i : Nat) : Engine :=
  match k with
  | .tbl => vget s.eng.tbl i Engine.reset
  | .atm => vget s.eng.atm i Engine.reset
  | .sol => vget s.eng.sol i Engine.reset
  | .shf => vget s.eng.shf i Engine.reset

/-- Change an engine by kind and index. -/
def State.onEngine (k : EngKind) (i : Nat) (f : Engine → Engine) (s : State) : State :=
  s.onEng (fun x => match k with
    | .tbl => { x with tbl := vmod x.tbl i f }
    | .atm => { x with atm := vmod x.atm i f }
    | .sol => { x with sol := vmod x.sol i f }
    | .shf => { x with shf := vmod x.shf i f })

/-- Change the head of an engine's FIFO. -/
def State.onHead (k : EngKind) (i : Nat) (f : Head → Head) (s : State) : State :=
  s.onEngine k i (fun e => { e with head := f e.head })

/-- The attached job. -/
def State.job (s : State) : Job := s.bnk.job

/-! ### Time -/

/-- The package counter in ac: 60,000·count + phase (R5, R33). -/
def State.now (s : State) : Nat := s.cad.count.toNat * 60000 + s.cad.phase

/-- A stamp in the form of R32: count in bits 63:16, phase in bits 15:0. -/
def State.stamp (s : State) : BitVec 64 := BitVec.ofNat 64 (s.cad.count.toNat * 65536 + s.cad.phase)

/-- R32: release on arrival. -/
def relOnArrival : Nat := 0xFFFF_FFFF_FFFF_FFFF

/-- R32: the time that a release names, in ac. -/
def relTime (rel : Nat) : Nat := (rel / 65536) * 60000 + rel % 65536

/-- R32: is a release value acceptable now? -/
def relValid (s : State) (rel : Nat) : Bool :=
  rel == relOnArrival || (decide (rel % 65536 ≤ 59999) && decide (rel / 65536 ≤ s.cad.count.toNat + 2 ^ 32))

/-- R33: has the counter reached the release? -/
def relReached (s : State) (rel : Nat) : Bool := rel == relOnArrival || decide (relTime rel ≤ s.now)

/-- R33: reaching the head now, is the action late? -/
def relLate (s : State) (rel : Nat) : Bool := rel != relOnArrival && decide (relTime rel < s.now)

/-- R33, R35: the first effect of an action that reaches the head now and is released, with its lag. -/
def firstEffect (s : State) (rel lag : Nat) : Nat :=
  if rel = relOnArrival ∨ relTime rel < s.now then s.now + lag else relTime rel + lag

/-! ### Free values, frames, vectors -/

/-- A fresh free value (log entry 6). -/
def State.free (s : State) : BitVec 64 × State := (Config.freeWord s.freeCtr, { s with freeCtr := s.freeCtr + 1 })

/-- An event happens `n` times in the present cycle, at a port where the event has one (R450). -/
def State.pulse (u : ScoUnit) (event n : Nat) (s : State) (port : Nat := 0) : State :=
  if s.sco.watched.contains u then s.onSco (fun x => { x with pulses := ⟨u, event, port, n, 0⟩ :: x.pulses }) else s

/-- Occurrences join those of the same kind that still wait for their cycle. -/
def addPulse (p : Pulse) (ps : List Pulse) : List Pulse :=
  if ps.any (fun x => x.unit = p.unit && x.event == p.event && x.cap == p.cap) then
    ps.map (fun x => if x.unit = p.unit && x.event == p.event && x.cap == p.cap then { x with n := x.n + p.n } else x)
  else ps ++ [p]

/-- An event happens `n` times, at most `cap` times a cycle (R450). -/
def State.pulseRate (u : ScoUnit) (event n cap : Nat) (s : State) : State :=
  if s.sco.watched.contains u && n != 0 then s.onSco (fun x => { x with pulses := addPulse ⟨u, event, 0, n, cap⟩ x.pulses }) else s

/-- R453, R454: a core stalls, for a wait of a code of R454. -/
def State.stalled (c : Fin 192) (code : Nat) (s : State) : State :=
  s.onSco (fun x => { x with stalls := ⟨c, (s.core c).pc, s.now, code⟩ :: x.stalls.filter (fun y => y.core ≠ c) })

/-- The kinds that carry a tag. -/
def OpKind.tagged : OpKind → Bool
  | .load | .rget | .invalSend | .localAtom => false
  | _ => true

/-- R286: FAB_STATUS.OUTSTANDING. -/
def State.outstandingWrites (s : State) : Nat := (s.fab.ops.filter (fun o => o.st == .outstanding && o.kind.tagged)).length

/-- Raise MSI-X vector `v` (R416). -/
def State.raiseIrq (v : Nat) (s : State) : State :=
  if (vget s.bnk.msix v 0).getLsbD 96 then s.onBnk (fun b => { b with msixPending := b.msixPending ||| BitVec.ofNat 17 (2 ^ v) })
  else { s with irq := s.irq ++ [v] }

/-! ### Ranks, ports and flits (R259, R260, R299) -/

/-- R299: the node to which a logical rank is mapped. -/
def State.nodeOfRank (s : State) (r : Nat) : Option Node := (s.fab.ranks.find? (fun e => e.rank = r)).map (·.node)

/-- This node, by its own rank's entry. -/
def State.myNode (s : State) : Option Node := s.nodeOfRank s.job.rank.toNat

/-- Ports that are up. -/
def State.upPorts (s : State) : List (Fin 32) := (List.finRange 32).filter (fun p => s.fab.ports[p].up)

/-- Ports of a role (R259), lowest first. -/
def State.rolePorts (s : State) (role : BitVec 2) : List (Fin 32) := (List.finRange 32).filter (fun p => s.fab.ports[p].role == role)

/-- R259, R262: the TRAY port to a peer of the same tray: the n-th leads to the n-th of the other positions (log entry 13). -/
def State.trayPort (s : State) (me peer : Node) : Option (Fin 32) :=
  let pos (n : Node) : Nat := n.pslot.toNat % 8
  if me.rack = peer.rack ∧ me.pslot.toNat / 8 = peer.pslot.toNat / 8 ∧ pos me ≠ pos peer then
    ((s.rolePorts 1)[if pos peer < pos me then pos peer else pos peer - 1]?).filter (fun p => s.fab.ports[p].up)
  else none

/-- The ports by which a frame may leave: the TRAY port to its node; else the RACK ports that are up within the rack, the EXT ports beyond
it (log entry 12); for a detour the RACK ports (R336). None to this node itself. -/
def State.routes (s : State) (d : Dest) : List (Fin 32) :=
  let up (role : BitVec 2) : List (Fin 32) := (s.rolePorts role).filter (fun q => s.fab.ports[q].up)
  match d with
  | .port q => if s.fab.ports[q].up then [q] else []
  | .detour _ => up 2
  | .node n =>
    match s.myNode with
    | none => []
    | some me =>
      if n = me then []
      else match s.trayPort me n with
        | some q => [q]
        | none => up (if n.rack = me.rack then 2 else 3)

/-- R332: the share whose chunk a frame carries, by its Deck; 0 of every other frame. -/
def Packet.share (p : Packet) : Nat :=
  match p.kh with
  | .trick h => if h.frame = 0 then h.deck.toNat else 0
  | _ => 0

/-- R276, R332: the port on which an attempt of a frame leaves: chunks of different shares on different ports, every other frame on the lowest;
a resend avoids the port of the attempt before it. -/
def State.portFor (s : State) (p : Packet) (last : Option (Fin 32)) : Option (Fin 32) :=
  let all := s.routes p.dest
  let i := p.share % max all.length 1
  let qs := all.drop i ++ all.take i
  if p.hdr.retry then (qs.find? (fun q => some q != last)).or qs.head? else qs.head?

/-- Flits that a retry buffer holds (R260). -/
def retryRoom : Nat := 2048

/-- R260: a flit: sequence number, cumulative acknowledgement, type (0 data, 1 acknowledgement, 2 negative acknowledgement) in the link
header, 240 bytes of data, the CRC (log entry 13). -/
def flitBytes (seq ack : BitVec 12) (type : Nat) (data : List Byte) : List Byte :=
  let b := leBytes 8 (seq.toNat + ack.toNat * 2 ^ 12 + type * 2 ^ 24) ++ slice data 0 240
  b ++ leBytes 8 (crc64 b)

/-- Flits leave while the retry buffer has room (`fuel` of them at most). -/
def Port.pump : Nat → Port → Port
  | 0, x => x
  | n + 1, x =>
    match x.waiting with
    | [] => x
    | d :: rest =>
      if x.retryBuf.length ≥ retryRoom then x
      else pump n { x with
        waiting := rest, retryBuf := x.retryBuf ++ [(x.txNext, d)], txNext := x.txNext + 1
        txFlits := x.txFlits ++ [flitBytes x.txNext x.rxNext 0 d] }

/-- Cut packet data into the data of flits, 240 bytes each (`fuel` of them at most). -/
def flitData : Nat → List Byte → List (List Byte)
  | 0, _ => []
  | n + 1, bs => if bs.length ≤ 240 then [bs] else bs.take 240 :: flitData n (bs.drop 240)

/-- A frame's packets go out on a port, each from a new flit on (log entry 12). -/
def Port.sendFrame (p : Packet) (x : Port) : Port :=
  let ds := (p.wire.map (fun b => flitData (b.length / 240 + 1) b)).flatten
  { x with waiting := x.waiting ++ ds }.pump (x.waiting.length + ds.length)

/-- The link layer of a port acts: the flits it sends, and those it sends again, are events of the cycle (R450). -/
def State.onLink (q : Fin 32) (f : Port → Port) (s : State) : State :=
  let x := s.fab.ports[q]
  let y := f x
  ((s.onPort q f).pulse .fdie 0x0608 (y.txFlits.length - x.txFlits.length) q).pulse .fdie 0x0609 (y.retried - x.retried).toNat q

/-- A frame leaves the node: it is listed, and its flits go out on a port. -/
def State.sendRaw (p : Packet) (s : State) (last : Option (Fin 32) := none) : State :=
  let s' := { s with tx := s.tx ++ [p] }
  match s.portFor p last with
  | some q => s'.onLink q (Port.sendFrame p)
  | none => s'

/-- R385: may a frame be sent? A fenced node sends only frames of the Banker outside any job, and the FENCED frame, which `sendRaw` sends. -/
def State.maySend (s : State) (p : Packet) : Bool := !s.flt.fenced || (p.hdr.jobTag == 0 && decide (p.hdr.kind.toNat ≥ 0x24))

/-- Send a frame (R385). -/
def State.send (p : Packet) (s : State) (last : Option (Fin 32) := none) : State := if s.maySend p then s.sendRaw p last else s

/-! ### Scopes of resets (R370, R410) -/

/-- The kind of engine that a block code names; the Compounder stands with its Solitaire. -/
def Block.engKind : Block → Option EngKind
  | .tbl => some .tbl
  | .atm => some .atm
  | .sol | .cmp => some .sol
  | .shf => some .shf
  | _ => none

/-- The Suit whose pip board an engine uses (R10, R11). -/
def engineSuit (k : EngKind) (i : Nat) : Nat :=
  match k with
  | .tbl | .atm => i / 4
  | .sol | .shf => i

/-- Is an engine in a scope? -/
def Scope.hasEngine (sc : Scope) (k : EngKind) (i : Nat) : Bool :=
  match sc with
  | .core b j => b.engKind == some k && j.val == i
  | .suit x => engineSuit k i == x.val
  | .deck d => engineSuit k i / 4 == d.val
  | .package => true

/-- Is a Dealer core in a scope? -/
def Scope.hasCore (sc : Scope) (c : Fin 192) : Bool :=
  match sc with
  | .core b j => b == .dlr && j == c
  | .suit x => decide (c.val < 64) && c.val / 4 == x.val
  | .deck d => decide (c.val < 64) && c.val / 16 == d.val
  | .package => true

/-- Is an engine in a reset in progress (R407)? -/
def State.engInReset (s : State) (k : EngKind) (i : Nat) : Bool := s.resets.any (fun r => r.scope.hasEngine k i)

/-- R378: a Package reset waits for the decisions of the hands voted here. -/
def State.packageResetting (s : State) : Bool := s.resets.any (fun r => r.scope == .package)

/-- Is a Dealer core in a reset in progress? -/
def State.coreInReset (s : State) (c : Fin 192) : Bool := s.resets.any (fun r => r.scope.hasCore c)

/-! ### Absent units (R19, R405) -/

/-- R405: every unit of the absent Decks is absent. -/
def Inventory.dropAbsent (v : Inventory) : Inventory :=
  let gone (i per : Nat) (x : UnitState) : UnitState := if vget v.deckAbsent (i / per) false then .absent else x
  { v with
    tbl := Vector.ofFn (fun i => gone i 16 v.tbl[i]), atm := Vector.ofFn (fun i => gone i 16 v.atm[i])
    dlr := Vector.ofFn (fun i => if i.val < 64 then gone i 16 v.dlr[i] else v.dlr[i])
    sol := Vector.ofFn (fun i => gone i 4 v.sol[i]), shf := Vector.ofFn (fun i => gone i 4 v.shf[i])
    hbmc := Vector.ofFn (fun i => gone i 4 v.hbmc[i]) }

/-! ### Saturating counts -/

/-- Add to a count that saturates. -/
def satAdd {w : Nat} (x : BitVec w) (n : Nat) : BitVec w := BitVec.ofNat w (satTo (2 ^ w - 1) (x.toNat + n))

/-! ### The error log -/

/-- R390: block codes. -/
def Block.code : Block → Nat
  | .tbl => 0x01 | .atm => 0x02 | .sol => 0x03 | .cmp => 0x04 | .shf => 0x05 | .dlr => 0x06 | .mem => 0x07 | .fab => 0x08
  | .hnd => 0x09 | .trk => 0x0A | .cad => 0x0B | .ckp => 0x0C | .flt => 0x0D | .bnk => 0x0E | .pwr => 0x0F
  | .suit => 0x10 | .pdie => 0x11

/-- R369: class codes. -/
def ErrClass.code : ErrClass → Nat
  | .corrected => 0 | .contained => 1 | .uncontained => 2 | .notice => 3

/-- R390: bytes 0 to 55 of a record. -/
def ErrRec.body (r : ErrRec) : List Byte :=
  leBytes 4 r.seq.toNat ++ leBytes 2 1 ++
  leBytes 1 (r.cls.code * 64 + r.scope % 8 * 8 + bit01 r.replayed * 4 + bit01 r.spared * 2 + bit01 r.workLost) ++
  leBytes 1 r.block.code ++ leBytes 2 r.unit ++ leBytes 2 r.code ++ leBytes 2 r.status ++ leBytes 2 r.jobTag.toNat ++
  leBytes 8 r.stamp.toNat ++ leBytes 8 r.addr ++ leBytes 4 r.rank.toNat ++ leBytes 4 r.peer.toNat ++
  leBytes 2 r.tag.toNat ++ leBytes 2 (satTo 65535 r.count) ++ leBytes 4 r.holdAc ++ leBytes 8 r.detail

/-- R390: the 64 bytes of a record, CHECK included. -/
def ErrRec.bytes (r : ErrRec) : List Byte := r.body ++ (shake256 32 r.body).take 8

/-- R392: is this the record that a Corrected record joins? -/
def sameCorrected (r x : ErrRec) : Bool :=
  x.cls == .corrected && x.block == r.block && x.unit == r.unit && x.code == r.code &&
    decide (x.stamp.toNat / 65536 = r.stamp.toNat / 65536)

/-- Drop the first element that a test picks. -/
def dropFirst {α : Type} (p : α → Bool) : List α → List α
  | [] => []
  | x :: xs => if p x then xs else x :: dropFirst p xs

/-- R392: a Corrected or Notice record may be replaced. -/
def ErrRec.minor (r : ErrRec) : Bool := r.cls == .corrected || r.cls == .notice

/-- R392: put a new record into the log: the log, whether the record was added, whether one was replaced or dropped. -/
def logPut (log : List ErrRec) (r : ErrRec) : List ErrRec × Bool × Bool :=
  if log.length < 4096 then (log ++ [r], true, false)
  else if log.any ErrRec.minor then (dropFirst ErrRec.minor log ++ [r], true, true)
  else if r.minor then (log, false, true)
  else (log.drop 1 ++ [r], true, true)

/-- R393: the counts that a record of a class adds to. -/
def countRecord (r : ErrRec) (f : FaultUnit) : FaultUnit :=
  match r.cls with
  | .corrected => { f with corrected := satAdd f.corrected r.count }
  | .contained => { f with contained := satAdd f.contained 1, last := some r }
  | .uncontained => { f with uncontained := satAdd f.uncontained 1, last := some r }
  | .notice => f

/-- R369, R390-R392: produce an error record; STAMP, JOB_TAG and RANK are those of now unless a STAMP is given. -/
def State.record (s : State) (r : ErrRec) : State :=
  let r := { r with
    jobTag := s.job.tag, rank := s.job.rank, seq := s.flt.nextSeq
    stamp := if r.stamp = 0 then s.stamp else r.stamp }
  if r.cls == .corrected && s.flt.log.any (sameCorrected r) then
    s.onFlt (fun f => countRecord r
      { f with log := f.log.map (fun x => if sameCorrected r x then { x with count := x.count + r.count } else x) })
  else
    let p := logPut s.flt.log r
    let s := s.onFlt (fun f => countRecord r
      { f with log := p.1, nextSeq := f.nextSeq + 1, dropped := satAdd f.dropped (bit01 p.2.2) })
    if p.2.1 then s.raiseIrq 16 else s

/-- R117, R391: records for the bits of an ERR register that become 1. -/
def State.errRecords (b : Block) (unit : Nat) (old new : Nat) (s : State) : State :=
  (onesOf 8 new).foldl (fun s i => if old.testBit i then s else s.record { cls := .corrected, block := b, unit, code := i }) s

end Sys2Proof.Machine
end

