-- ==== Sys2Proof/Machine/FlashRec.lean ====
section
/-!
DEFINITION. FlashRec.lean: what stands in the flash (R403, R434-R438): the copies of the boot record, the records that a tag binds to the
package, and the layout.
-/
namespace Sys2Proof.Machine

open Sys2Proof

/-! ### The boot record (R438) -/

/-- R438: what the check of a copy covers: the sequence number, ACTIVE, TRIAL and TRIES (the layout is the model's own; log entry 13). -/
def BootRecord.body (r : BootRecord) : List Byte :=
  leBytes 8 r.seq.toNat ++ leBytes 1 r.active.val ++ leBytes 1 (bit01 r.trial) ++ leBytes 1 r.tries.toNat

/-- R438: the 8-byte SHAKE256 check. -/
def BootRecord.sum (r : BootRecord) : BitVec 64 := BitVec.ofNat 64 (leNat (shake256 8 r.body))

/-- R438: is a copy valid? -/
def BootRecord.good (r : BootRecord) : Bool := r.check == r.sum

/-- Where no copy is valid, slot A is ACTIVE and no trial runs (log entry 13). -/
def BootRecord.none_ : BootRecord := ⟨0, 0, false, 0, 0⟩

/-- R438: the copy that is used: the valid one with the higher sequence number. -/
def Flash.copy (f : Flash) : Fin 2 := if f.copies[1].good && (!f.copies[0].good || decide (f.copies[0].seq < f.copies[1].seq)) then 1 else 0

/-- R438: the boot record in force. -/
def Flash.boot (f : Flash) : BootRecord := if f.copies[f.copy].good then f.copies[f.copy] else BootRecord.none_

/-- R438: the other copy is rewritten, with the next sequence number. -/
def Flash.rewrite (g : BootRecord → BootRecord) (f : Flash) : Flash :=
  let r := { g f.boot with seq := f.boot.seq + 1 }
  { f with copies := vput f.copies (1 - f.copy).val { r with check := r.sum } }

/-! ### Records with a tag (R434, R435) -/

/-- R435: the tag over a record, under the key derived from the fused device secret. -/
def recordTag (b : List Byte) : BitVec 256 := digest256 (Config.recordKey ++ b)

/-- R434: an entry of the stored configuration. -/
def configEntry (x : BitVec 16 × BitVec 256) : List Byte := leBytes 2 x.1.toNat ++ leBytes 6 0 ++ digestBytes x.2

/-- R434, R435: the stored configuration as the flash holds it, before its tag. -/
def ConfigRecord.body (c : ConfigRecord) : List Byte := digestBytes c.boundId ++ joinBytes (c.fields.map configEntry)

/-- R435: does the tag of the stored configuration verify? -/
def ConfigRecord.tagGood (c : ConfigRecord) : Bool := c.tag == recordTag c.body

/-- R435: a configuration that this package writes. -/
def ConfigRecord.bound (fields : List (BitVec 16 × BitVec 256)) : ConfigRecord :=
  let c : ConfigRecord := ⟨fields, Config.identity, 0⟩
  { c with tag := recordTag c.body }

/-- A record of the persistent inventory in 8 bytes: kind, and its numbers (log entry 13). -/
def InvRecord.bytes (r : InvRecord) : List Byte :=
  let b (k x y : Nat) : List Byte := leBytes 1 k ++ leBytes 1 0 ++ leBytes 2 x ++ leBytes 4 y
  match r with
  | .channel k ch => b 1 k.val ch.val
  | .pseudo k p => b 2 k.val p.val
  | .unit u => match u with
    | .tbl d p => b 0x10 d.val p.val
    | .atm d p => b 0x11 d.val p.val
    | .dlr d p => b 0x12 d.val p.val
    | .pdlr p => b 0x13 4 p.val
    | .sol i => b 0x14 0 i.val
    | .shf i => b 0x15 0 i.val
    | .hbmc i => b 0x16 0 i.val
    | .deckAdder d => b 0x17 d.val 0
    | .lane l => b 0x18 0 l.val
    | .fdie => b 0x19 0 0
    | .pdie => b 0x1A 0 0

/-- R435: the persistent inventory as the flash holds it, before its tag. -/
def invBody (id : BitVec 256) (rs : List InvRecord) : List Byte := digestBytes id ++ joinBytes (rs.map InvRecord.bytes)

/-- R435: does the tag of the persistent inventory verify? One that has not been written needs none. -/
def Flash.invTagGood (f : Flash) : Bool := f.invBound.all (fun id => f.invTag == recordTag (invBody id f.inventory))

/-- R435: the persistent inventory in force: none whose tag fails. -/
def Flash.records (f : Flash) : List InvRecord := if f.invTagGood then f.inventory else []

/-- R435: the package writes its persistent inventory. -/
def Flash.putRecords (rs : List InvRecord) (f : Flash) : Flash :=
  { f with inventory := rs, invBound := some Config.identity, invTag := recordTag (invBody Config.identity rs) }

/-! ### The layout (R436) -/

/-- R403: what the signature of the test set covers, with the certificate: its parts in order, each with its inputs, its programs and the
expected digest (the layout is the model's own; log entry 27). -/
def TestSet.bytes (x : TestSet) : List Byte := (x.parts.map (fun p => p.inputs ++ p.programs ++ digestBytes p.expected)).flatten

/-- R436: the regions: first byte, bytes, and what is written there; the rest of a region is erased. -/
def Flash.layout (f : Flash) : List (Nat × Nat × List Byte) :=
  let copy (r : BootRecord) : List Byte := r.body ++ leBytes 8 r.check.toNat
  [(0, 0x1_0000, copy f.copies[0]), (0x1_0000, 0x1_0000, copy f.copies[1]),
   (0x2_0000, 0x1_0000, f.config.elim [] (fun c => c.body ++ digestBytes c.tag)),
   (0x3_0000, 0x1_0000, f.invBound.elim [] (fun id => invBody id f.inventory ++ digestBytes f.invTag)),
   (0x10_0000, 0x100_0000, f.slots[0]), (0x110_0000, 0x100_0000, f.slots[1]),
   (0x210_0000, 0x400_0000, f.testSet.bytes ++ f.testSet.cert ++ f.testSet.sig)]

/-- R436: the byte of the flash at an address; an erased byte reads as 0xFF (log entry 13). -/
def Flash.byteAt (f : Flash) (a : Nat) : Byte :=
  match f.layout.find? (fun r => decide (r.1 ≤ a) && decide (a < r.1 + r.2.1)) with
  | some r => r.2.2.getD (a - r.1) 0xFF
  | none => 0xFF

end Sys2Proof.Machine
end

