-- ==== Sys2Proof/Machine/MemOps.lean ====
section
/-!
DEFINITION. MemOps.lean: the local address map (R235-R237, R474-R477), bytes, poison and the symbol code of HBM transfers
(R241-R246), and the pip boards (R333, R334). Every load and store of every unit goes through here.
-/
namespace Sys2Proof.Machine

open Sys2Proof

/-! ### Cells -/

/-- Does a fill give a key its contents? -/
def Fill.covers (f : Fill) (key : Nat) : Bool := decide (f.lo ≤ key) && decide (key < f.hi) && decide (key % 2 ^ 30 < f.off)

/-- Does a fill leave nothing of an older one? -/
def Fill.hides (f g : Fill) : Bool := decide (f.lo ≤ g.lo) && decide (g.hi ≤ f.hi) && decide (g.off ≤ f.off)

/-- The contents that a fill gives a key. -/
def Fill.value (f : Fill) (key : Nat) : Byte :=
  match f.n with
  | some n => Config.unspecByte n key
  | none => 0

/-- What the newest of the fills gives a key; 0 where none covers it. -/
def fillBase : List Fill → Nat → Byte
  | [], _ => 0
  | f :: r, key => if f.covers key then f.value key else fillBase r key

/-- What an unlisted key reads as: 0, or what the newest fill gives (R96, R238, R401; log entries 5 and 6). -/
def Memory.base (m : Memory) (key : Nat) : Byte := fillBase m.fills key

/-- Read a key in a list of cells. -/
def cellGet (base : Byte) : List Host.Cell → Nat → Byte
  | [], _ => base
  | (k, b) :: r, a => if k = a then b else cellGet base r a

/-- Write a key in a list of cells in canonical form. -/
def cellPut (base b : Byte) : List Host.Cell → Nat → List Host.Cell
  | [], a => if b = base then [] else [(a, b)]
  | (k, x) :: r, a =>
    if a < k then (if b = base then (k, x) :: r else (a, b) :: (k, x) :: r)
    else if a = k then (if b = base then r else (a, b) :: r)
    else (k, x) :: cellPut base b r a

/-- The byte at a key. -/
def Memory.get (m : Memory) (key : Nat) : Byte := cellGet (m.base key) m.cells key

/-- Write a byte at a key. -/
def Memory.put (m : Memory) (key : Nat) (b : Byte) : Memory := { m with cells := cellPut (m.base key) b m.cells key }

/-- Rising keys above a bound, none holding what it would read as unlisted. -/
def cellsOk (m : Memory) : Nat → List Host.Cell → Bool
  | _, [] => true
  | lo, (k, b) :: r => decide (lo ≤ k) && decide (b ≠ m.base k) && cellsOk m (k + 1) r

/-- The canonical form of memory. -/
def Memory.wf (m : Memory) : Bool := cellsOk m 0 m.cells

/-! ### The window geometry (R235-R239) -/

/-- L of R235. -/
def State.liveBytes (s : State) : Nat := (8 - s.hbm.sachetNow.toNat) * 2 ^ 27

/-- P of R235. -/
def State.splitBytes (s : State) : Nat := s.hbm.winSplit.toNat * 2 ^ 20

/-- Pseudo-channels of stack `k` out of service: those retired, and all of a stack that is absent (R19, R232, R236). -/
def State.outOf (s : State) (k : Nat) : Nat :=
  if vget s.inv.hbmc k .own = .absent then 2 ^ 64 - 1 else (s.ctl k).retired.toNat

/-- How many pseudo-channels of stack `k` are out of service. -/
def State.outCount (s : State) (k : Nat) : Nat := if s.outOf k = 0 then 0 else popCount 64 (s.outOf k)

/-- r_d of R237. -/
def State.retiredIn (s : State) (d : Nat) : Nat := s.outCount (4 * d) + s.outCount (4 * d + 1) + s.outCount (4 * d + 2) + s.outCount (4 * d + 3)

/-- r of R237. -/
def State.retiredAll (s : State) : Nat := s.retiredIn 0 + s.retiredIn 1 + s.retiredIn 2 + s.retiredIn 3

/-- R237: the size of Deck `d`'s window. -/
def State.deckWinSize (s : State) (d : Nat) : Nat := (256 - s.retiredIn d) * (s.liveBytes - s.splitBytes)

/-- R237: where Deck `d`'s window begins; the package-wide window begins at `deckWinBase 4`. -/
def State.deckWinBase (s : State) : Nat → Nat
  | 0 => 0
  | d + 1 => s.deckWinBase d + s.deckWinSize d

/-- R237: the size of the package-wide window. -/
def State.pkgWinSize (s : State) : Nat := (1024 - s.retiredAll) * s.splitBytes

/-- The end of the package-wide window. -/
def State.hbmEnd (s : State) : Nat := s.deckWinBase 4 + s.pkgWinSize

/-- A stripe bit. -/
def tb (t i : Nat) : Nat := bit01 (t.testBit i)

/-- R236: H(t), with the Deck bits only for the package-wide window. -/
def stripeHash (pkg : Bool) (t : Nat) : Nat :=
  let x (i a b c : Nat) : Nat := ((tb t a + tb t b + tb t c) % 2) * 2 ^ i
  let y (i a b : Nat) : Nat := ((tb t a + tb t b) % 2) * 2 ^ i
  x 0 0 8 16 + x 1 1 9 17 + x 2 2 10 18 + x 3 3 11 19 + x 4 4 12 20 + x 5 5 13 21 + y 6 6 14 + y 7 7 15 +
    (if pkg then x 8 0 9 18 + x 9 1 10 19 else 0)

/-- Is the pseudo-channel with package selector `p` out of service? -/
def State.pchOut (s : State) (p : Nat) : Bool := (s.outOf (p / 64)).testBit (p % 64)

/-- R236: the selector of granule `g` and its stripe, in a window of `n` pseudo-channels from selector `lo`, `r` of them
retired. -/
def State.place (s : State) (pkg : Bool) (lo n r g : Nat) : Nat × Nat :=
  let t := g / (n - r)
  let u := g % (n - r)
  let h := stripeHash pkg t
  let j := if r = 0 then u else ((upTo n).filter (fun j => !s.pchOut (lo + (j ^^^ h)))).getD u 0
  (lo + (j ^^^ h), t)

/-- The key of offset `o` of the pseudo-channel with selector `p`. -/
def pchKey (p o : Nat) : Nat := p * 2 ^ 30 + o

/-- R236: the key of a byte of the HBM windows. -/
def State.hbmKey (s : State) (a : Nat) : Nat :=
  let base4 := s.deckWinBase 4
  if a < base4 then
    let d := if a < s.deckWinBase 1 then 0 else if a < s.deckWinBase 2 then 1 else if a < s.deckWinBase 3 then 2 else 3
    let off := a - s.deckWinBase d
    let (p, t) := s.place false (256 * d) 256 (s.retiredIn d) (off / 256)
    pchKey p (256 * t + off % 256)
  else
    let off := a - base4
    let (p, t) := s.place true 0 1024 s.retiredAll (off / 256)
    pchKey p (s.liveBytes - s.splitBytes + 256 * t + off % 256)

/-- The window address of an HBM key; 0 for a Sachet byte or a pseudo-channel out of service (R242). -/
def State.hbmAddr (s : State) (key : Nat) : Nat :=
  let p := key / 2 ^ 30
  let o := key % 2 ^ 30
  let lp := s.liveBytes - s.splitBytes
  if s.pchOut p then 0
  else if o < lp then
    let d := p / 256
    let t := o / 256
    let h := stripeHash false t
    let j := (p % 256) ^^^ h
    let r := s.retiredIn d
    let u := if r = 0 then j else ((upTo j).filter (fun i => !s.pchOut (256 * d + (i ^^^ h)))).length
    s.deckWinBase d + (t * (256 - r) + u) * 256 + o % 256
  else if o < s.liveBytes then
    let t := (o - lp) / 256
    let h := stripeHash true t
    let j := p ^^^ h
    let r := s.retiredAll
    let u := if r = 0 then j else ((upTo j).filter (fun i => !s.pchOut (i ^^^ h))).length
    s.deckWinBase 4 + (t * (1024 - r) + u) * 256 + o % 256
  else 0

/-- R239: the key of the twin of an HBM key, where it has one. -/
def State.twinKey (s : State) (key : Nat) : Option Nat :=
  if key % 2 ^ 30 < s.hbm.sachetNow.toNat * 2 ^ 27 then some (key + s.liveBytes) else none

/-! ### The stores (R474-R477) -/

/-- The stores of the local map. -/
inductive Store where
  | hbm
  | suit (i : Nat)
  | organ (i : Nat)
  | acc (i : Nat)
  | tile (i : Nat)
  | pip (i : Nat)
  | sbuf (i : Nat)
  deriving DecidableEq, Repr

/-- An instance of an on-die store: base, stride, instances, extent. -/
def storeAt (base stride n extent : Nat) (k : Nat → Store) (a : Nat) : Option (Nat × Nat × Store) :=
  let i := (a - base) / stride
  if base ≤ a ∧ i < n ∧ (a - base) % stride < extent then some (base + stride * i, base + stride * i + extent, k i) else none

/-- R237, R475-R477: the store that holds an address: where it begins and ends, and which. The stores of a retired Tableau
engine or Atomizer hold no memory. -/
def State.storeOf (s : State) (a : Nat) : Option (Nat × Nat × Store) :=
  if a < 0x0100_0000_0000 then (if a < s.hbmEnd then some (0, s.hbmEnd, .hbm) else none)
  else if a < 0x0102_0000_0000 then storeAt 0x0100_0000_0000 0x0200_0000 16 0x0180_0000 .suit a
  else
    let live (i : Nat) (v : Vector UnitState 64) : Bool := vget v i .own != .absent
    match (if a < 0x0103_0000_0000 then storeAt 0x0102_0000_0000 0x0020_0000 64 0x0020_0000 .organ a
      else if a < 0x0104_0000_0000 then storeAt 0x0103_0000_0000 0x0020_0000 64 0x0014_0000 .acc a
      else if a < 0x0105_0000_0000 then storeAt 0x0104_0000_0000 0x8000 64 0x8000 .tile a
      else if a < 0x0106_0000_0000 then storeAt 0x0105_0000_0000 0x1000 16 0x1000 .pip a
      else if a < 0x0107_0000_0000 then storeAt 0x0106_0000_0000 0x0001_0000 5 0x0001_0000 .sbuf a
      else none) with
    | some (lo, hi, .organ i) => if live i s.inv.tbl then some (lo, hi, .organ i) else none
    | some (lo, hi, .acc i) => if live i s.inv.tbl then some (lo, hi, .acc i) else none
    | some (lo, hi, .tile i) => if live i s.inv.atm then some (lo, hi, .tile i) else none
    | r => r

/-- The store that holds the whole extent of `n` bytes from `a`. -/
def State.storeOfExtent (s : State) (a n : Nat) : Option Store :=
  match s.storeOf a with
  | some (_, hi, k) => if a + n ≤ hi then some k else none
  | none => none

/-- R265, R348: an HBM window or a Suit buffer. -/
def Store.shared : Store → Bool
  | .hbm | .suit _ => true
  | _ => false

/-- The key of a byte: its place in HBM, or its address on a die. -/
def State.keyOf (s : State) (a : Nat) : Nat := if a < 2 ^ 40 then s.hbmKey a else a

/-- R97, R98: the bits of an accumulator slot pair or slot, from the running tile's sums. The spec gives neither the order of the cells, nor where
an FP64 pair's flags stand, nor what the store reads when no descriptor runs: row-major over the tile's columns, S sign-extended below a
last byte of flags, and 0 (DESIGN CHOICE, log entry 29). -/
def accByte (r : EngRun) (off : Nat) : Byte :=
  let size := if r.wide then 40 else 20
  match r.sums[off / size]? with
  | none => 0
  | some x =>
    let i := off % size
    if i = size - 1 then
      Config.slotBits (bit01 (x.sp == .pinf) + 2 * bit01 (x.sp == .ninf) + 3 * bit01 (x.sp == .nan) +
        4 * bit01 (decide (x.n > 0)) + 8 * bit01 x.negOnly + 16 * bit01 x.wl + 32 * bit01 x.ax)
    else BitVec.ofNat 8 (ofSigned (8 * size) x.s / 256 ^ i)

/-- R333: a byte of a pip board's words: the STATE bitmap; RAISE and LOWER read 0. -/
def pipByte (pips : List Nat) (suit off : Nat) : Byte :=
  if off < 0x200 then 0
  else
    let first := (off - 0x200) * 8
    BitVec.ofNat 8 ((upTo 8).foldl (fun x i => if pips.contains (suit * 4096 + first + i) then x + 2 ^ i else x) 0)

/-- The byte at a local address (0 where there is no memory). -/
def State.byteAt (s : State) (a : Nat) : Byte :=
  match s.storeOf a with
  | none => 0
  | some (lo, _, .acc g) => accByte (s.engine .tbl g).head.run (a - lo)
  | some (lo, _, .tile g) =>
    let off := a - lo
    BitVec.ofNat 8 (((vget s.eng.tileRegs g []).getD (off / 4) 0).toNat / 256 ^ (off % 4))
  | some (lo, _, .pip i) => pipByte s.hbm.pips i (a - lo)
  | some _ => s.mem.get (s.keyOf a)

/-- `n` bytes from a local address. -/
def State.readMem (s : State) (a n : Nat) : List Byte := (upTo n).map (fun i => s.byteAt (a + i))

/-- The little-endian number in `n` bytes from a local address (R4). -/
def State.readNat (s : State) (a n : Nat) : Nat := leNat (s.readMem a n)

/-- `n` bytes from a local address of a memory kept earlier; computed stores are read as they now stand. -/
def State.readIn (s : State) (m : Memory) (a n : Nat) : List Byte := { s with mem := m }.readMem a n

/-! ### Poison and fenced channels -/

/-- The line (key / 64) that holds a byte. -/
def State.lineOf (s : State) (a : Nat) : Nat := s.keyOf a / 64

/-- R248: does a key lie in a fenced channel? -/
def State.fencedKey (s : State) (key : Nat) : Bool :=
  if key < 2 ^ 40 then
    let p := key / 2 ^ 30
    (s.ctl (p / 64)).fencedCh.getLsbD (p % 64 / 2)
  else false

/-- Is any channel fenced? -/
def State.anyFenced (s : State) : Bool := s.hbm.ctl.toList.any (fun c => c.fencedCh != 0)

/-- The addresses of the 64-byte lines of an extent: the first byte of the extent in each. -/
def extentLines (a n : Nat) : List Nat := if n = 0 then [] else (upTo ((a + n - 1) / 64 - a / 64 + 1)).map (fun i => (a / 64 + i) * 64)

/-- Insert into a rising list without repeats. -/
def insertNat (x : Nat) : List Nat → List Nat
  | [] => [x]
  | y :: r => if x < y then x :: y :: r else if x = y then y :: r else y :: insertNat x r

/-- Does a line stand in a stack whose every transfer was written poisoned (R377)? -/
def Memory.lostLine (m : Memory) (line : Nat) : Bool := decide (line < 2 ^ 34) && m.lost.getLsbD (line / 2 ^ 30)

/-- Is a line poisoned? -/
def Memory.isPoison (m : Memory) (line : Nat) : Bool := m.poison.contains line != m.lostLine line

/-- Is no line poisoned? -/
def Memory.noPoison (m : Memory) : Bool := m.poison.isEmpty && m.lost == 0

/-- Poison a line. -/
def Memory.poisonLine (m : Memory) (line : Nat) : Memory :=
  { m with poison := if m.lostLine line then m.poison.filter (fun x => x ≠ line) else insertNat line m.poison }

/-- A line loses its poison. -/
def Memory.cleanLine (m : Memory) (line : Nat) : Memory :=
  { m with poison := if m.lostLine line then insertNat line m.poison else m.poison.filter (fun x => x ≠ line) }

/-- R377: every transfer of stack `k` is written poisoned. -/
def Memory.loseStack (m : Memory) (k : Nat) : Memory := { m with
  cells := m.cells.filter (fun c => decide (c.1 / 2 ^ 36 ≠ k))
  poison := m.poison.filter (fun l => decide (l / 2 ^ 30 ≠ k))
  lost := m.lost ||| BitVec.ofNat 16 (2 ^ k)
  upset := m.upset.filter (fun u => decide (u.1 / 2 ^ 30 ≠ k)) }

/-- Everything that a fill covers takes its contents. -/
def Memory.fill (f : Fill) (m : Memory) : Memory := { m with
  cells := m.cells.filter (fun c => !f.covers c.1)
  fills := f :: m.fills.filter (fun g => !f.hides g) }

/-- The contents of a range become unspecified. -/
def Memory.unspecify (lo hi off : Nat) (m : Memory) : Memory := { m with epoch := m.epoch + 1 }.fill ⟨lo, hi, off, some (m.epoch + 1)⟩

/-- R401: training writes every transfer of stack `k` with zero data. -/
def Memory.zeroStack (m : Memory) (k : Nat) : Memory :=
  { m with
    poison := m.poison.filter (fun l => decide (l / 2 ^ 30 ≠ k))
    lost := m.lost &&& ~~~(BitVec.ofNat 16 (2 ^ k))
    upset := m.upset.filter (fun u => decide (u.1 / 2 ^ 30 ≠ k)) }.fill ⟨k * 2 ^ 36, (k + 1) * 2 ^ 36, 2 ^ 30, none⟩

/-- R96, R476: what the staging region of engine `g`'s Organ, at and above page `base`, holds is unspecified. -/
def Memory.stageOrgan (g base : Nat) (m : Memory) : Memory :=
  let lo := 0x0102_0000_0000 + 0x0020_0000 * g
  { m with poison := m.poison.filter (fun l => !(decide (lo + base * 4096 ≤ l * 64) && decide (l * 64 < lo + 0x0020_0000))) }.unspecify
    (lo + base * 4096) (lo + 0x0020_0000) (2 ^ 30)

/-- R374: does an extent meet poison (R243), or a fenced channel (R248)? -/
def State.poisonedIn (s : State) (a n : Nat) : Bool :=
  if s.mem.noPoison && !s.anyFenced then false
  else (extentLines a n).any (fun l => s.mem.isPoison (s.lineOf l) || s.fencedKey (s.keyOf l))


/-- Write bytes at rising keys. -/
def Memory.putAll (m : Memory) (kbs : List (Nat × Byte)) : Memory := kbs.foldl (fun m kb => m.put kb.1 kb.2) m

/-! ### The symbol code in use (R242, R245, R246) -/

/-- Set bits of MEM_ERR, with their records (R258); bit 2 has its own record (R242). -/
def State.memErr (k : Nat) (bits : Nat) (s : State) : State :=
  let old := (s.ctl k).err.toNat
  (s.onCtl k (fun c => { c with err := c.err ||| BitVec.ofNat 8 bits })).errRecords .mem k old bits

/-- R246: mark a pseudo-channel of stack `k` failing. -/
def State.markFailing (k pch : Nat) (s : State) : State :=
  if (s.ctl k).failing.getLsbD pch then s
  else
    let s := s.onCtl k (fun c => { c with failing := c.failing ||| BitVec.ofNat 64 (2 ^ pch) })
    s.memErr k 2

/-- R242: DETAIL of a transfer. -/
def transferDetail (key : Nat) : Nat :=
  let pch := key / 2 ^ 30 % 64
  pch / 2 + (pch % 2) * 32 + (key % 2 ^ 30) * 64

/-- 24 hours in cd (R246). -/
def dayCd : Nat := 864_000_000

/-- R245: a scrub period in cd. -/
def HbmCtl.periodCd (c : HbmCtl) : Nat := c.scrubHours.toNat * 36_000_000

/-- R245, R246: a new scrub period: no transfer counted, no pass made. Periods are counted from count 0 (log entry 30). -/
def HbmCtl.inPeriod (c : HbmCtl) (cd : Count) : HbmCtl :=
  let p := cd.toNat / c.periodCd
  if c.period = p then c
  else { c with period := p, correctedInPeriod := [], scrubbed := 0, scrubAt := Vector.replicate 64 0 }

/-- R242, R246: count and record a corrected transfer at HBM key `key`. -/
def State.noteCorrected (key : Nat) (s : State) : State :=
  let k := key / 2 ^ 36
  let pch := key / 2 ^ 30 % 64
  let cd := s.cad.count
  let s := s.onCtl k (fun c =>
    let c := c.inPeriod cd
    let t := (pch, key % 2 ^ 30 / 64)
    let n := (c.correctedInCd.find? (fun x => x.1 = cd ∧ x.2.1 = pch / 2)).elim 0 (fun x => x.2.2)
    { c with
      corr := satAdd c.corr 1
      correctedInPeriod := if c.correctedInPeriod.contains t then c.correctedInPeriod else t :: c.correctedInPeriod
      correctedInCd := (cd, pch / 2, n + 1) :: c.correctedInCd.filter (fun x => x.1 = cd ∧ x.2.1 ≠ pch / 2)
      -- more than 32 within the cd: the channel retrains as soon as its stack may (R247)
      retrainReq := if n + 1 > 32 then c.retrainReq ||| BitVec.ofNat 32 (2 ^ (pch / 2)) else c.retrainReq })
  let s := s.record { cls := .corrected, block := .mem, unit := k, code := 0x010C, addr := s.hbmAddr (key / 64 * 64), detail := transferDetail key }
  if ((s.ctl k).correctedInPeriod.filter (fun x => x.1 = pch)).length > 64 then s.markFailing k pch else s

/-- R242, R246: count and record an uncorrectable transfer at HBM key `key`. -/
def State.noteUncorrectable (key : Nat) (s : State) : State :=
  let k := key / 2 ^ 36
  let pch := key / 2 ^ 30 % 64
  let cd := s.cad.count.toNat
  let again := (s.ctl k).lastUncorr.any (fun x => x.1 = pch ∧ cd ≤ x.2 + dayCd)
  let s := s.onCtl k (fun c => { c with
    uncorr := satAdd c.uncorr 1
    err := c.err ||| 4
    lastUncorr := (pch, cd) :: c.lastUncorr.filter (fun x => x.1 ≠ pch), hurt := insertNat (key / 64) c.hurt })
  let s := s.record { cls := .contained, block := .mem, unit := k, code := 2, addr := s.hbmAddr (key / 64 * 64), detail := transferDetail key }
  if again then s.markFailing k pch else s

/-- Apply a pattern to the 64 data bytes of a line. -/
def Memory.applyPattern (m : Memory) (line : Nat) (p : Pattern) : Memory :=
  m.putAll ((upTo 64).map (fun i => (line * 64 + i, m.get (line * 64 + i) ^^^ patternByte p i)))

/-- Drop the symbol errors of a line. -/
def Memory.calm (m : Memory) (line : Nat) : Memory := { m with upset := m.upset.filter (fun x => x.1 ≠ line) }

/-- A line that reads as poisoned is one, whichever codeword it was stored as: what is stored does not change, and pattern `e` of an
unpoisoned line becomes the pattern against the poisoned codeword of its data. -/
def Memory.asPoison (m : Memory) (line : Nat) (e : Pattern) : Memory :=
  if m.isPoison line then m else { m.calm line with upset := (line, e ++ poisonPattern) :: (m.calm line).upset }.poisonLine line

/-- R242: a read of the HBM transfer `line` decodes, is written back, counted and recorded. -/
def State.decodeLine (line : Nat) (s : State) : State :=
  match s.mem.upset.find? (fun x => x.1 = line) with
  | none => s
  | some (_, e) =>
    match decodePattern (s.mem.isPoison line) e with
    | .clean p => s.onMem (fun m => ((m.applyPattern line p).calm line).cleanLine line)
    | .poisoned _ => s.onMem (fun m => m.asPoison line e)
    | .corrected p => (s.onMem (fun m => ((m.applyPattern line p).calm line).cleanLine line)).noteCorrected (line * 64)
    | .uncorrectable p =>
      (s.onMem (fun m => ((m.applyPattern line p).calm line).poisonLine line)).noteUncorrectable (line * 64)

/-- R242: the reads of an extent decode the transfers it meets, lowest address first. -/
def State.settle (a n : Nat) (s : State) : State :=
  if s.mem.upset.isEmpty then s else (extentLines a n).foldl (fun s l => s.decodeLine (s.lineOf l)) s

/-! ### Stores -/

/-- R243, R374: the lines of an extent that a store covers whole lose their poison and their symbol errors. -/
def State.freshLines (a n : Nat) (s : State) : State :=
  if s.mem.noPoison && s.mem.upset.isEmpty then s
  else
    (extentLines a n).foldl (fun s l =>
      if a ≤ l ∧ l + 64 ≤ a + n then
        let line := s.lineOf l
        s.onMem (fun m => (m.calm line).cleanLine line)
      else s.decodeLine (s.lineOf l)) s

/-- The keys and bytes of a store, without those of fenced channels (R248). -/
def State.storeCells (s : State) (a : Nat) (bs : List Byte) : List (Nat × Byte) :=
  ((List.zip (upTo bs.length) bs).map (fun ib => (s.keyOf (a + ib.1), ib.2))).filter (fun kb => !s.fencedKey kb.1)

/-! ### The P-die package-coherent cache (R12, R14, R212) -/

/-- R12: lines that the cache holds: 256 MiB of 64 bytes. -/
def pdcLines : Nat := 4194304

/-- R250, R274: the directory removes the lines that an extent meets. -/
def State.pdcDrop (a n : Nat) (s : State) : State :=
  if s.pdc.isEmpty then s else { s with pdc := s.pdc.filter (fun l => !(decide (l * 64 < a + n) && decide (a < l * 64 + 64))) }

/-- R12, R212: a Dealer core's load or store of shared memory brings its lines in; the oldest give way (log entry 21). -/
def State.pdcFill (k : Store) (a n : Nat) (s : State) : State :=
  if k.shared then
    let ls := (upTo ((a + n - 1) / 64 + 1 - a / 64)).map (fun i => a / 64 + i)
    let held := s.pdc.filter (fun l => !ls.contains l) ++ ls
    { s with pdc := held.drop (held.length - pdcLines) }
  else s

/-- R14: does the cache hold every line of an extent that lies in a granule of 256 bytes? -/
def State.pdcHolds (s : State) (a n g : Nat) : Bool :=
  (upTo 4).all (fun i =>
    let l := g / 256 * 4 + i
    decide (a + n ≤ l * 64) || decide (l * 64 + 64 ≤ a) || s.pdc.contains l)

/-- Store bytes at a local address of an HBM window, a Suit buffer, an Organ or a sample buffer; no cached copy of the lines is left. -/
def State.writeMem (a : Nat) (bs : List Byte) (s : State) : State :=
  let s := s.freshLines a bs.length
  (s.onMem (fun m => m.putAll (s.storeCells a bs))).pdcDrop a bs.length

/-! ### Traffic that waits (R14, R247, R377, R384) -/

/-- The Deck that owns a byte: of HBM, or of a store of a Suit. -/
def State.deckOf (s : State) (a : Nat) : Option Nat :=
  match s.storeOf a with
  | some (_, _, .hbm) => some (s.keyOf a / 2 ^ 38)
  | some (_, _, .suit i) | some (_, _, .pip i) => some (i / 4)
  | some (_, _, .organ g) | some (_, _, .acc g) | some (_, _, .tile g) => some (g / 16)
  | _ => none

/-- A Deck reset is in progress. -/
def State.deckResetting (s : State) (d : Nat) : Bool := s.resets.any (fun r => match r.scope with
  | .deck x => x.val == d
  | _ => false)

/-- R236: the addresses of an extent that decide which Decks and channels it meets: of each granule its first byte; of an extent that
is longer than two stripes, those of its first and last ones, and of every window that begins within it. -/
def State.granules (s : State) (a n : Nat) : List Nat :=
  let first (lo hi : Nat) : List Nat :=
    if hi ≤ lo then [] else (upTo (min 2048 ((hi - 1) / 256 - lo / 256 + 1))).map (fun i => max lo ((lo / 256 + i) * 256))
  if n ≤ 524288 then first a (a + n)
  else first a (a + n) ++ first (a + n - 524288) (a + n) ++
    ((upTo 5).map (fun d => let b := s.deckWinBase d; if a < b then first b (a + n) else [])).flatten

/-- R377: is memory of an extent held by a Deck reset? -/
def State.heldAt (s : State) (a n : Nat) : Bool :=
  !s.resets.isEmpty && (s.granules a n).any (fun g => (s.deckOf g).elim false s.deckResetting)

/-- Who makes an access to memory (R14). -/
inductive Accessor where
  /-- an engine of a Deck -/
  | engine (d : Nat)
  /-- a Dealer core -/
  | dealer (c : Nat)
  /-- the F-die: the fabric, the Trick engine -/
  | fdie
  /-- the memory's own controller -/
  | controller
  deriving DecidableEq, Repr

/-- R13: the link between two Decks (log entry 13). -/
def deckLink (d e : Nat) : Nat :=
  let lo := min d e
  let hi := max d e
  if lo = 0 then hi - 1 else if lo = 1 then hi + 1 else 5

/-- R14: the die links that an access to memory of Deck `e` crosses; of a Dealer core, one that misses the P-die cache. -/
def Accessor.links (who : Accessor) (e : Nat) : List Nat :=
  let between (d : Nat) : List Nat := if d = e then [] else [deckLink d e]
  match who with
  | .engine d => between d
  | .dealer c => if c < 64 then [10 + c / 16, 10 + e] ++ between (c / 16) else [10 + e]
  | .fdie => [6 + e]
  | .controller => []

/-- R384: a die link retrains. -/
def State.linkShut (s : State) (l : Nat) : Bool := s.flt.repairing.any (fun x => x.1.val == l)

/-- R14, R384: the way between a core and the F-die retrains. -/
def State.fabricShut (s : State) (c : Fin 192) : Bool := decide (c.val < 64) && s.linkShut (6 + c.val / 16)

/-- R14: the die links that an access served by the P-die cache crosses; none where it is not so served. -/
def State.hitLinks (s : State) (who : Accessor) (a n g : Nat) : Option (List Nat) :=
  match who with
  | .dealer c => if s.pdcHolds a n g then some (if c < 64 then [10 + c / 16] else []) else none
  | _ => none

/-- R247: the channel that holds an HBM key retrains. -/
def State.keyShut (s : State) (key : Nat) : Bool := let p := key / 2 ^ 30; (s.ctl (p / 64)).retraining.getLsbD (p % 64 / 2)

/-- R247: the channel that holds a byte retrains. -/
def State.channelShut (s : State) (a : Nat) : Bool :=
  match s.storeOf a with
  | some (_, _, .hbm) => s.keyShut (s.keyOf a)
  | _ => false

/-- Does any retrain hold traffic? -/
def State.retrains (s : State) : Bool := !s.flt.repairing.isEmpty || s.hbm.ctl.toList.any (fun c => c.retraining != 0)

/-- R247, R384: does an access to an extent wait for a channel or a die link that retrains? -/
def State.shutAt (s : State) (who : Accessor) (a n : Nat) : Bool :=
  s.retrains && (s.granules a n).any (fun g => match s.hitLinks who a n g with
    | some ls => ls.any s.linkShut
    | none => s.channelShut g || (s.deckOf g).any (fun d => (who.links d).any s.linkShut))

/-- Does an access wait, for a reset or a retrain? -/
def State.busyAt (s : State) (who : Accessor) (a n : Nat) : Bool := s.heldAt a n || s.shutAt who a n

/-- Does any of several accesses wait? -/
def State.busyAny (s : State) (who : Accessor) (xs : List (Nat × Nat)) : Bool :=
  (!s.resets.isEmpty || s.retrains) && xs.any (fun x => s.busyAt who x.1 x.2)

/-! ### Pips (R333, R334) -/

/-- Is pip `pip` of Suit `suit` raised? -/
def State.pipUp (s : State) (suit pip : Nat) : Bool := s.hbm.pips.contains (suit * 4096 + pip)

/-- Raise a pip. -/
def State.raisePip (suit pip : Nat) (s : State) : State :=
  let x := suit * 4096 + pip % 4096
  s.onHbm (fun h => { h with pips := insertNat x h.pips, raised := insertNat x h.raised })

/-- R375: a pip of a Deck in reset rises at re-entry. -/
def State.raiseHeld (suit pip : Nat) (s : State) : State :=
  if s.deckResetting (suit / 4) then s.onFab (fun f => { f with heldPips := f.heldPips ++ [(suit, pip)] }) else s.raisePip suit pip

/-- Lower a pip, unless it was raised in the present ac (R334); a message slot that it guards is busy no longer (R297). -/
def State.lowerPip (suit pip : Nat) (s : State) : State :=
  let x := suit * 4096 + pip % 4096
  if s.hbm.raised.contains x then s
  else
    let free (q : RxQueue) (i : Nat) : Bool := q.suit.toNat == suit && q.pipBase.toNat + i == pip % 4096
    (s.onHbm (fun h => { h with pips := h.pips.filter (fun y => y ≠ x) })).onHnd (fun h => { h with
      rxq := h.rxq.map (fun q => { q with busy := q.busy.filter (fun i => !(free q i)) })
      claims := h.claims.filter (fun c => !(h.rxq.toList[c.queue]?.any (fun q => free q c.slot))) })

end Sys2Proof.Machine
end

