-- ==== Sys2Proof/Machine/EngPips.lean ====
section
/-!
DEFINITION. EngPips.lean: the fields that every descriptor has, its wait set, and what the head of an engine waits for (R90, R100, R101, R134,
R454).
-/
namespace Sys2Proof.Machine

open Sys2Proof

/-! ### Fields that every descriptor has -/

/-- A field of a descriptor: bits [hi:lo] of the word that begins at byte `off`. -/
def df (d : BitVec 1024) (off hi lo : Nat) : Nat := field (d.toNat >>> (8 * off)) hi lo

/-- OP: 0 is NOP in every kind (R87, R134, R161, R197). -/
def descOp (d : BitVec 1024) : Nat := df d 0 7 0

/-- The place of the pip word. -/
def pipOff : EngKind → Nat
  | .tbl | .sol => 104
  | .atm => 56
  | .shf => 88

/-- CPIP_EN. -/
def descCpip (k : EngKind) (d : BitVec 1024) : Bool :=
  match k with
  | .tbl => df d 5 4 4 == 1
  | .atm => df d 1 4 4 == 1
  | .sol | .shf => df d 1 6 6 == 1

/-- DONE_PIP. -/
def descDonePip (k : EngKind) (d : BitVec 1024) : Nat := df d (pipOff k) 63 52

/-- DESC_TAG. -/
def descTag (k : EngKind) (d : BitVec 1024) : Nat :=
  match k with
  | .tbl => df d 116 31 0
  | .atm => df d 28 31 0
  | .sol => df d 92 31 0
  | .shf => df d 12 31 0

/-- PIP_MODE of a Tableau descriptor; for the other kinds 1 with PIP_EN and 0 without. -/
def descPipMode (k : EngKind) (d : BitVec 1024) : Nat :=
  match k with
  | .tbl => df d 104 25 24
  | _ => df d (pipOff k) 48 48

/-- PIP_COUNT. -/
def descPipCount (k : EngKind) (d : BitVec 1024) : Nat := df d (pipOff k) 22 16

/-- PIP_BASE. -/
def descPipBase (k : EngKind) (d : BitVec 1024) : Nat := df d (pipOff k) 11 0

/-- R100, R134: the chunk pips, or the pips of the wait set. -/
def descPips (k : EngKind) (d : BitVec 1024) : List Nat :=
  if descPipMode k d = 0 then [] else (upTo (descPipCount k d)).map (fun c => descPipBase k d + c)

/-- PRE_PIP, where it is part of the wait set. -/
def descPrePip (k : EngKind) (d : BitVec 1024) : List Nat :=
  match k with
  | .tbl => if df d 104 48 48 = 1 then [df d 104 43 32] else []
  | _ => []

/-- R100: the whole wait set. -/
def waitSet (k : EngKind) (d : BitVec 1024) : List Nat := descPrePip k d ++ descPips k d

/-- R90, R101: the pips that must be up before arithmetic begins: of a working descriptor in PIP_MODE 2 only PRE_PIP. -/
def startSet (k : EngKind) (d : BitVec 1024) : List Nat :=
  if k = .tbl ∧ descOp d ≠ 0 ∧ descPipMode k d = 2 then descPrePip k d else waitSet k d

/-- R134, R163: the pip conditions of the kinds other than Tableau. -/
def pipsOk (k : EngKind) (d : BitVec 1024) : Bool :=
  let n := descPipCount k d
  (if descPipMode k d = 0 then n == 0 else decide (1 ≤ n) && decide (n ≤ 64)) && decide (descPipBase k d + n ≤ 4096)

/-- Is a pip of the head's wait set up, or has it been observed at 1 since the descriptor's release (R101, R103; log entry 29)? -/
def State.risen (s : State) (k : EngKind) (i pip : Nat) : Bool :=
  s.pipUp (engineSuit k i) pip || (s.engine k i).head.seen.contains pip

/-! ### What the head waits for -/

/-- The descriptor at the head. -/
def Engine.headDesc (e : Engine) : BitVec 1024 :=
  match e.fifo with
  | [] => 0
  | x :: _ => x.sub.desc

/-- R101: every pip that must rise before arithmetic begins has been observed at 1. The spec does not say whether they must be up at one
moment; the model takes each on its own (DEDUCED from 'has been observed', log entry 29). -/
def State.pipsMet (s : State) (k : EngKind) (i : Nat) : Bool := (startSet k (s.engine k i).headDesc).all (s.risen k i)

/-- The head waits for a pip: before its start, or in PIP_MODE 2 between chunks (R101). -/
def State.waitsPip (s : State) (k : EngKind) (i : Nat) : Bool :=
  let e := s.engine k i
  let d := e.headDesc
  (e.head.phase == .waitPips && !(s.pipsMet k i)) ||
    (e.head.phase == .running && k == .tbl && descPipMode k d == 2 && decide (e.head.run.chunks.length < descPipCount k d) &&
      (upTo (descPipCount k d)).all (fun c => e.head.run.chunks.contains c || !(s.pipUp (engineSuit k i) (descPipBase k d + c))))

/-- R454: one of the waits that a cycle of the head belongs to: a pip that has not risen, the release, ring space, a duty slot. -/
def State.waited (s : State) (k : EngKind) (i n : Nat) (w : Waits) : Waits :=
  let e := s.engine k i
  if e.head.phase = .waitRelease then { w with release := w.release + n }
  else if s.waitsPip k i then { w with pip := w.pip + n }
  else if e.head.held then { w with ring := w.ring + n }
  else if (e.head.phase = .waitPips ∨ e.head.phase = .running) ∧ descOp e.headDesc ≠ 0 ∧ !s.pwr.slotOn then { w with duty := w.duty + n }
  else w

/-- R454: `n` cycles pass for the heads of the engines. -/
def State.countWaits (n : Nat) (s : State) : State :=
  let busy (e : Engine) : Bool := e.head.phase != .idle
  if !(s.eng.tbl.any busy || s.eng.atm.any busy || s.eng.sol.any busy || s.eng.shf.any busy) then s
  else
    let one (k : EngKind) (i : Nat) (e : Engine) : Engine :=
      if busy e then { e with head := { e.head with waits := s.waited k i n e.head.waits } } else e
    s.onEng (fun x => { x with
      tbl := Vector.ofFn (fun i => one .tbl i x.tbl[i]), atm := Vector.ofFn (fun i => one .atm i x.atm[i])
      sol := Vector.ofFn (fun i => one .sol i x.sol[i]), shf := Vector.ofFn (fun i => one .shf i x.shf[i]) })

end Sys2Proof.Machine
end

