-- ==== Sys2Proof/Machine/TrkPlan.lean ====
section
/-!
DEFINITION. TrkPlan.lean: what a Trick program fixes before any chunk moves (R315-R317, R323, R332): its fields, the groups, the shares of
each level, the chunks a member sends and receives, and the wire forms of R326 and R330.
-/
namespace Sys2Proof.Machine

open Sys2Proof

/-! ### The program image (R317) -/

/-- A Deck entry. -/
structure TrkDeck where
  inAddr : Nat
  outAddr : Nat
  suits : Nat
  pipBase : Nat
  deriving DecidableEq, Repr

/-- A level entry. -/
structure TrkLevel where
  alg : Nat
  fanout : Nat
  chunk : Nat
  stageAddr : Nat
  stageBytes : Nat
  deriving DecidableEq, Repr

/-- KIND. -/
def tKind (m : List Byte) : Nat := leAt m 0 1
/-- OP. -/
def tOp (m : List Byte) : Nat := field (leAt m 1 1) 7 6
/-- RMODE. -/
def tRmode (m : List Byte) : Nat := field (leAt m 1 1) 3 2
/-- DETOUR. -/
def tDetour (m : List Byte) : Bool := (leAt m 1 1).testBit 1
/-- CPIP_EN. -/
def tCpip (m : List Byte) : Bool := (leAt m 1 1).testBit 0
/-- FMT_IN. -/
def tFmtIn (m : List Byte) : Option Fmt := fmtOfCode (leAt m 2 1 % 32)
/-- FMT_OUT. -/
def tFmtOut (m : List Byte) : Option Fmt := fmtOfCode (leAt m 3 1 % 32)
/-- DECK_MASK. -/
def tMask (m : List Byte) : Nat := leAt m 4 1 % 16
/-- SILENT_CD; 0 means 16. -/
def tSilent (m : List Byte) : Nat := let n := leAt m 5 1; if n = 0 then 16 else n
/-- RANK_STRIDE. -/
def tStride (m : List Byte) : Nat := leAt m 6 2
/-- RANK_BASE. -/
def tBase (m : List Byte) : Nat := leAt m 8 4
/-- NRANKS. -/
def tRanks (m : List Byte) : Nat := leAt m 12 4
/-- COUNT. -/
def tCount (m : List Byte) : Nat := leAt m 16 8
/-- ROOT. -/
def tRoot (m : List Byte) : Nat := leAt m 24 4
/-- STREAM. -/
def tStream (m : List Byte) : Nat := leAt m 28 4
/-- LAND. -/
def tLand (m : List Byte) : Nat := leAt m 32 4
/-- SEG_BYTES. -/
def tSeg (m : List Byte) : Nat := leAt m 36 4
/-- OUT_STRIDE. -/
def tStrideOut (m : List Byte) : Nat := leAt m 40 8
/-- DETOUR_AC. -/
def tDetourAc (m : List Byte) : Nat := leAt m 48 2
/-- DONE_SUIT. -/
def tDoneSuit (m : List Byte) : Nat := field (leAt m 50 2) 15 12
/-- DONE_PIP. -/
def tDonePip (m : List Byte) : Nat := leAt m 50 2 % 4096

/-- Deck entry `d`. -/
def tDeck (m : List Byte) (d : Nat) : TrkDeck :=
  let o := 64 + 32 * d
  ⟨leAt m o 8, leAt m (o + 8) 8, field (leAt m (o + 16) 2) 15 12, leAt m (o + 16) 2 % 4096⟩

/-- Level entry `l`. -/
def tLevel (m : List Byte) (l : Nat) : TrkLevel :=
  let o := 192 + 32 * l
  ⟨leAt m o 1, leAt m (o + 1) 1, leAt m (o + 4) 4, leAt m (o + 8) 8, leAt m (o + 16) 4⟩

/-- The Decks of DECK_MASK. -/
def tDecks (m : List Byte) : List Nat := onesOf 4 (tMask m)

/-- The lowest Deck of DECK_MASK. -/
def tDeck0 (m : List Byte) : Nat := (tDecks m).headD 0

/-- A reduce kind? -/
def tReduce (m : List Byte) : Bool := decide (tKind m ≤ 3)

/-- A kind whose landing unit is a contribution (R335)? -/
def tPerK (m : List Byte) : Bool := tKind m == 0x11 || tKind m == 0x14 || tKind m == 0x15

/-- Bytes of an input element. -/
def tInBytes (m : List Byte) : Nat := ((tFmtIn m).getD .b64).bits / 8
/-- Bytes of an output element. -/
def tOutBytes (m : List Byte) : Nat := ((tFmtOut m).getD .b64).bits / 8

/-- Is FMT_IN binary64 (the FP64 class of R325, R326)? -/
def tWide (m : List Byte) : Bool := tFmtIn m == some .b64

/-- W and G (R325). -/
def tWindow (m : List Byte) : Window := if tWide m then winTrick64 else winTrick32

/-- S of R323: elements of an output part. -/
def tPart (m : List Byte) : Nat := tCount m / max (tRanks m) 1

/-- The elements of the reduction in the output of member position `me` (R323). -/
def tOwnOut (m : List Byte) (me : Nat) : Nat × Nat :=
  match tKind m with
  | 1 => (0, tCount m)
  | 2 => (me * tPart m, me * tPart m + tPart m)
  | _ => if me = tRoot m then (0, tCount m) else (0, 0)

/-- R335: landing units of one member's output. -/
def tUnits (m : List Byte) : Nat :=
  if tPerK m then tRanks m
  else
    let n := if tKind m = 2 then tPart m else tCount m
    ceilDiv n (max (tLand m) 1)

/-! ### Groups (R316) -/

/-- A number for a node. -/
def Node.num (n : Node) : Nat := n.rack.toNat * 64 + n.pslot.toNat

/-- R387, R316: the tray of a node: an aligned block of eight slots of a rack. -/
def Node.tray (n : Node) : Nat := n.num / 8

/-- Put a position into the group of its key. -/
def groupPut (key : Nat) (p : Nat) : List (Nat × List Nat) → List (Nat × List Nat)
  | [] => [(key, [p])]
  | (k, ps) :: r => if k = key then (k, ps ++ [p]) :: r else (k, ps) :: groupPut key p r

/-- Positions in groups by key, in order of their leads. -/
def groupsOf (key : Nat → Nat) (ps : List Nat) : List (List Nat) := (ps.foldl (fun g p => groupPut (key p) p g) []).map (·.2)

/-- The node of a member position. -/
def memberNode (ms : List TrkMember) (p : Nat) : Node := (ms[p]?).elim ⟨0, 0⟩ (·.node)

/-- R316: the tray groups. -/
def trayGroups (ms : List TrkMember) : List (List Nat) := groupsOf (fun p => (memberNode ms p).tray) (upTo ms.length)

/-- R316: the tray groups of each rack. -/
def rackGroups (ms : List TrkMember) : List (List (List Nat)) :=
  let ts := trayGroups ms
  (groupsOf (fun i => (memberNode ms ((ts.getD i []).headD 0)).rack.toNat) (upTo ts.length)).map (fun is => is.map (fun i => ts.getD i []))

/-- Every group size at a level. -/
def levelSizes (m : List Byte) (ms : List TrkMember) (l : Nat) : List Nat :=
  match l with
  | 0 => [(tDecks m).length]
  | 1 => (trayGroups ms).map List.length
  | 2 => (rackGroups ms).map List.length
  | _ => [(rackGroups ms).length]

/-! ### Shares (R332) -/

/-- A share at a level: the elements [lo, hi) of one Deck's share, moved among these member positions, in order of group position. -/
structure Share where
  deck : Nat
  lo : Nat
  hi : Nat
  parts : List Nat
  deriving DecidableEq, Repr

/-- Part `p` of a range cut into `g`. -/
def cutPart (lo hi g p : Nat) : Nat × Nat :=
  let w := ceilDiv (hi - lo) (max g 1)
  (min hi (lo + p * w), min hi (lo + p * w + w))

/-- R332: who holds the complete sum of a share after its level: position 0 under TREE, each participant its part otherwise. -/
def Share.after (alg : Nat) (x : Share) : List Share :=
  if alg = 4 then [{ x with parts := x.parts.take 1 }]
  else (List.zip (upTo x.parts.length) x.parts).map (fun ip =>
    let c := cutPart x.lo x.hi x.parts.length ip.1
    { x with lo := c.1, hi := c.2, parts := [ip.2] })

/-- Insert into a rising list. -/
def insertRise (x : Nat) : List Nat → List Nat
  | [] => [x]
  | y :: r => if x < y then x :: y :: r else if x = y then y :: r else y :: insertRise x r

/-- R14: each two of a list. -/
def pairsAll : List Nat → List (Nat × Nat)
  | [] => []
  | a :: r => r.map (fun b => (a, b)) ++ pairsAll r

/-- Consecutive pairs. -/
def pairsOf : List Nat → List (Nat × Nat)
  | a :: b :: r => (a, b) :: pairsOf (b :: r)
  | _ => []

/-- R315: the shares of the next level: for each stretch of a Deck's elements that one member of every group below holds, those holders, in
increasing rank (R316). -/
def joinShares (decks : List Nat) (groups : List (List Share)) : List Share :=
  (decks.map (fun d =>
    let xs := groups.map (fun g => g.filter (fun x => x.deck = d))
    let cuts := xs.foldl (fun acc g => g.foldl (fun acc x => if x.lo < x.hi then insertRise x.lo (insertRise x.hi acc) else acc) acc) []
    (pairsOf cuts).filterMap (fun ab =>
      let holders := xs.filterMap (fun g => (g.find? (fun x => x.lo ≤ ab.1 ∧ ab.2 ≤ x.hi)).map (fun x => x.parts.headD 0))
      if holders.isEmpty then none else some ⟨d, ab.1, ab.2, holders.foldl (fun ps p => insertRise p ps) []⟩))).flatten

/-- The Deck shares that enter L1 (R332 at L0). -/
def deckShares (m : List Byte) (parts : List Nat) : List Share :=
  ((⟨0, 0, tCount m, tDecks m⟩ : Share).after (tLevel m 0).alg).map (fun x => ⟨x.parts.headD 0, x.lo, x.hi, parts⟩)

/-- The shares of each level 1 to 3, and the final holders. -/
def allShares (m : List Byte) (ms : List TrkMember) : List (Nat × List Share) × List Share :=
  let racks := rackGroups ms
  let s1 := racks.map (fun trays => trays.map (deckShares m))
  let o1 := s1.map (fun trays => trays.map (fun xs => (xs.map (Share.after (tLevel m 1).alg)).flatten))
  let s2 := o1.map (joinShares (tDecks m))
  let o2 := s2.map (fun xs => (xs.map (Share.after (tLevel m 2).alg)).flatten)
  let s3 := joinShares (tDecks m) o2
  ([(1, (s1.map List.flatten).flatten), (2, s2.flatten), (3, s3)], (s3.map (Share.after (tLevel m 3).alg)).flatten)

/-! ### Steps and chunks (R332) -/

/-- A transfer of a share at a level. -/
structure Xfer where
  dist : Bool
  step : Nat
  src : Nat
  dst : Nat
  lo : Nat
  hi : Nat
  deriving DecidableEq, Repr

/-- Depth of a position in a tree of a fan-out (`fuel` levels at most). -/
def treeDepth (f : Nat) : Nat → Nat → Nat
  | 0, _ => 0
  | n + 1, p => if p = 0 then 0 else treeDepth f n ((p - 1) / max f 1) + 1

/-- The range of `n` parts from part `p`. -/
def partsRange (x : Share) (p n : Nat) : Nat × Nat := ((cutPart x.lo x.hi x.parts.length p).1, (cutPart x.lo x.hi x.parts.length (p + n - 1)).2)

/-- R332: the transfers of a share, by positions in its group. -/
def xfersAt (alg fanout : Nat) (x : Share) : List Xfer :=
  let g := x.parts.length
  let one (dist : Bool) (step p q : Nat) (r : Nat × Nat) : Xfer := ⟨dist, step, p, q, r.1, r.2⟩
  if g < 2 then []
  else match alg with
    | 1 =>
      ((upTo (g - 1)).map (fun st => (upTo g).map (fun p => one false st p ((p + 1) % g) (partsRange x ((p + 2 * g - 1 - st) % g) 1)))).flatten ++
      ((upTo (g - 1)).map (fun st => (upTo g).map (fun p => one true (g - 1 + st) p ((p + 1) % g) (partsRange x ((p + g - st) % g) 1)))).flatten
    | 2 =>
      let n := g.log2
      ((upTo n).map (fun k =>
        let d := g / 2 ^ (k + 1)
        (upTo g).map (fun p => let q := p ^^^ d; one false k p q (partsRange x (q / d * d) d)))).flatten ++
      ((upTo n).map (fun k =>
        let d := 2 ^ k
        (upTo g).map (fun p => one true (n + k) p (p ^^^ d) (partsRange x (p / d * d) d)))).flatten
    | 3 =>
      ((upTo g).map (fun p => ((upTo g).filter (fun q => q ≠ p)).map (fun q => one false 0 p q (partsRange x q 1)))).flatten ++
      ((upTo g).map (fun p => ((upTo g).filter (fun q => q ≠ p)).map (fun q => one true 1 p q (partsRange x p 1)))).flatten
    | 4 =>
      let depth (p : Nat) : Nat := treeDepth fanout g p
      let top := depth (g - 1)
      let par (p : Nat) : Nat := (p - 1) / max fanout 1
      ((upTo g).drop 1).map (fun p => one false (top - depth p) p (par p) (x.lo, x.hi)) ++
      ((upTo g).drop 1).map (fun p => one true (top + depth (par p)) (par p) p (x.lo, x.hi))
    | _ => []

/-- The transfers of a share, by member positions. -/
def Share.xfers (alg fanout : Nat) (x : Share) : List Xfer :=
  (xfersAt alg fanout x).map (fun t => { t with src := x.parts.getD t.src 0, dst := x.parts.getD t.dst 0 })

/-- Cut [lo, hi) after every `chunk` elements and at every multiple of `part` (0: none); `fuel` pieces at most. -/
def cutRange (chunk part : Nat) : Nat → Nat → Nat → List (Nat × Nat)
  | 0, _, _ => []
  | n + 1, lo, hi =>
    if lo ≥ hi then []
    else
      let a := min hi (lo + max chunk 1)
      let b := if part = 0 then a else min a (lo / part * part + part)
      (lo, b) :: cutRange chunk part n b hi

/-- Number the chunks of each stream from 0. -/
def numberChunks (cs : List TrkChunk) : List TrkChunk :=
  cs.foldl (fun acc c => acc ++ [{ c with idx :=
    (acc.filter (fun x => x.level = c.level ∧ x.dist = c.dist ∧ x.deck = c.deck ∧ x.step = c.step ∧ x.src = c.src ∧ x.dst = c.dst)).length }]) []

/-- R332: the chunks that member `me` sends and receives for a reduce kind. Those of REDUCE_SCATTER end at the ends of the outputs, so that the
flags that one carries (R328) belong to one output. -/
def reducePlan (m : List Byte) (ms : List TrkMember) (me : Nat) : List TrkChunk :=
  numberChunks (((allShares m ms).1.map (fun lx =>
    let lv := tLevel m lx.1
    (lx.2.map (fun x =>
      ((x.xfers lv.alg lv.fanout).filter (fun t => t.src = me ∨ t.dst = me)).map (fun t =>
        (cutRange lv.chunk (if tKind m = 2 then tPart m else 0) (t.hi - t.lo) t.lo t.hi).map (fun r =>
          (⟨lx.1, t.dist, 0, none, x.deck, t.step, t.src, t.dst, 0, r.1, r.2⟩ : TrkChunk))))).flatten.flatten)).flatten)

/-- R328: the elements that member `me` rounds. -/
def reduceOwned (m : List Byte) (ms : List TrkMember) (me : Nat) : List (Nat × Nat) :=
  ((allShares m ms).2.filter (fun x => x.parts.headD 0 = me ∧ x.lo < x.hi)).map (fun x => (x.lo, x.hi))

/-- R323: does member `k` contribute to the output of member `j` of a move kind? -/
def moves (m : List Byte) (k j : Nat) : Bool :=
  match tKind m with
  | 0x11 | 0x15 => true
  | 0x12 | 0x13 => k == tRoot m
  | 0x14 => j == tRoot m
  | _ => false

/-- The level at which two member positions meet. -/
def pairLevel (ms : List TrkMember) (k j : Nat) : Nat :=
  let a := memberNode ms k
  let b := memberNode ms j
  if a.rack ≠ b.rack then 3 else if a.pslot.toNat / 8 = b.pslot.toNat / 8 then 1 else 2

/-- A position in a tree and those above it, up to position 0 (`fuel` of them at most). -/
def treeLine (f : Nat) : Nat → Nat → List Nat
  | 0, _ => []
  | n + 1, p => if p = 0 then [0] else p :: treeLine f n ((p - 1) / max f 1)

/-- R332: the positions by which move data passes within a group of `g`, from position `a`, which is left out, to `b`, under an algorithm. -/
def groupPath (alg fanout g a b : Nat) : List Nat :=
  match alg with
  | 1 => (upTo ((b + g - a) % max g 1)).map (fun i => (a + i + 1) % g)
  | 2 => ((upTo g.log2).foldl (fun (acc : List Nat × Nat) k =>
      let next := acc.2 ^^^ 2 ^ k
      if (acc.2 ^^^ b).testBit k then (acc.1 ++ [next], next) else acc) ([], a)).1
  | 4 =>
    let up := treeLine fanout g a
    let down := treeLine fanout g b
    ((up.takeWhile (fun x => !down.contains x)) ++ (up.find? down.contains).toList ++
      (down.takeWhile (fun x => !up.contains x)).reverse).drop 1
  | _ => if a = b then [] else [b]

/-- A pass of move data from one member to another. -/
structure Hop where
  level : Nat
  step : Nat
  src : Nat
  dst : Nat
  deriving DecidableEq, Repr

/-- R332: the step of a level's algorithm in which a pass from position `a` to `b` of a group of `g` stands, the `i`-th of its way: the distance
of a RHALV pass, the depth of a TREE pass, the order of the others. -/
def hopStep (alg fanout g i a b : Nat) : Nat :=
  match alg with
  | 2 => (a ^^^ b).log2
  | 4 =>
    let top := treeDepth fanout g (g - 1)
    if b < a then top - treeDepth fanout g a else top + treeDepth fanout g a
  | _ => i

/-- R332: the steps that an algorithm's distribute pattern has for a group of `g`. -/
def moveSteps (alg g : Nat) : Nat :=
  match alg with
  | 1 => g - 1
  | 2 => g.log2
  | _ => 1

/-- R332: the passes within a group of a level from member `x` to `y`; the converse goes the way from `y` to `x` backward, its last step
first. -/
def levelHops (m : List Byte) (l : Nat) (converse : Bool) (ps : List Nat) (x y : Nat) : List Hop :=
  let pos (p : Nat) : Nat := ((upTo ps.length).find? (fun i => ps.getD i 0 = p)).getD 0
  let lv := tLevel m l
  let line (a b : Nat) : List Nat := (pos a :: groupPath lv.alg lv.fanout ps.length (pos a) (pos b)).map (fun i => ps.getD i 0)
  let ws := if converse then (line y x).reverse else line x y
  let n := ps.length
  let step (i a b : Nat) : Nat :=
    if converse ∧ lv.alg ≠ 4 then moveSteps lv.alg n - 1 - hopStep lv.alg lv.fanout n (ws.length - 2 - i) (pos b) (pos a)
    else hopStep lv.alg lv.fanout n i (pos a) (pos b)
  (List.zip (upTo ws.length) (List.zip ws (ws.drop 1))).map (fun i => ⟨l, step i.1 i.2.1 i.2.2, i.2.1, i.2.2⟩)

/-- R315, R332: the passes from member `x` to `y`: within the tray, or by the leads of their trays and racks. -/
def moveHops (m : List Byte) (ms : List TrkMember) (converse : Bool) (x y : Nat) : List Hop :=
  let racks := rackGroups ms
  let rackOf (p : Nat) : List (List Nat) := (racks.find? (fun ts => ts.any (fun t => t.contains p))).getD []
  let trayOf (p : Nat) : List Nat := ((rackOf p).find? (fun t => t.contains p)).getD []
  let lead (p : Nat) : Nat := (trayOf p).headD 0
  let leads (p : Nat) : List Nat := (rackOf p).map (fun t => t.headD 0)
  let top (p : Nat) : Nat := (leads p).headD 0
  let go (l : Nat) (ps : List Nat) (a b : Nat) : List Hop := levelHops m l converse ps a b
  if trayOf x = trayOf y then go 1 (trayOf x) x y
  else
    let between :=
      if rackOf x = rackOf y then go 2 (leads x) (lead x) (lead y)
      else go 2 (leads x) (lead x) (top x) ++ go 3 (racks.map (fun ts => (ts.headD []).headD 0)) (top x) (top y) ++ go 2 (leads y) (top y) (lead y)
    go 1 (trayOf x) x (lead x) ++ between ++ go 1 (trayOf y) (lead y) y

/-- R332: the chunks that member `me` sends and receives for a move kind: each contribution passes from its member to each that takes it;
one that several take passes each way once. -/
def movePlan (m : List Byte) (ms : List TrkMember) (me : Nat) : List TrkChunk :=
  let n := ms.length
  let all := ((upTo n).map (fun k => (((upTo n).filter (fun j => j ≠ k && moves m k j)).map (fun j =>
    (moveHops m ms (tKind m == 0x14) k j).map (fun h => (k, if tKind m = 0x11 ∨ tKind m = 0x12 then none else some j, h)))).flatten)).flatten
  let once := (all.filter (fun x => x.2.2.src = me ∨ x.2.2.dst = me)).foldl (fun acc x => if acc.contains x then acc else acc ++ [x]) []
  numberChunks ((once.map (fun x =>
    (cutRange (tLevel m x.2.2.level).chunk 0 (tCount m) 0 (tCount m)).map (fun r =>
      (⟨x.2.2.level, true, x.1, x.2.1, tDeck0 m, x.2.2.step, x.2.2.src, x.2.2.dst, 0, r.1, r.2⟩ : TrkChunk)))).flatten)

/-- R323: does member `me` take a chunk of a move kind into its output, or only pass it on? -/
def TrkChunk.takenBy (me : Nat) (x : TrkChunk) : Bool := x.taker.all (fun j => j == me)

/-- R332: the transfers between the Decks of a node at L0. -/
def deckXfers (m : List Byte) (dist : Bool) : List Xfer :=
  let lv := tLevel m 0
  let all := ((⟨0, 0, tCount m, tDecks m⟩ : Share).xfers lv.alg lv.fanout).filter (fun t => t.dist == dist)
  ((upTo 16).map (fun st => all.filter (fun t => t.step = st))).flatten

/-! ### Wire forms (R326, R327, R330) -/

/-- Limbs of a sum-form integer. -/
def sumLimbs (wide : Bool) : Nat := if wide then 4 else 2

/-- R326: bytes of a sum-form record. -/
def sumBytes (wide : Bool) : Nat := if wide then 40 else 20

/-- R327: the residue of a limb. -/
def residue (x : Nat) : Nat := x % 255

/-- SP. -/
def Special.code : Special → Nat
  | .finite => 0
  | .pinf => 1
  | .ninf => 2
  | .nan => 3

/-- R326: a sum-form record. -/
def sumRecord (wide : Bool) (x : ASum) : List Byte :=
  let k := sumLimbs wide
  let v := ofSigned (64 * k) x.s
  leBytes (8 * k) v ++ (upTo k).map (fun i => BitVec.ofNat 8 (residue (v / 2 ^ (64 * i) % 2 ^ 64))) ++
  leBytes 1 (x.sp.code + 4 * bit01 (decide (x.n > 0)) + 8 * bit01 x.negOnly + 16 * bit01 x.wl) ++
  leBytes (if wide then 3 else 1) 0

/-- R326, R327: a record read back; none where a residue does not match its limb. -/
def sumOf (wide : Bool) (bs : List Byte) : Option ASum :=
  let k := sumLimbs wide
  let v := leAt bs 0 (8 * k)
  if (upTo k).all (fun i => leAt bs (8 * k + i) 1 == residue (v / 2 ^ (64 * i) % 2 ^ 64)) then
    let f := leAt bs (9 * k) 1
    let sp : Special := match f % 4 with
      | 0 => .finite
      | 1 => .pinf
      | 2 => .ninf
      | _ => .nan
    some { s := toSigned (if wide then 224 else 128) v, sp, n := bit01 (f.testBit 2), negOnly := f.testBit 3, wl := f.testBit 4 }
  else none

/-- R327: the limbs of a sum of two integers of `k` limbs satisfy the residue identity. -/
def limbsGood (k a b : Nat) : Bool :=
  (upTo k).all (fun i =>
    let w := 2 ^ (64 * i)
    let carry := (a % w + b % w) / w
    let x := a / w % 2 ^ 64
    let y := b / w % 2 ^ 64
    let t := x + y + carry
    (residue x + residue y + carry) % 255 == (residue (t % 2 ^ 64) + t / 2 ^ 64) % 255)

/-- R330: bytes with their CRC-64. -/
def withCrc (bs : List Byte) : List Byte := bs ++ leBytes 8 (crc64 bs)

/-- R330: the bytes before a CRC-64 that matches them. -/
def crcBody (bs : List Byte) : Option (List Byte) :=
  let n := bs.length - 8
  let body := bs.take n
  if bs.length ≥ 8 ∧ leAt bs n 8 = crc64 body then some body else none

/-! ### What a member may do next -/

/-- The elements of an anchor group, a block (R325). -/
def anchorGroup : Nat := 16384
/-- Elements of a block. -/
def anchorBlock : Nat := 256

/-- Number of anchor groups. -/
def Collective.groups (c : Collective) : Nat := ceilDiv (tCount c.image) anchorGroup

/-- Is this a SUM? -/
def Collective.isSum (c : Collective) : Bool := tReduce c.image && tOp c.image == 0

/-- Do two ranges meet? -/
def meets (a b x y : Nat) : Bool := decide (a < y) && decide (x < b)

/-- The reduce chunks still to come that carry elements of a range, before a level and step. -/
def Collective.missing (c : Collective) (lo hi level step : Nat) : List TrkChunk :=
  c.plan.filter (fun x => x.dst = c.me && !x.dist && meets x.lo x.hi lo hi && (decide (x.level < level) || (x.level == level && decide (x.step < step))) &&
    !c.got.contains x)

/-- R325: has the integer pass of every block of a range started? -/
def Collective.formedRange (c : Collective) (lo hi : Nat) : Bool :=
  !c.isSum || (upTo (ceilDiv hi anchorGroup - lo / anchorGroup)).all (fun i => c.formed.contains (lo / anchorGroup + i))

/-- Are the rounded elements of a range all here? -/
def Collective.roundedRange (c : Collective) (lo hi : Nat) : Bool := ((c.rounded.drop lo).take (hi - lo)).all Option.isSome && decide (hi ≤ c.rounded.length)

/-- R332: a chunk is complete at this member, which sends it. -/
def Collective.chunkReady (c : Collective) (x : TrkChunk) : Bool :=
  if !(tReduce c.image) then
    x.con == c.me || c.plan.all (fun y => !(y.dst = c.me && y.con = x.con && y.taker = x.taker && meets y.lo y.hi x.lo x.hi) || c.got.contains y)
  else if x.dist then c.roundedRange x.lo x.hi
  else c.formedRange x.lo x.hi && (c.missing x.lo x.hi x.level x.step).isEmpty

/-- Is a chunk the next of its stream: have those before it been sent? -/
def Collective.chunkNext (c : Collective) (x : TrkChunk) : Bool :=
  c.plan.all (fun y => !(y.level = x.level && y.dist = x.dist && y.deck = x.deck && y.step = x.step && y.src = x.src && y.dst = x.dst && y.idx < x.idx) ||
    c.sent.contains y)

/-- The chunks that this member could send, given credit. -/
def Collective.sendable (c : Collective) : List TrkChunk :=
  if c.phase ≠ .running then []
  else c.plan.filter (fun x => x.src = c.me && !c.sent.contains x && c.chunkNext x && c.chunkReady x)

/-- Credits held for a level toward a position. -/
def Collective.credit (c : Collective) (level pos : Nat) : Nat :=
  (c.credits.find? (fun x => x.1 = level ∧ x.2.1 = pos)).elim 0 (·.2.2)

/-- R336: does a stage wait for credits? -/
def Collective.saturated (c : Collective) : Bool := c.sendable.any (fun x => c.credit x.level x.dst == 0)

end Sys2Proof.Machine
end

