-- ==== Sys2Proof/Machine/ScoreOps.lean ====
section
/-!
DEFINITION. ScoreOps.lean: what the Scorecard does in a cycle (R447-R455): condition values, gates, counts, sample records.
Events whose value per cycle depends on durations that the model leaves out are free values (log entry 6).
-/
namespace Sys2Proof.Machine

open Sys2Proof

/-- The counters and registers of a unit. -/
def Score.inst (x : Score) : ScoUnit → ScoInst
  | .tbl i => x.tbl[i]
  | .atm i => x.atm[i]
  | .sol i => x.sol[i]
  | .shf i => x.shf[i]
  | .dlr i => x.dlr[i]
  | .mem i => x.mem[i]
  | .fdie => x.fdie

/-- Change the counters and registers of a unit. -/
def Score.onInst (u : ScoUnit) (f : ScoInst → ScoInst) (x : Score) : Score :=
  match u with
  | .tbl i => { x with tbl := vmod x.tbl i f }
  | .atm i => { x with atm := vmod x.atm i f }
  | .sol i => { x with sol := vmod x.sol i f }
  | .shf i => { x with shf := vmod x.shf i f }
  | .dlr i => { x with dlr := vmod x.dlr i f }
  | .mem i => { x with mem := vmod x.mem i f }
  | .fdie => { x with fdie := f x.fdie }

/-- R447: counters of an instance. -/
def ScoUnit.counters : ScoUnit → Nat
  | .dlr _ => 6
  | .fdie => 16
  | _ => 8

/-- A number for a unit. -/
def ScoUnit.num : ScoUnit → Nat
  | .tbl i => i
  | .atm i => 64 + i
  | .sol i => 128 + i
  | .shf i => 144 + i
  | .dlr i => 160 + i
  | .mem i => 352 + i
  | .fdie => 368

/-- The counted unit of an engine. -/
def scoEngine (k : EngKind) (i : Nat) : ScoUnit :=
  match k with
  | .tbl => .tbl (Fin.ofNat 64 i)
  | .atm => .atm (Fin.ofNat 64 i)
  | .sol => .sol (Fin.ofNat 16 i)
  | .shf => .shf (Fin.ofNat 16 i)

/-- Occurrences in the present cycle; port 32 sums all ports. -/
def pulseCount (ps : List Pulse) (u : ScoUnit) (event port : Nat) : Nat :=
  ps.foldl (fun n p => if p.unit = u ∧ p.event = event ∧ (port = 32 ∨ p.port = port) then n + p.n else n) 0

/-- R450: occurrences of an event of which at most so many fall in one cycle. -/
def ratedCount (ps : List Pulse) (u : ScoUnit) (event : Nat) : Nat :=
  (ps.find? (fun p => p.unit = u && p.event == event)).elim 0 (fun p => min p.n p.cap)

/-- What remains of the events of a cycle for the next one. -/
def laterPulses : List (ScoUnit × Nat) → List Pulse → List Pulse
  | _, [] => []
  | seen, p :: r =>
    if p.cap = 0 then laterPulses seen r
    else if seen.contains (p.unit, p.event) then p :: laterPulses seen r
    else if p.n ≤ p.cap then laterPulses ((p.unit, p.event) :: seen) r
    else { p with n := p.n - p.cap } :: laterPulses ((p.unit, p.event) :: seen) r

/-- R450: the value of an event in a cycle; none for an event that is not listed for the unit's kind. `ps` are the events of
the cycle, `cyc` numbers it. -/
def eventValue (s : State) (ps : List Pulse) (cyc : Nat) (u : ScoUnit) (ev sub : Nat) : Option Nat :=
  let p := pulseCount ps u ev 32
  let act := Config.activity ev u.num cyc
  let eng (k : EngKind) (i : Nat) : Option Nat :=
    match ev with
    | 0x0105 => some (s.engine k i).fifo.length
    | 0x0106 => some p
    | _ => none
  if ev = 0 then some 1
  else match u with
    | .tbl i =>
      match ev with
      | 0x0101 => some (ratedCount ps u ev)
      | 0x0102 | 0x0104 => some (act % 2)
      | 0x0103 => some (bit01 (s.waitsPip .tbl i && decide ((s.engine .tbl i).head.firstEffect ≤ s.now)))
      | _ => eng .tbl i
    | .atm i =>
      match ev with
      | 0x0201 | 0x0202 | 0x0203 => some (act % 2)
      | _ => eng .atm i
    | .sol i =>
      match ev with
      | 0x0301 | 0x0302 => some (act % 2)
      | 0x0303 | 0x0304 => some p
      | _ => eng .sol i
    | .shf i =>
      match ev with
      | 0x0401 => some (ratedCount ps u ev)
      | _ => eng .shf i
    | .dlr c =>
      match ev with
      | 0x0501 => some (ratedCount ps u ev)
      | 0x0502 => some (act % 2)
      | 0x0503 => some (match (s.core c).stall with | some (.load ..) | some (.vec ..) => 1 | _ => act % 2)
      | 0x0504 => some act
      | 0x0505 => some (bit01 ((s.core c).stall == some .submit))
      | 0x0506 => some (bit01 (match (s.core c).stall with | some (.fence _ _) => true | _ => false))
      | _ => none
    | .mem k =>
      match ev with
      | 0x0701 | 0x0702 | 0x0706 => some act
      | 0x0703 => some p
      | 0x0704 => some (act % 1024)
      | 0x0705 => some (bit01 ((s.ctl k).retraining != 0))
      | _ => none
    | .fdie =>
      match ev with
      | 0x0601 | 0x0602 | 0x0604 | 0x0605 | 0x0606 => some p
      | 0x0603 => some s.outstandingWrites
      | 0x0607 => some (bit01 (s.trk.running.any Collective.saturated))
      | 0x0608 | 0x0609 => some (pulseCount ps u ev sub)
      | _ => none

/-- R451: is the gate of an instance open now? -/
def ScoInst.gateOpen (x : ScoInst) (count phase : Nat) : Bool :=
  let c := x.startCd.toNat
  let a := x.pStart.toNat
  let b := x.pEnd.toNat
  (x.lenCd == 0 || (decide (c ≤ count) && decide (count < c + x.lenCd.toNat))) &&
  (if a < b then decide (a ≤ phase) && decide (phase < b)
   else if a > b then decide (a ≤ phase) || decide (phase < b)
   else true)

/-- R448: the condition value. -/
def condition (ctl : ScoCtl) (v : Nat) : Nat :=
  match ctl.cmp.toNat with
  | 0 => v
  | 1 => bit01 (decide (v > ctl.thresh.toNat))
  | 2 => bit01 (decide (v ≥ ctl.thresh.toNat))
  | _ => 0

/-- R458: SCO_CTL after a write; BAD_EVENT is cleared by a 1. -/
def ScoCtl.write (v : Nat) (c : ScoCtl) : ScoCtl where
  thresh := BitVec.ofNat 16 (field v 63 48)
  cmp := BitVec.ofNat 2 (field v 47 46)
  edge := v.testBit 45
  gated := v.testBit 44
  enable := v.testBit 43
  badEvent := c.badEvent && !v.testBit 42
  sub := BitVec.ofNat 6 (field v 37 32)
  event := BitVec.ofNat 16 (field v 15 0)

/-- R448-R450: one counter in one cycle. -/
def ScoCounter.cycle (gate : Bool) (ev : Option Nat) (k : ScoCounter) : ScoCounter :=
  let c := k.ctl
  let on := c.enable && (!c.gated || gate)
  let v := if on then ev.elim 0 (condition c) else 0
  let add := if c.edge then bit01 (v != 0 && !k.prev) else v
  let sum := k.count.toNat + add
  let bad := c.enable && (ev.isNone || c.cmp == 3)
  let c := { c with badEvent := c.badEvent || bad }
  { k with
    ctl := k.next.elim c (fun w => c.write w.toNat)
    next := none
    count := k.written.getD (BitVec.ofNat 48 sum)
    ovf := k.ovf || (k.written.isNone && decide (sum ≥ 2 ^ 48))
    prev := v != 0
    written := none }

/-- One cycle of a unit's clock. -/
def State.scoreUnit (ps : List Pulse) (cyc : Nat) (u : ScoUnit) (s : State) : State :=
  let x := s.sco.inst u
  let gate := x.gateOpen s.cad.count.toNat s.cad.phase
  s.onSco (fun sc => sc.onInst u (fun x => { x with
    counters := x.counters.map (fun k =>
      k.cycle gate (eventValue s ps cyc u k.ctl.event.toNat k.ctl.sub.toNat)) }))

/-- R453: the bytes of a sample record. -/
def Sample.bytes (r : Sample) : List Byte :=
  leBytes 1 r.block ++ [r.cause] ++ leBytes 2 r.instance_ ++ leBytes 4 r.latency.toNat ++ leBytes 8 r.id.toNat ++
  leBytes 8 r.stamp.toNat ++ leBytes 8 r.detail.toNat

/-- R453: insert a record in the order of BLOCK, then INSTANCE. -/
def sampleInsert (r : Sample) : List Sample → List Sample
  | [] => [r]
  | x :: xs =>
    if r.block < x.block ∨ (r.block = x.block ∧ r.instance_ < x.instance_) then r :: x :: xs else x :: sampleInsert r xs

/-- R455: write one record into its ring, or count it dropped. -/
def State.writeSample (s : State) (r : Sample) : State :=
  let tail := s.sco.sbTail[r.buf]
  let head := s.sco.sbHead[r.buf]
  if (tail - head).toNat = 2048 then s.onSco (fun x => { x with sbDrop := vmod x.sbDrop r.buf (fun d => satAdd d 1) })
  else
    let s := s.writeMem (0x0106_0000_0000 + 0x0001_0000 * r.buf + 32 * (tail.toNat % 2048)) r.bytes
    s.onSco (fun x => { x with sbTail := vmod x.sbTail r.buf (fun t => t + 1) })

/-- R453: the records of the cycle that ends are written. -/
def State.flushSamples (s : State) : State :=
  let rs := s.sco.samples.foldl (fun xs r => sampleInsert r xs) []
  if rs.isEmpty then s else rs.foldl State.writeSample (s.onSco (fun x => { x with samples := [] }))

/-- The clock ratio of a unit's counters (R447). -/
def ScoUnit.ratio : ScoUnit → Nat
  | .dlr _ => 3
  | _ => 1

/-- Repeat an operation. -/
def iter {α : Type} (f : α → α) : Nat → α → α
  | 0, x => x
  | n + 1, x => iter f n (f x)

/-- The Scorecard in one ac: counts, and the sample records of the cycle. -/
def State.scoreCycle (s : State) : State :=
  let s := s.flushSamples
  if s.sco.watched.isEmpty then s
  else
    let ps := s.sco.pulses
    let t := s.now
    let s := s.sco.watched.foldl (fun s u =>
      (upTo u.ratio).foldl (fun s i => s.scoreUnit (iter (laterPulses []) i ps) (t * u.ratio + i) u) s) s
    s.onSco (fun x => { x with pulses := (laterPulses [] ps).filter (fun p => p.unit.ratio = 1) ++
      (iter (laterPulses []) 3 ps).filter (fun p => p.unit.ratio = 3) })

/-- R453: the buffer of a unit. -/
def sampleBuf : ScoUnit → Fin 5
  | .tbl i => Fin.ofNat 5 (i / 16)
  | .atm i => Fin.ofNat 5 (i / 16)
  | .sol i => Fin.ofNat 5 (i / 4)
  | .shf i => Fin.ofNat 5 (i / 4)
  | .dlr i => if i.val < 64 then Fin.ofNat 5 (i / 16) else 4
  | _ => 4

/-- R453: BLOCK and INSTANCE of a unit. -/
def sampleWho : ScoUnit → Nat × Nat
  | .tbl i => (1, i)
  | .atm i => (2, i)
  | .sol i => (3, i)
  | .shf i => (5, i)
  | .dlr i => (6, i)
  | _ => (0, 0)

/-- R454: the wait that took the most cycles, the lowest code winning a tie; 0 where none took any. -/
def mostWait (ws : List (Nat × Nat)) : Nat := (ws.foldl (fun (best : Nat × Nat) w => if w.2 > best.2 then w else best) (0, 0)).1

/-- R452-R454: a completion of a unit; every Nth is tagged. -/
def State.completion (u : ScoUnit) (id detail latency cause : Nat) (s : State) : State :=
  let x := s.sco.inst u
  if x.period = 0 then s
  else
    let s := s.onSco (fun sc => sc.onInst u (fun x => { x with done := x.done + 1 }))
    if (x.done + 1) % x.period.toNat = 0 then
      let who := sampleWho u
      s.onSco (fun sc => { sc with samples := sc.samples ++
        [{ buf := sampleBuf u, block := who.1, instance_ := who.2, cause := BitVec.ofNat 8 cause,
           latency := BitVec.ofNat 32 (satTo (2 ^ 32 - 1) latency), id := BitVec.ofNat 64 id, stamp := s.stamp, detail := BitVec.ofNat 64 detail }] })
    else s

/-! ### Resets and substitutions (R457) -/

/-- R457: every SCO_ register of a unit is at its reset value. -/
def Score.resetUnit (u : ScoUnit) (x : Score) : Score :=
  { x.onInst u (fun _ => ScoInst.reset u.counters) with
    watched := x.watched.filter (fun y => y ≠ u), pulses := x.pulses.filter (fun p => p.unit ≠ u) }

/-- R457: a spare takes over a unit's index: SCO_CTL, the gate and SCO_SAMPLE stand; the counts restart from 0, with LOST set. -/
def Score.substitute (u : ScoUnit) (x : Score) : Score :=
  x.onInst u (fun y => { y with
    done := 0, counters := y.counters.map (fun k => { k with count := 0, lost := true, ovf := false, prev := false, written := none }) })

/-- Where sample buffer `b` stands (R476). -/
def sbufBase (b : Nat) : Nat := 0x0106_0000_0000 + 0x0001_0000 * b

/-- R457: a sample buffer is zeroed, its registers are at their reset values, and no record waits for it. -/
def State.zeroSamples (b : Nat) (s : State) : State :=
  let inBuf (key : Nat) : Bool := decide (sbufBase b ≤ key) && decide (key < sbufBase b + 0x0001_0000)
  let s := s.onSco (fun x => { x with
    sbHead := vput x.sbHead b 0, sbTail := vput x.sbTail b 0, sbDrop := vput x.sbDrop b 0
    samples := x.samples.filter (fun r => r.buf.val ≠ b) })
  s.onMem (fun m => { m with
    cells := m.cells.filter (fun c => !(inBuf c.1)), poison := m.poison.filter (fun l => !(inBuf (l * 64))) })

/-- R430, R482: does the image name a unit? The F-die is named by none. -/
def Uses.names (us : Uses) : ScoUnit → Bool
  | .tbl i => us.tbl.getLsbD i
  | .atm i => us.atm.getLsbD i
  | .sol i => us.sol.getLsbD i
  | .shf i => us.shf.getLsbD i
  | .dlr i => us.dlr.getLsbD i
  | .mem i => us.mem.getLsbD i
  | .fdie => false

/-- R447: every counted unit. -/
def allScoUnits : List ScoUnit :=
  (List.finRange 64).map .tbl ++ (List.finRange 64).map .atm ++ (List.finRange 16).map .sol ++ (List.finRange 16).map .shf ++
  (List.finRange 192).map .dlr ++ (List.finRange 16).map .mem ++ [.fdie]

/-- R458: does a unit sample? -/
def ScoUnit.samples : ScoUnit → Bool
  | .mem _ | .fdie => false
  | _ => true

/-- R457: the units that an image names are reset, with the F-die, and their sample buffers zeroed. -/
def State.scoreJob (us : Uses) (s : State) : State :=
  let units := allScoUnits.filter us.names
  let s := s.onSco (fun x => (.fdie :: units).foldl (fun x u => x.resetUnit u) x)
  let bufs := (units.filter ScoUnit.samples).map (fun u => (sampleBuf u).val)
  (upTo 5).foldl (fun s b => if bufs.contains b then s.zeroSamples b else s) s

end Sys2Proof.Machine
end

