-- ==== Sys2Proof/Machine/Cadence.lean ====
section
/-!
DEFINITION. Cadence.lean: time and the cadence unit (R21-R36, R44, R45): source validity, failover, free-run, what follows the alignment
handshake, the test set of bring-up (R403), releases; and what one tick does.
-/
namespace Sys2Proof.Machine

open Sys2Proof

/-! ### Registers and events -/

/-- R44, R45: set bits of CAD_EVENTS; each that becomes 1 raises the error vector. -/
def State.cadEvent (bits : Nat) (s : State) : State :=
  let new := BitVec.ofNat 6 bits &&& ~~~s.cad.events
  let s := s.onCad (fun c => { c with events := c.events ||| BitVec.ofNat 6 bits })
  (onesOf 6 new.toNat).foldl (fun s _ => s.raiseIrq 16) s

/-- Is the node locked on a source? -/
def CadState.locked : CadState → Bool
  | .lockedPrimary | .lockedSecondary | .lockedElectrical => true
  | _ => false

/-- R44: STATE codes. -/
def CadState.code : CadState → Nat
  | .acquiring => 0
  | .aligning => 1
  | .lockedPrimary => 2
  | .lockedSecondary => 3
  | .lockedElectrical => 4
  | .freeRun => 5

/-- R25: the selected source: the primary port, or CAD_IN; none under forced free-run. -/
def Cadence.selected (c : Cadence) : Option (Fin 33) :=
  match c.src.toNat with
  | 0 => some (Fin.ofNat 33 c.primary.toNat)
  | 1 => some 32
  | _ => none

/-- The secondary port as a source. -/
def Cadence.secondarySrc (c : Cadence) : Fin 33 := Fin.ofNat 33 c.secondary.toNat

/-- The locked state that a source gives. -/
def Cadence.lockOn (c : Cadence) (src : Fin 33) : CadState :=
  if c.selected = some src then (if src = 32 then .lockedElectrical else .lockedPrimary)
  else .lockedSecondary

/-- R25: is a source eligible in free-run? -/
def Cadence.eligible (c : Cadence) (src : Fin 33) : Bool :=
  c.src.toNat != 2 && (c.selected == some src || (c.secEnable && src == c.secondarySrc))

/-- Is a source valid? -/
def Cadence.valid (c : Cadence) (src : Fin 33) : Bool := c.sources[src].valid

/-- R25: a failover is possible. -/
def Cadence.canFailover (c : Cadence) : Bool :=
  (c.st == .lockedPrimary || c.st == .lockedElectrical) && c.secEnable && c.valid c.secondarySrc && c.secondarySrc != c.active

/-- The one-way delay of a source: measured for an optical port, none for CAD_IN (R24, R263). -/
def State.srcDelay (s : State) (src : Fin 33) : Nat := if h : src.val < 32 then (s.fab.ports[src.val]'h).delay.toNat else 0

/-! ### Time -/

/-- R25, R28: enter free-run. -/
def State.enterFreeRun (s : State) : State :=
  let s := (s.onCad (fun c => { c with st := .freeRun, jumpFrom := none })).cadEvent 4
  s.record { cls := .corrected, block := .cad, code := 2 }

/-- R26, R44: what happens at a phase 0 beside the count's advance: intervals of free-run, and slewing by at most 3 ac. -/
def Cadence.interval (c : Cadence) : Cadence := { c with
  freerunCd := if c.st = .freeRun then satAdd c.freerunCd 1 else c.freerunCd
  slew := if c.slew > 2 then max (c.slew - 3) 0 else if c.slew < -2 then min (c.slew + 3) 0 else 0 }

/-- The counter's advance by one ac (R5, R26); in ACQUIRING no count runs yet. -/
def Cadence.tick (c : Cadence) : Cadence :=
  let c := { c with refAc := c.refAc + 1 }
  if c.st = .acquiring then c
  else if c.phase + 1 < 60000 then { c with phase := c.phase + 1 }
  else ({ c with phase := 0, count := c.count + 1 }).interval

/-- R44: one arithmetic cycle passes: the counter, the Dealer cycle counters (3 dc an ac, R21) and the Scorecard. -/
def State.tick (s : State) : State :=
  let s := s.scoreCycle.onHbm (fun h => { h with raised := [] })
  { s with cad := s.cad.tick, cores := s.cores.map (fun c => { c with cycle := c.cycle + 3 }) }

/-- `n` cycles at once, where no counter of the Scorecard runs. -/
def State.skip (n : Nat) (s : State) : State :=
  let s := s.flushSamples.onHbm (fun h => { h with raised := [] })
  { s with
    cad := { s.cad with refAc := s.cad.refAc + n, phase := s.cad.phase + n }
    cores := s.cores.map (fun c => { c with cycle := c.cycle + BitVec.ofNat 64 (3 * n) }) }

/-- The rest of the interval passes, up to the next phase 0 (R26). -/
def State.toPhase0 (s : State) : State :=
  let n := 60000 - s.cad.phase
  if s.sco.watched.isEmpty then ((s.skip (n - 1))).tick else iter State.tick n s

/-! ### Duty slots (R467, R469) -/

/-- R467: slot `x` is enabled in a profile: in Air 33 of 60. -/
def slotInProfile (profile : BitVec 2) (x : Nat) : Bool := if profile = 0 then decide (33 * (x + 1) / 60 > 33 * x / 60) else true

/-- R469: slot `x` is enabled and not among the L highest of the profile's enabled slots. -/
def Power.slotEnabled (p : Power) (x : Nat) : Bool :=
  slotInProfile p.profile x && decide (((upTo 60).filter (fun y => slotInProfile p.profile y && decide (y > x))).length ≥ p.level)

/-- R467: the present slot. -/
def State.dutyStep (s : State) : State := s.onPwr (fun p => { p with slotOn := p.slotEnabled (s.cad.phase / 1000) })

/-! ### Markers (R24, R25) -/

/-- The count that the node's own counter gives a marker arriving now from a source, and its phase error. -/
def State.expected (s : State) (src : Fin 33) : Count × Int :=
  let t : Int := (s.now : Int) - s.srcDelay src
  let c : Int := (t + 30000) / 60000
  (BitVec.ofInt 48 c, t - 60000 * c)

/-- R44: PHASE_ERR saturates. -/
def satPhase (e : Int) : Int := max (-32767) (min 32767 e)

/-- R24: an accepted marker in a source's tracker. The node's own count plays no part in a source's becoming valid. -/
def CadSource.accept (x : CadSource) (count : Count) (t : Nat) (watch : Bool) (own : Count) : CadSource :=
  let onTime := x.seen && decide (count = x.lastCount + 1) && decide (t + 2 ≥ x.lastAt + 60000) && decide (t ≤ x.lastAt + 60002)
  let run := if onTime then x.run + 1 else 1
  let differ := if watch && x.valid && count != own then x.differ + 1 else 0
  { valid := (x.valid || decide (run ≥ 16)) && decide (differ < 3)
    run := if differ < 3 then run else 0
    seen := true
    lastCount := count
    lastAt := t
    differ := if differ < 3 then differ else 0 }

/-- R25: the active source is no longer valid. -/
def State.activeLost (s : State) : State :=
  let s := s.cadEvent 1
  if s.cad.canFailover then s else s.enterFreeRun

/-- R29: the alignment goes on from the counter's own phase 0, since its source was lost before marker M came (log entry 17). -/
def Cadence.alignOwn (c : Cadence) : Cadence := { c with alignFree := true, markerM := some (c.count + 1) }

/-- R29: an alignment on a source that waits for its marker M. -/
def Cadence.awaitsM (c : Cadence) : Bool := c.st == .aligning && !c.alignFree && c.markerM.isNone

/-- A source has just stopped being valid (R24, R25). -/
def State.sourceLost (src : Fin 33) (s : State) : State :=
  if s.cad.st.locked then
    if s.cad.active = src then s.activeLost
    else if src = s.cad.secondarySrc ∧ !s.cad.valid s.cad.active then s.enterFreeRun
    else s
  else if s.cad.awaitsM ∧ s.cad.active = src then s.onCad Cadence.alignOwn
  else s.onCad (fun c => { c with jumpFrom := c.jumpFrom.filter (fun j => j != src) })

/-- R25, R44: lock on a source. -/
def State.lockTo (src : Fin 33) (s : State) : State :=
  s.onCad (fun c => { c with st := c.lockOn src, active := src, selPending := false, jumpFrom := none })

/-- R27: the actions waiting at the heads whose release has been passed over release at once, with RELEASE_LATE. -/
def Head.passOver (s : State) (rel lag : Nat) (h : Head) : Head :=
  if h.phase = .waitRelease ∧ rel ≠ relOnArrival ∧ relTime rel < s.now then
    { h with phase := .waitPips, late := true, firstEffect := s.now + lag }
  else h

/-- The RELEASE field of an engine's descriptor (R87, R134, R161, R197). -/
def descRelease (k : EngKind) (d : BitVec 1024) : Nat :=
  match k with
  | .tbl | .sol => df d 96 63 0
  | .atm => df d 48 63 0
  | .shf => df d 80 63 0

/-- The release of the descriptor at an engine's head. -/
def Engine.headRelease (k : EngKind) (e : Engine) : Nat :=
  match e.fifo with
  | [] => relOnArrival
  | x :: _ => descRelease k x.sub.desc

/-- R394: with the yield map read, step 6 begins when acquisition ends. -/
def State.stepSix (s : State) : State := s.onBoot (fun b => { b with stage := if b.stage = 4 then 6 else b.stage })

/-- R25, R29: the counter is loaded from a source's marker. -/
def State.loadCount (src : Fin 33) (count : Count) (s : State) : State :=
  let t := count.toNat * 60000 + s.srcDelay src
  (s.onCad (fun c => { c with count := BitVec.ofNat 48 (t / 60000), phase := t % 60000 })).dutyStep

/-- R25: the selected source has become valid: the count is loaded, and the alignment waits for the first marker after, which is M (R29). -/
def State.loadFrom (src : Fin 33) (count : Count) (s : State) : State :=
  ((s.loadCount src count).onCad (fun c => { c with
    st := .aligning, active := src, alignFree := false, attempts := 0, markerM := none })).stepSix

/-- R29 step 2: marker M has arrived: the counter is loaded from it. -/
def State.markerArrives (src : Fin 33) (count : Count) (s : State) : State :=
  (s.loadCount src count).onCad (fun c => { c with markerM := some count })

/-- SOURCE_INVALID (R24): three intervals without an accepted marker. -/
def execSourceInvalid (src : Fin 33) (s : State) : Host.Outcome State Fault Refusal :=
  inService s (onlyIf (s.cad.valid src && decide (s.cad.refAc ≥ s.cad.sources[src].lastAt + 180000)) (fun s =>
    (s.onCad (fun c => { c with sources := vmod c.sources src (fun x => { x with valid := false, run := 0, differ := 0 }) })).sourceLost src))

/-- ACQUIRE_TIMEOUT (R25): 2 s after reset release without a valid source, the node aligns in free-run with its count at 0. -/
def execAcquireTimeout (s : State) : Host.Outcome State Fault Refusal :=
  inService s (onlyIf (s.cad.st == .acquiring && s.cad.sources.toList.all (fun x => !x.valid) && decide (s.cad.refAc ≥ 1_200_000_000))
    (fun s => (s.onCad (fun c => { c with
      st := .aligning, count := 0, phase := 0, alignFree := true, attempts := 0, markerM := some 0 })).dutyStep.stepSix))

/-- FORCED_FREE_RUN (R44): with SRC at 2 the node enters FREE_RUN at its phase 0. -/
def execForcedFreeRun (s : State) : Host.Outcome State Fault Refusal :=
  inService s (onlyIf (s.cad.st.locked && s.cad.src == 2 && s.cad.phase == 0) State.enterFreeRun)

/-! ### The alignment handshake (R29, R30, R394, R405) -/

/-- R403: the signature of the test set verifies under a chain from the fused root. -/
def TestSet.good (x : TestSet) : Bool :=
  let signer := Config.signerOf x.cert
  Config.chainOk x.cert signer && Config.verify signer (shake256 32 (x.bytes ++ x.cert)) x.sig

/-- R401-R403: step 7: the stacks that are present and the ports whose role is not OFF have to train; the test set is streamed from the flash
and verified. -/
def State.startTraining (s : State) : State :=
  s.onBoot (fun b => { b with
    stage := 7
    testSet := s.flash.testSet
    setGood := s.flash.testSet.good
    stacksLeft := (upTo 16).filter (fun k => vget s.inv.hbmc k .absent != .absent)
    portsLeft := ((List.finRange 32).filter (fun p => s.fab.ports[p].role != 0 && !(s.pwr.detached.getLsbD (p.val / 8)))).map (·.val) })

/-- R394: training ends when nothing is left to train; the known answers follow. -/
def State.trainingDone (s : State) : State :=
  if s.boot.stage = 7 ∧ s.boot.stacksLeft.isEmpty ∧ s.boot.portsLeft.isEmpty then
    (s.onHbm (fun h => { h with trainedOnce := true })).onBoot (fun b => { b with stage := 8 })
  else s

/-- R394: bring-up goes on to training when the firmware is verified and the crossings are aligned. -/
def State.bootAdvance (s : State) : State :=
  if s.boot.stage = 6 ∧ s.cad.aligned then s.startTraining.trainingDone else s

/-- R372: a Package reset that does not come back fails its containment, beyond which the fault is Uncontained. -/
def State.packageFailed (s : State) : State :=
  if s.boot.scopeReset.isNone then s
  else (s.record { cls := .uncontained, block := .flt, scope := 4, code := 0x0108, detail := 4 }).onFlt (fun f => { f with fenced := true })

/-- R405, R414: bring-up ends FAILED. -/
def State.bootFail (code : Nat) (s : State) : State :=
  s.packageFailed.onBoot (fun b => { b with
    stage := 0xF, failCode := BitVec.ofNat 16 code
    frozenMs := some (BitVec.ofNat 16 (satTo 65535 (s.cad.refAc / 600000))) })

/-- R29 step 5: the handshake has completed. The node is LOCKED on the source that loaded its count, whatever has been selected since
(R44); where that source has stopped being valid meanwhile, it is left at once (R25). -/
def State.aligned (s : State) : State :=
  let free := s.cad.alignFree
  let s := s.onCad (fun c => { c with
    aligned := true, markerM := none, st := if free then c.st else if c.active = 32 then .lockedElectrical else .lockedPrimary })
  (if free then s.enterFreeRun else if s.cad.valid s.cad.active then s else s.activeLost).bootAdvance

/-! ### CAD_CTRL (R44) -/

/-- R44: the value of CAD_CTRL in the register's layout. -/
def Cadence.ctrl (c : Cadence) : Nat :=
  c.secondary.toNat * 2 ^ 16 + c.primary.toNat * 2 ^ 8 + c.src.toNat * 2 ^ 4 + bit01 c.secEnable

/-- R44: the unit after a write of CAD_CTRL. A change of PRIMARY or SRC waits for the new source, which may be the port on which the node is
LOCKED as its secondary; a change of SECONDARY leaves the node on the port on which it is LOCKED (log entry 17). -/
def Cadence.setCtrl (v : W64) (c : Cadence) : Cadence :=
  let src := BitVec.ofNat 2 (field v.toNat 5 4)
  let c' := { c with
    secondary := BitVec.ofNat 5 (field v.toNat 20 16), primary := BitVec.ofNat 5 (field v.toNat 12 8)
    src := if src = 3 then c.src else src, secEnable := v.getLsbD 0 }
  let asRole := c'.selected == some c'.active && c'.st != .lockedSecondary
  { c' with
    selPending := (c'.st.locked || c'.st == .aligning) && c'.selected.isSome && !asRole && (c'.selPending || c'.selected != c.selected)
    jumpFrom := c'.jumpFrom.filter c'.eligible }

/-- R25, R44: a write of CAD_CTRL. A node that waits for its secondary and may no longer fail over to it is in free-run. -/
def State.writeCadCtrl (v : W64) (s : State) : State :=
  let s := s.onCad (Cadence.setCtrl v)
  if s.cad.st.locked && !s.cad.valid s.cad.active && !s.cad.canFailover then s.enterFreeRun else s

/-- CAD_CTRL_WRITE (R44): Banker firmware writes CAD_CTRL. -/
def execCadCtrlWrite (v : W64) (s : State) : Host.Outcome State Fault Refusal := inService s (State.writeCadCtrl v)

/-! ### Releases (R33, R35) -/

/-- R322, R346: collectives that have started and run. -/
def Trick.started (t : Trick) : Nat := (t.running.filter (fun c => c.phase == .released || c.phase == .running)).length

/-- R322, R346: may the head of the queue start? -/
def Trick.mayStart (t : Trick) : Bool := t.runBit && decide (t.started < 8)

/-- R33: the package counter reaches the release of the action at a head. -/
def State.release (ref : ActionRef) (s : State) : State :=
  match ref with
  | .eng k i =>
    let e := s.engine k i
    if e.head.phase = .waitRelease ∧ e.runBit ∧ relReached s (e.headRelease k) then
      s.onHead k i (fun h => { h with phase := .waitPips, firstEffect := relTime (e.headRelease k) + 4 })
    else s
  | .trick =>
    s.onTrk (fun t => { t with running := t.running.map (fun c =>
      if c.phase = .waitRelease ∧ relReached s c.release.toNat then
        if t.mayStart then { c with phase := .released, firstEffect := relTime c.release.toNat + 16 } else { c with phase := .blocked }
      else c) })
  | .decant =>
    match s.ckp.phase, s.ckp.cur with
    | .waitRelease, some r =>
      if relReached s r.release.toNat then
        s.onCkp (fun k => { k with phase := .released, firstEffect := relTime r.release.toNat + 32 })
      else s
    | _, _ => s

end Sys2Proof.Machine
end

