-- ==== Sys2Proof/Machine/Engine.lean ====
section
/-!
DEFINITION. Engine.lean: what the four kinds of engine share (R90-R117, R156, R157, R163, R186, R198, R199): descriptor
fields, acceptance, the head of the FIFO, the pip wait, completion records and the ring, and the address and overlap checks
(R95, R432, R483).
-/
namespace Sys2Proof.Machine

open Sys2Proof

/-! ### Dealer retirement (used by SUBMIT) -/

/-- R231: an instruction boundary: a core whose RUN is 0 and that does not run on to a safepoint halts. -/
def Core.boundary (x : Core) : Core := if !x.runBit && x.haltingSince.isNone then { x with halted := true } else x

/-- An instruction of a core retires: the pc moves on, and the Scorecard counts it (R450, R452). `detail` is the address of the
first element that a memory instruction accessed. -/
def State.retire (c : Fin 192) (next : BitVec 64) (s : State) (detail : Nat := 0) : State :=
  let pc := (s.core c).pc
  let s := s.onCore c (fun x => ({ x with pc := next, faulted := false }).boundary)
  let w := s.sco.stalls.find? (fun x => x.core = c && x.pc == pc)
  let dc := w.elim 0 (fun x => 3 * (s.now - x.since))
  let s := s.onSco (fun x => { x with stalls := x.stalls.filter (fun y => y.core ≠ c) })
  (s.pulseRate (.dlr c) 0x0501 1 2).completion (.dlr c) pc.toNat detail dc (if dc = 0 then 0 else w.elim 0 (fun x => x.code))

/-- The instruction at the pc retires, and the next one follows. -/
def State.retire4 (c : Fin 192) (s : State) (detail : Nat := 0) : State := s.retire c ((s.core c).pc + 4) detail

/-! ### Statuses (R110) and error bits -/

/-- OK. -/
def stOk : Nat := 0
/-- DESC_OP. -/
def stOp : Nat := 1
/-- DESC_FORMAT. -/
def stFormat : Nat := 2
/-- DESC_ALIGN. -/
def stAlign : Nat := 3
/-- DESC_DIM. -/
def stDim : Nat := 4
/-- DESC_ADDR. -/
def stAddr : Nat := 5
/-- DESC_RELEASE. -/
def stRelease : Nat := 6
/-- ANCHOR_SUMMARY. -/
def stSummary : Nat := 0x10
/-- PIP_TIMEOUT. -/
def stPipTimeout : Nat := 0x11
/-- POISON. -/
def stPoison : Nat := 0x12
/-- RESET. -/
def stReset : Nat := 0x13

/-- The block of a kind. -/
def EngKind.block : EngKind → Block
  | .tbl => .tbl
  | .atm => .atm
  | .sol => .sol
  | .shf => .shf

/-- R117: set bits of an engine's ERR register, with their records. -/
def State.engErr (k : EngKind) (i bits : Nat) (s : State) : State :=
  let old := (s.engine k i).err.toNat
  (s.onEngine k i (fun e => { e with err := e.err ||| BitVec.ofNat 6 bits })).errRecords k.block i old bits

/-! ### Attached regions (R432) -/

/-- Is the extent inside [base, base + len)? -/
def inside (a n base len : Nat) : Bool := decide (base ≤ a) && decide (a + n ≤ base + len)

/-- Does the image name a unit of Suit `i`? -/
def Uses.suit (u : Uses) (i : Nat) : Bool :=
  field u.tbl.toNat (4 * i + 3) (4 * i) != 0 || field u.atm.toNat (4 * i + 3) (4 * i) != 0 ||
  field u.dlr.toNat (4 * i + 3) (4 * i) != 0 || u.sol.getLsbD i || u.shf.getLsbD i

/-- Do regions that adjoin or overlap cover [a, hi)? `fuel` is their number. -/
def coveredBy (rs : List Region) : Nat → Nat → Nat → Bool
  | 0, _, _ => false
  | k + 1, a, hi =>
    match rs.find? (fun r => decide (r.base ≤ a) && decide (a < r.base + r.len)) with
    | none => false
    | some r => decide (hi ≤ r.base + r.len) || coveredBy rs k (r.base + r.len) hi

/-- Does every byte of an extent lie in some attached region? -/
def Job.covers (j : Job) (a n : Nat) : Bool := n == 0 || coveredBy j.regions j.regions.length a (a + n)

/-- R432: the extent lies in the attached regions of the job; with no job attached the rule does not apply. -/
def State.attachedExtent (s : State) (a n : Nat) : Bool :=
  if !s.job.attached then true
  else match s.storeOfExtent a n with
    | some .hbm => s.job.covers a n
    | some (.suit i) => s.job.uses.suit i || s.job.covers a n
    | some (.pip i) => s.job.uses.suit i
    | some (.organ g) | some (.acc g) => s.job.uses.tbl.getLsbD g
    | some (.tile g) => s.job.uses.atm.getLsbD g
    | some (.sbuf _) => true
    | none => false

/-- An extent in HBM or a Suit buffer, in the job's attached regions (R156, R163, R198, R432). -/
def State.sharedExtent (s : State) (a n : Nat) : Bool :=
  (match s.storeOfExtent a n with
    | some k => k.shared
    | none => false) && s.attachedExtent a n

/-- Do two extents overlap? -/
def overlaps (x y : Nat × Nat) : Bool := decide (0 < x.2) && decide (0 < y.2) && decide (x.1 < y.1 + y.2) && decide (y.1 < x.1 + x.2)

/-- Does any extent of the first list overlap any of the second? -/
def anyOverlap (xs ys : List (Nat × Nat)) : Bool := xs.any (fun x => ys.any (fun y => overlaps x y))

/-- Does any two of a list overlap? -/
def selfOverlap : List (Nat × Nat) → Bool
  | [] => false
  | x :: xs => xs.any (fun y => overlaps x y) || selfOverlap xs

/-- R483: check and read a block named for reading at acceptance, where `ok` says that its extent stands in a permitted place: its
bytes, or the status that the read gives. -/
def State.readBlock (s : State) (ok : Bool) (a n : Nat) : Except Nat (List Byte) :=
  if a % 64 ≠ 0 then .error stAlign
  else if !ok then .error stAddr
  else if s.poisonedIn a n then .error stPoison
  else .ok (s.readMem a n)

/-- The first condition that fails gives the status (R91: in table order). -/
def firstFail : List (Bool × Nat) → Nat
  | [] => stOk
  | (bad, st) :: r => if bad then st else firstFail r

/-! ### Acceptance (R93, R94) -/

/-- What acceptance found: status, blocks read, and whether a block was poisoned (R483). -/
structure Accepted where
  status : Nat
  image : List Byte := []
  stab : List Byte := []
  deriving DecidableEq, Repr

/-- The SUBMIT that a core waits on completes (R228). -/
def State.submitDone (core : Option (Fin 192)) (s : State) : State :=
  match core with
  | none => s
  | some c => (s.onCore c (fun x => { x with stall := none })).retire4 c

/-- A descriptor that waits at the port enters the FIFO, with what its acceptance found. -/
def State.accept (k : EngKind) (i : Nat) (check : State → Submission → Accepted) (s : State) : State :=
  let e := s.engine k i
  match e.port with
  | [] => s
  | sub :: rest =>
    if e.fifo.length ≥ 64 ∨ s.engInReset k i then s
    else
      let a := check s sub
      let s := s.onEngine k i (fun e => { e with
        port := rest
        fifo := e.fifo ++ [{ sub, image := a.image, stab := a.stab, status := BitVec.ofNat 16 a.status, seq := e.seq, at_ := s.now }]
        seq := e.seq + 1 })
      let s := if a.status = stPoison then s.engErr k i 1 else s
      s.submitDone sub.core

/-! ### Completion (R109-R112) -/

/-- R112: the ring is full. -/
def Cq.full (q : Cq) : Bool := (q.tail - q.head).toNat == 2 ^ q.sizeLog2.toNat

/-- R112: where the next record stands. -/
def Cq.slot (q : Cq) : Nat := q.base.toNat + 32 * (q.tail.toNat % 2 ^ q.sizeLog2.toNat)

/-- R112: a write of CQ_HEAD; ignored when it would make TAIL − HEAD larger than the ring. -/
def Cq.writeHead (q : Cq) (v : Nat) : Cq :=
  let h : BitVec 32 := BitVec.ofNat 32 v
  if (q.tail - h).toNat > 2 ^ q.sizeLog2.toNat then q else { q with head := h }

/-- R63, R64: the bits of FFLAGS that sticky flags set (R216). -/
def AFlags.bits (f : AFlags) : Nat :=
  bit01 f.inexact + 2 * bit01 f.windowLoss + 4 * bit01 f.flushed + 8 * bit01 f.resultOvf + 16 * bit01 f.anchorExceeded

/-- R109: the low byte of the flags at offset 6. -/
def recordFlags (k : EngKind) (e : Engine) : Nat :=
  let h := e.head
  AFlags.bits h.flags % 16 + 16 * bit01 h.late +
    (match k with
      | .tbl => 32 * bit01 e.onSpare
      | .atm => 32 * bit01 e.onSpare + 64 * bit01 h.empty
      | .sol => 0
      | .shf => 32 * bit01 h.truncCap + 64 * bit01 h.empty)

/-- R109, R157, R186, R199: a completion record. -/
def completionRecord (k : EngKind) (e : Engine) (x : Entry) (now : BitVec 64) : List Byte :=
  leBytes 4 (descTag k x.sub.desc) ++ leBytes 2 e.head.status.toNat ++ leBytes 2 (recordFlags k e) ++
  leBytes 8 (e.head.start.getD now).toNat ++ leBytes 8 now.toNat ++ leBytes 4 x.seq.toNat ++
  leBytes 4 (if k = .sol then e.head.run.fallbacks else 0)

/-- R109: the record is written, the flags are ORed, DONE_PIP is raised; the FIFO moves on. A record that has no ring memory to
stand in is not written anywhere. -/
def State.writeCompletion (k : EngKind) (i : Nat) (s : State) : State :=
  let e := s.engine k i
  match e.fifo with
  | [] => s
  | x :: rest =>
    if e.cq.full then s.onHead k i (fun h => { h with held := true })
    else
      let s := if s.storeOfExtent e.cq.slot 32 = some .hbm ∨ (s.storeOfExtent e.cq.slot 32).any Store.shared
        then s.writeMem e.cq.slot (completionRecord k e x s.stamp) else s
      let ok := e.head.status == 0
      let s := match x.sub.core with
        | some c => if ok then s.onCore c (fun y => { y with fflags := y.fflags ||| BitVec.ofNat 64 e.head.flags.bits }) else s
        | none => s
      let s := if ok && descCpip k x.sub.desc then s.raisePip (engineSuit k i) (descDonePip k x.sub.desc) else s
      let s := s.onEngine k i (fun y => { y with fifo := rest, head := Head.idle, cq := { y.cq with tail := y.cq.tail + 1 } })
      let u := scoEngine k i
      let w := e.head.waits
      (s.pulse u 0x0106 1).completion u (x.seq.toNat * 2 ^ 32 + descTag k x.sub.desc) e.head.status.toNat (s.now - x.at_)
        (mostWait [(1, e.head.since - x.at_), (2, w.release), (3, w.pip), (5, w.ring), (6, w.duty)])

/-- The head's descriptor ends with a status: its record follows, at once or when the ring has space. -/
def State.finish (k : EngKind) (i status : Nat) (s : State) : State :=
  let s := s.onHead k i (fun h => { h with
    phase := .finished, status := BitVec.ofNat 16 status, since := if h.phase = .idle then s.now else h.since
    flags := if status = stOk then h.flags else {}, empty := h.empty && status = stOk, truncCap := h.truncCap && status = stOk })
  s.writeCompletion k i

/-- R111: the head's descriptor meets poison. -/
def State.finishPoison (k : EngKind) (i : Nat) (s : State) : State := (s.engErr k i 1).finish k i stPoison

/-- R186: every problem of the running Solitaire descriptor that is not committed writes only its status record, with RESET. -/
def State.solRest (i : Nat) (s : State) : State :=
  let e := s.engine .sol i
  match e.fifo with
  | [] => s
  | x :: _ =>
    let n := df x.sub.desc 4 15 0
    let base := df x.sub.desc 48 63 0
    ((upTo n).drop e.head.run.committed).foldl (fun s p => s.writeMem (base + 16 * p) (leBytes 16 8)) s

/-- R111: the descriptors at the front of the FIFO whose status is RESET complete (`fuel` of them at most), until the ring is full. -/
def State.drainReset (k : EngKind) (i : Nat) : Nat → State → State
  | 0, s => s
  | n + 1, s =>
    match (s.engine k i).fifo with
    | [] => s
    | x :: _ =>
      if x.status.toNat ≠ stReset then s
      else
        let s := s.finish k i stReset
        if (s.engine k i).head.held then s else drainReset k i n s

/-- R111, R186: every descriptor of an engine completes with RESET, in FIFO order; a full ring holds the rest. -/
def State.resetEngine (k : EngKind) (i : Nat) (s : State) : State :=
  let s := if k = .sol ∧ (s.engine k i).head.phase = .running then s.solRest i else s
  let s := s.onEngine k i (fun e => { e with fifo := e.fifo.map (fun x => { x with status := BitVec.ofNat 16 stReset }) })
  s.drainReset k i 64

/-! ### The head of the FIFO (R33, R90, R91, R101) -/

/-- DESCRIPTOR_HEAD (R91): the descriptor at the front of the FIFO becomes the head: a rejected one completes at once, an accepted
one waits for its release or, released, for its pips. -/
def execDescriptorHead (k : EngKind) (i : Fin 64) (s : State) : Host.Outcome State Fault Refusal :=
  inService s (fun s =>
    let e := s.engine k i
    match e.fifo with
    | [] => s
    | x :: _ =>
      if e.head.phase ≠ .idle ∨ !e.runBit ∨ s.engInReset k i then s
      else if x.status ≠ 0 then s.finish k i x.status.toNat
      else
        let rel := descRelease k x.sub.desc
        s.onHead k i (fun _ => { Head.idle with
          since := s.now
          seen := if relReached s rel then (waitSet k x.sub.desc).filter (s.pipUp (engineSuit k i)) else []
          phase := if relReached s rel then .waitPips else .waitRelease
          late := relLate s rel
          firstEffect := firstEffect s rel 4 }))

/-- R101, R467, R468: arithmetic may begin: first effect reached, pips observed, and for working descriptors an enabled duty slot. -/
def State.mayStart (s : State) (k : EngKind) (i : Nat) : Bool :=
  let e := s.engine k i
  e.head.phase == .waitPips && decide (e.head.firstEffect ≤ s.now) && s.pipsMet k i && (descOp e.headDesc == 0 || s.pwr.slotOn)

/-- R247, R384, R407: memory among these extents is held by a reset or a retrain, and an engine's accesses to it wait. -/
def State.engWaits (s : State) (k : EngKind) (i : Nat) (xs : List (Nat × Nat)) : Bool := s.busyAny (.engine (engineSuit k i / 4)) xs

/-- Does a descriptor's wait go on: before its start, or between the chunks of PIP_MODE 2? -/
def Engine.waits (e : Engine) (k : EngKind) : Bool :=
  e.head.phase == .waitPips || (e.head.phase == .running && k == .tbl && descPipMode k e.headDesc == 2)

/-- R101, R103: the pips of the wait sets that stand at 1 in this cycle are observed, by every engine that waits. -/
def State.observePips (s : State) : State :=
  if s.hbm.pips.isEmpty then s
  else
    let look (k : EngKind) (i : Nat) (e : Engine) : Engine :=
      if e.waits k then { e with head := { e.head with
        seen := (waitSet k e.headDesc).filter (fun p => s.pipUp (engineSuit k i) p || e.head.seen.contains p) } } else e
    s.onEng (fun x => { x with
      tbl := Vector.ofFn (fun i => look .tbl i x.tbl[i]), atm := Vector.ofFn (fun i => look .atm i x.atm[i])
      sol := Vector.ofFn (fun i => look .sol i x.sol[i]), shf := Vector.ofFn (fun i => look .shf i x.shf[i]) })

/-- R374: a full overwrite clears poison. A Tableau's tile starts all its cells, which are the whole accumulator store whatever the
tile's shape (R97, R114), and every tile register of an Atomizer is zero at the start of a tile invocation (R133): nothing of the store
keeps a mark (DEDUCED, log entry 29). -/
def State.freshStore (k : EngKind) (i : Nat) (s : State) : State :=
  let lo := match k with
    | .tbl => 0x0103_0000_0000 + 0x0020_0000 * i
    | .atm => 0x0104_0000_0000 + 0x8000 * i
    | _ => 0
  let n := match k with
    | .tbl => 0x0014_0000
    | .atm => 0x8000
    | _ => 0
  if s.mem.poison.isEmpty then s
  else s.onMem (fun m => { m with poison := m.poison.filter (fun l => !(decide (lo ≤ l * 64) && decide (l * 64 < lo + n))) })

/-- R109: the first arithmetic cycle is stamped, once. -/
def Head.stamped (now : BitVec 64) (h : Head) : Head := { h with start := some (h.start.getD now) }

/-- The descriptor runs: memory is read from here on as it now stands (R99). Arithmetic begins, but for a Tableau in PIP_MODE 2, whose
arithmetic begins with its first chunk (R101). -/
def State.beginRun (k : EngKind) (i : Nat) (s : State) : State :=
  let s := s.freshStore k i
  let chunked := k = .tbl ∧ descPipMode k (s.engine k i).headDesc = 2
  s.onHead k i (fun h => { (if chunked then h else h.stamped s.stamp) with phase := .running, snap := s.mem })

/-- Error bit of PIP_TIMEOUT (the same in every kind). -/
def pipTimeoutBit : Nat := 2

/-- PIP_TIMEOUT (R103): the wait limit has passed without every pip of the wait set having risen. -/
def execPipTimeout (k : EngKind) (i : Fin 64) (s : State) : Host.Outcome State Fault Refusal :=
  inService s (fun s =>
    let e := s.engine k i
    if e.waits k ∧ e.pipLimit ≠ 0 ∧ e.head.firstEffect + e.pipLimit.toNat * 60000 ≤ s.now ∧
        !((waitSet k e.headDesc).all (s.risen k i)) then
      let s := s.onHead k i (fun h => { h with start := none })
      (s.engErr k i pipTimeoutBit).finish k i stPipTimeout
    else s)

/-! ### Rings and RUN (R112, R116, R346) -/

/-- A commit held for ring space goes on when there is space: one that has its status is written, and descriptors that end with
RESET follow; one that has still to write its outputs may commit. -/
def State.releaseHeld (k : EngKind) (i : Nat) (s : State) : State :=
  let h := (s.engine k i).head
  if !h.held then s
  else if h.phase = .finished then (s.writeCompletion k i).drainReset k i 64
  else if (s.engine k i).cq.full then s
  else s.onHead k i (fun h => { h with held := false })

/-- An engine's CQ_HEAD is written. -/
def State.writeEngHead (k : EngKind) (i v : Nat) (s : State) : State :=
  (s.onEngine k i (fun e => { e with cq := e.cq.writeHead v })).releaseHeld k i

/-- An engine's CTRL.RUN is written: at 0 the running descriptor completes and execution stops. -/
def State.writeEngRun (k : EngKind) (i : Nat) (run : Bool) (s : State) : State := s.onEngine k i (fun e => { e with runBit := run })

/-- R116: STATUS of an engine. -/
def State.engStatus (s : State) (k : EngKind) (i : Nat) : Nat :=
  let e := s.engine k i
  let h := e.head
  let busy := h.phase == .running || h.phase == .waitPips || h.phase == .finished
  e.fifo.length * 2 ^ 16 + bit01 ((k == .tbl || k == .atm) && e.onSpare) * 2 ^ 8 +
  bit01 (!e.runBit && !busy) * 16 + bit01 (s.waitsPip k i) * 8 + bit01 (h.phase == .waitRelease) * 4 + bit01 h.held * 2 + bit01 busy

/-! ### Input and weight digests (R41, R42, R430) -/

/-- R42: the chunks of a region: 1 MiB each, the last possibly shorter. -/
def chunksOf (x : Nat × Region) : List InputChunk :=
  (upTo (ceilDiv x.2.len 1048576)).map (fun j =>
    let b := x.2.base + 1048576 * j
    let n := min 1048576 (x.2.len - 1048576 * j)
    ⟨x.2.kind, x.1, b, n, [(b, b + n)], 0⟩)

/-- The chunks of the input and weight regions among those of an attach record. -/
def inputChunks (rs : List Region) : List InputChunk :=
  (((List.zip (upTo rs.length) rs).filter (fun x => x.2.kind == 1 || x.2.kind == 2)).map chunksOf).flatten

/-- A range without what `[lo, hi)` covers of it. -/
def leftOver (lo hi : Nat) (x : Nat × Nat) : List (Nat × Nat) :=
  [(x.1, min x.2 lo), (max x.1 hi, x.2)].filter (fun y => decide (y.1 < y.2))

/-- The digest of a chunk as it stands. -/
def InputChunk.seal (s : State) (c : InputChunk) : InputChunk := { c with digest := digest256 (s.readMem c.base c.len) }

/-- R41, R42: INPUT_DIGEST over the chunk digests of the input regions, in region and chunk order. -/
def inputDigestOf (cs : List InputChunk) : BitVec 256 :=
  digest256 (joinBytes ((cs.filter (fun c => c.kind == 1)).map (fun c => digestBytes c.digest)))

/-- R430: WEIGHTS_DIGEST over the region digests of the weight regions (`regions` of them are declared in all). -/
def weightsDigestOf (regions : Nat) (cs : List InputChunk) : BitVec 256 :=
  let region (r : Nat) : List InputChunk := cs.filter (fun c => c.kind == 2 && c.region == r)
  digest256 (joinBytes (((upTo regions).filter (fun r => !(region r).isEmpty)).map (fun r =>
    shake256 32 (joinBytes ((region r).map (fun c => digestBytes c.digest))))))

/-- The job's digests follow those of its chunks. -/
def Job.digested (j : Job) : Job :=
  { j with inputDigest := inputDigestOf j.chunks, weightsDigest := weightsDigestOf j.regions.length j.chunks }

/-- R42: `n` bytes from `a` have entered the node. A chunk whose last byte this is has fully arrived, and gets its digest. -/
def State.arrive (a n : Nat) (s : State) : State :=
  if s.job.chunks.all (fun c => c.left.isEmpty) then s
  else
    let f (c : InputChunk) : InputChunk :=
      if c.left.isEmpty then c
      else
        let c := { c with left := (c.left.map (leftOver a (a + n))).flatten }
        if c.left.isEmpty then c.seal s else c
    s.onJob (fun j => let j := { j with chunks := j.chunks.map f }; if j.started then j.digested else j)

/-- R42: at START a chunk that has not arrived over the fabric since the attach is digested as it stands; when it arrives later, its
digest is that of what arrived (DESIGN CHOICE, log entry 23). -/
def State.digestChunks (s : State) : State :=
  s.onJob (fun j => { j with chunks := j.chunks.map (fun (c : InputChunk) => if c.left.isEmpty then c else c.seal s) }.digested)

/-! ### Sealed writes (R41-R43) -/

/-- R41: the provenance digest of the attached job. -/
def State.provDigest (s : State) : BitVec 256 :=
  let j := s.job
  digest256 (digestBytes j.imageDigest ++ digestBytes j.weightsDigest ++ digestBytes j.inputDigest ++ leBytes 8 j.seed.toNat ++
    leBytes 4 j.nodeCount.toNat ++ digestBytes j.configDigest)

/-- R43: the trailer of a sealed write. -/
def State.sealTrailer (s : State) (len id : Nat) : List Byte :=
  let mixed := s.fab.partners.any (fun p => p.admitted && p.model == 2)
  digestBytes s.provDigest ++ leBytes 8 len ++ leBytes 8 id ++ leBytes 4 s.job.rank.toNat ++ leBytes 2 1 ++
    leBytes 2 (bit01 (s.job.outside || mixed)) ++ leBytes 8 0

end Sys2Proof.Machine
end

