-- ==== Sys2Proof/Machine/TransTables.lean ====
section
/-!
DEFINITION. TransTables.lean: the constants of R151 to R154 and R201, each the binary64 encoding nearest the stated real
number, ties to even. They were computed from those real numbers at 420 bits.
-/
namespace Sys2Proof.Machine

/-- R152: tx_j, 2^(j/32). -/
def tabTx : List Nat :=
  [0x3FF0000000000000, 0x3FF059B0D3158574, 0x3FF0B5586CF9890F, 0x3FF11301D0125B51,
   0x3FF172B83C7D517B, 0x3FF1D4873168B9AA, 0x3FF2387A6E756238, 0x3FF29E9DF51FDEE1,
   0x3FF306FE0A31B715, 0x3FF371A7373AA9CB, 0x3FF3DEA64C123422, 0x3FF44E086061892D,
   0x3FF4BFDAD5362A27, 0x3FF5342B569D4F82, 0x3FF5AB07DD485429, 0x3FF6247EB03A5585,
   0x3FF6A09E667F3BCD, 0x3FF71F75E8EC5F74, 0x3FF7A11473EB0187, 0x3FF82589994CCE13,
   0x3FF8ACE5422AA0DB, 0x3FF93737B0CDC5E5, 0x3FF9C49182A3F090, 0x3FFA5503B23E255D,
   0x3FFAE89F995AD3AD, 0x3FFB7F76F2FB5E47, 0x3FFC199BDD85529C, 0x3FFCB720DCEF9069,
   0x3FFD5818DCFBA487, 0x3FFDFC97337B9B5F, 0x3FFEA4AFA2A490DA, 0x3FFF50765B6E4540]

/-- R152: p_n, (ln 2)^n / n!, n = 1 to 5. -/
def tabP : List Nat :=
  [0x3FE62E42FEFA39EF, 0x3FCEBFBDFF82C58F, 0x3FAC6B08D704A0C0, 0x3F83B2AB6FBA4E77,
   0x3F55D87FE78A6731]

/-- R153: rc_j, 1/(1 + j/64). (part 0) -/
def tabRc0 : List Nat :=
  [0x3FF0000000000000, 0x3FEF81F81F81F820, 0x3FEF07C1F07C1F08, 0x3FEE9131ABF0B767,
   0x3FEE1E1E1E1E1E1E, 0x3FEDAE6076B981DB, 0x3FED41D41D41D41D, 0x3FECD85689039B0B,
   0x3FEC71C71C71C71C, 0x3FEC0E070381C0E0, 0x3FEBACF914C1BAD0, 0x3FEB4E81B4E81B4F,
   0x3FEAF286BCA1AF28, 0x3FEA98EF606A63BE, 0x3FEA41A41A41A41A, 0x3FE9EC8E951033D9,
   0x3FE999999999999A, 0x3FE948B0FCD6E9E0, 0x3FE8F9C18F9C18FA, 0x3FE8ACB90F6BF3AA,
   0x3FE8618618618618, 0x3FE8181818181818, 0x3FE7D05F417D05F4, 0x3FE78A4C8178A4C8,
   0x3FE745D1745D1746, 0x3FE702E05C0B8170, 0x3FE6C16C16C16C17, 0x3FE6816816816817,
   0x3FE642C8590B2164, 0x3FE6058160581606, 0x3FE5C9882B931057, 0x3FE58ED2308158ED]

/-- R153: rc_j, 1/(1 + j/64). (part 1) -/
def tabRc1 : List Nat :=
  [0x3FE5555555555555, 0x3FE51D07EAE2F815, 0x3FE4E5E0A72F0539, 0x3FE4AFD6A052BF5B,
   0x3FE47AE147AE147B, 0x3FE446F86562D9FB, 0x3FE4141414141414, 0x3FE3E22CBCE4A902,
   0x3FE3B13B13B13B14, 0x3FE3813813813814, 0x3FE3521CFB2B78C1, 0x3FE323E34A2B10BF,
   0x3FE2F684BDA12F68, 0x3FE2C9FB4D812CA0, 0x3FE29E4129E4129E, 0x3FE27350B8812735,
   0x3FE2492492492492, 0x3FE21FB78121FB78, 0x3FE1F7047DC11F70, 0x3FE1CF06ADA2811D,
   0x3FE1A7B9611A7B96, 0x3FE1811811811812, 0x3FE15B1E5F75270D, 0x3FE135C81135C811,
   0x3FE1111111111111, 0x3FE0ECF56BE69C90, 0x3FE0C9714FBCDA3B, 0x3FE0A6810A6810A7,
   0x3FE0842108421084, 0x3FE0624DD2F1A9FC, 0x3FE0410410410410, 0x3FE0204081020408]

/-- R153: rc_j, 1/(1 + j/64). -/
def tabRc : List Nat := tabRc0 ++ tabRc1

/-- R153: lg_j, −log2(rc_j). (part 0) -/
def tabLg0 : List Nat :=
  [0x0000000000000000, 0x3F96E79685C2D212, 0x3FA6BAD3758EFD81, 0x3FB0EB389FA29F9D,
   0x3FB663F6FAC91318, 0x3FBBC84240ADABB9, 0x3FC08C588CDA79E5, 0x3FC32AE9E278AE19,
   0x3FC5C01A39FBD68B, 0x3FC84C2BD02F03B6, 0x3FCACF5E2DB4EC91, 0x3FCD49EE4C32596C,
   0x3FCFBC16B902680D, 0x3FD11307DAD30B74, 0x3FD24407AB0E073A, 0x3FD37124CEA4CDED,
   0x3FD49A784BCD1B8A, 0x3FD5C01A39FBD689, 0x3FD6E221CD9D0CDD, 0x3FD800A563161C53,
   0x3FD91BBA891F170A, 0x3FDA33760A7F6051, 0x3FDB47EBF73882A1, 0x3FDC592FAD295B57,
   0x3FDD6753E032EA0E, 0x3FDE726AA1E754D3, 0x3FDF7A8568CB06CE, 0x3FE03FDA8B97997E,
   0x3FE0C10500D63AA7, 0x3FE140C9FAA1E543, 0x3FE1BF311E95D00E, 0x3FE23C41D42727C8]

/-- R153: lg_j, −log2(rc_j). (part 1) -/
def tabLg1 : List Nat :=
  [0x3FE2B803473F7AD2, 0x3FE3327C6AB49CA7, 0x3FE3ABB3FAA02168, 0x3FE423B07E986AA8,
   0x3FE49A784BCD1B8B, 0x3FE510118708A8F9, 0x3FE5848226989D34, 0x3FE5F7CFF41E09B0,
   0x3FE66A008E4788CB, 0x3FE6DB196A761949, 0x3FE74B1FD64E0754, 0x3FE7BA18F93502E5,
   0x3FE82809D5BE7074, 0x3FE894F74B06EF8B, 0x3FE900E6160002CE, 0x3FE96BDAD2ACB5F6,
   0x3FE9D5D9FD5010B4, 0x3FEA3EE7F38E181F, 0x3FEAA708F58014D4, 0x3FEB0E4126BCC86C,
   0x3FEB74948F5532DA, 0x3FEBDA071CC67E6C, 0x3FEC3E9CA2E1A055, 0x3FECA258DCA93317,
   0x3FED053F6D260897, 0x3FED6753E032EA0F, 0x3FEDC899AB3FF56C, 0x3FEE29142E0E013F,
   0x3FEE88C6B3626A73, 0x3FEEE7B471B3A950, 0x3FEF45E08BCF0656, 0x3FEFA34E1177C234]

/-- R153: lg_j, −log2(rc_j). -/
def tabLg : List Nat := tabLg0 ++ tabLg1

/-- R153: q_n, (−1)^(n+1)/(n·ln 2), n = 1 to 7. -/
def tabQ : List Nat :=
  [0x3FF71547652B82FE, 0xBFE71547652B82FE, 0x3FDEC709DC3A03FD, 0xBFD71547652B82FE,
   0x3FD2776C50EF9BFE, 0xBFCEC709DC3A03FD, 0x3FCA61762A7ADED9]

/-- R154: erf coefficients a_(j,0) … a_(j,10), rows 0 to 7. -/
def tabErf0 : List (List Nat) :=
  [[0x3FB207D480E90658, 0x3FF1FBD27CDC72D3, 0xBFB1FBD27CDC72D3, 0xBFD7CA791FD8F7E7, 0x3FA1EFD545DE8A86, 0x3FBC532B7BBE615A,
   0xBF87DA7BCE15A3FC, 0xBF9AC35A97D212DF, 0x3F67CA8C4CC3AA58, 0x3F74A6890AE20829, 0xBF42FBB5BD5D79F3],
   [0x3FCAC45E37FE2526, 0x3FF16E2D7093CD8C, 0xBFCA254428DDB453, 0xBFD59B3DA8E1E176, 0x3FB988648FE88219, 0x3FB803427310D199,
   0xBFA09E7BCE5592C9, 0xBF9516B205318414, 0x3F8038D3F3A16B57, 0x3F6E19D52695AD58, 0xBF59542E7ED016BB],
   [0x3FD5DA9F415FF23F, 0x3FF05FD3ECBEC298, 0xBFD477C8E7EE733D, 0xBFD1917B60ACAB73, 0x3FC322A728D4ED12, 0x3FB04C50A9CD2C12,
   0xBFA7CE764EEDDD86, 0xBF868AAC5801171D, 0x3F862AA895F51CD3, 0x3F56C003C3CEDB0D, 0xBF6079502DBBB32A],
   [0x3FDDB081CE6E2A48, 0x3FEDD167C4CF9D2A, 0xBFDA173ACC35A985, 0xBFC889A80F4AD955, 0x3FC6C2EEA0D17B39, 0x3F9B0645438E5D17,
   0xBFAA3FD9FCBB6D6D, 0x3F2060B78C935B8E, 0x3F8678B51A9C4B0A, 0xBF51E03BFC8EEBB3, 0xBF5E653535CAAAB8],
   [0x3FE25B8A88B6DD7F, 0x3FEA5074E2157620, 0xBFDD9A837E5824E4, 0xBFB9C41D1D5FAE55, 0x3FC75BEBC1B18D1C, 0xBF86410AD9332666,
   0xBFA7DF8890B11FA7, 0x3F84A54816D3608A, 0x3F818F36EB18F3D7, 0xBF68D661C030E173, 0xBF53628EDE23DE1D],
   [0x3FE569243D2B3A9B, 0x3FE681FF24B4AB04, 0xBFDEF2BED2786B25, 0xBF8A4254557D722F, 0x3FC532415C267962, 0xBFA558B4C55A835C,
   0xBFA1B7AD5B777F1B, 0x3F91201D3BD0E758, 0x3F72995E3A88A890, 0xBF70294C3E93CDB0, 0xBF3159644A564E28],
   [0x3FE7FB9BFAED8078, 0x3FE2A8DCEDE3673B, 0xBFDE5267029187C0, 0x3FAFE0796BB9D05A, 0x3FC0FA23021AD0AC, 0xBFAFA21EBCA76761,
   0xBF931546D5C4EDB4, 0x3F937E5469EFB7A6, 0x3F2097966E2E87E3, 0xBF6E82AB020887A7, 0x3F4318270C11B2D8],
   [0x3FEA1551A16AAEAF, 0x3FDDFCA26F5BBF88, 0xBFDC1CD84866038F, 0x3FBE4C9975DA0987, 0x3FB747E31BF47AF3, 0xBFB1D1F00109E42A,
   0xBF647654175CEB42, 0x3F91A817C594B8CB, 0xBF6CB8ACD699CCA6, 0xBF657B72BF874DB6, 0x3F524493DCA8B643]]

/-- R154: erf coefficients a_(j,0) … a_(j,10), rows 8 to 15. -/
def tabErf1 : List (List Nat) :=
  [[0x3FEBBEF0FBDE6221, 0x3FD75A91A7F4D2ED, 0xBFD8D03AC274201C, 0x3FC3954778D6A0DF, 0x3FA88E0F7B183FC6, 0xBFB0F7C15F75EE13,
   0x3F85E22CFA1AAB51, 0x3F89AD28C5557C22, 0xBF7704EC5D29FC83, 0xBF523360304F19BA, 0x3F543CA3FCDF057A],
   [0x3FED0580B2CFD249, 0x3FD1A0DC51A9934D, 0xBFD4EF05A0F95EEB, 0x3FC5648B5DC47417, 0x3F840FBABA44504C, 0xBFAC0DB89D0A41A4,
   0x3F9388C3EC056942, 0x3F7AECB7463CF446, 0xBF78BCA53327E075, 0x3F34ADD4A8239F4B, 0x3F505CE4ABD0FF4F],
   [0x3FEDF85EA8DB188E, 0x3FC9CB5BD549B111, 0xBFD0ED7443F85C33, 0x3FC5066CDA84BBA9, 0xBF9419FA10B6ED7D, 0xBFA3F41761D5A941,
   0x3F96D1D724BAAAE4, 0x3F4E377F5703F7FF, 0xBF74CC916AD63C27, 0x3F5553EF0D12719F, 0x3F426240F5597EE0],
   [0x3FEEA7730ED0BBB9, 0x3FC24A7B84D38971, 0xBFCA4B118EF01593, 0x3FC319C7A75F9187, 0xBFA3DB5BED47FAF6, 0xBF97019BDA6C2FDD,
   0x3F959D3AA402C32E, 0xBF6B324EAB9C87A9, 0xBF6B4774D37D0DD7, 0x3F5C01377485A844, 0x3F1A5DB5F627B4CD],
   [0x3FEF21C9F12F0677, 0x3FB92470A61B6965, 0xBFC3A47801C56A57, 0x3FC0453F90D3BD35, 0xBFA8A7C6A239217B, 0xBF8075C088031EE3,
   0x3F916F9C9C127B80, 0xBF774C2FC9BDFE97, 0xBF5760C522BD5BEB, 0x3F5A3CDB656ADB43, 0xBF302C3C1AB0B16D],
   [0x3FEF74A6D9A38383, 0x3FB0BF97E95F2A64, 0xBFBC435059D09788, 0x3FBA3687C1EAF1AD, 0xBFA9647A30B16824, 0x3F66981061DFBB09,
   0x3F87E8755DA47040, 0xBF79BE731FDAB95D, 0x3F23A95AE0A75546, 0x3F5319F780E962D7, 0xBF3B88DD51A4F7AF],
   [0x3FEFAB0DD89D1309, 0x3FA5A08E85AF27E0, 0xBFB399812926BC23, 0x3FB4140EFB719CB0, 0xBFA7535A61A4193D, 0x3F8374C88C7E6ABD,
   0x3F7A40709E010E77, 0xBF76DC078888EFA7, 0x3F52EE6D200993AF, 0x3F444F175E22A161, 0xBF3C2FB051C92966],
   [0x3FEFCDACCA0BFB73, 0x3F9B1160991FF737, 0xBFAA38D59456F77D, 0x3FAD5BD91B6B0123, 0xBFA3B35DCBC80146, 0x3F89D76B0A0535C7,
   0x3F614C887A83A0E6, 0xBF7117F42CC6E9F4, 0x3F59B477BDAD8E0B, 0x3F21D219FB0E1BC9, 0xBF35BB59D3CA6ABF]]

/-- R154: erf coefficients a_(j,0) … a_(j,10), rows 16 to 23. -/
def tabErf2 : List (List Nat) :=
  [[0x3FEFE307F2B503D0, 0x3F906AE13B0D3255, 0xBFA0EE3844E59BE7, 0x3FA48B127F8ED8A5, 0xBF9F155B4E7D8C3B, 0x3F8AA2C0753D569A,
   0xBF4BBF7E2795837B, 0xBF65478D784D271C, 0x3F58EAE08CDF9547, 0xBF292946556037E5, 0xBF290F27AE615128],
   [0x3FEFEFCCE6813974, 0x3F834D7DBC76D7E5, 0xBF951CC18621FC23, 0x3F9B925A99886BB7, 0xBF971E7D408C8C6F, 0x3F87EA58080A81EF,
   0xBF646EB9D203E071, 0xBF5403333682FA5E, 0x3F53B37D5BD14A40, 0xBF36BE130822DBDF, 0xBF103D4BCDAFE930],
   [0x3FEFF733814AF88C, 0x3F75FF2750FE7820, 0xBF896F0575A63AE5, 0x3F91C5A643F04363, 0xBF904F5CAAF2196F, 0x3F8382A146AFB9D2,
   0xBF695CAB93AA68D2, 0xBF2D2FD90FE62928, 0x3F49F50FB94C0B82, 0xBF37D7378074399B, 0x3EFCC0C9CBA01378],
   [0x3FEFFB5BDF67FE6F, 0x3F684BA3004A50D0, 0xBF7D9C2EA85A927D, 0x3F860898536E104A, 0xBF85EB1C899F0B70, 0x3F7D854F73E74C87,
   0xBF6897719A9D257E, 0x3F388CDC8B807C97, 0x3F3B325A11C1F45A, 0xBF3381548F692740, 0x3F12B1FD05559D5A],
   [0x3FEFFD9F78C7524A, 0x3F5A024365F771BD, 0xBF70A9732D5284DD, 0x3F7A4BF47A43042A, 0xBF7C23802D8A5BB7, 0x3F74F40070668329,
   0xBF64C9A2C9DCCD04, 0x3F44F7A50B5BC019, 0x3F218B04EB90C73A, 0xBF2A4C3880C0EA6A, 0x3F14B7B82A86E254],
   [0x3FEFFED167B12AC2, 0x3F4AFC85E0F82E12, 0xBF6221A9F326BEF4, 0x3F6E3C9AAB90BCF4, 0xBF714B1B98141F21, 0x3F6C1C19B9E63D70,
   0xBF5FEAC3DBEB5124, 0x3F463E88178B0E49, 0xBF04441C86C93F7A, 0xBF1C8CEEBC5FC50C, 0x3F1125B77A79FCB6],
   [0x3FEFFF6DEE89352E, 0x3F3B23A5A23E4210, 0xBF5315107613C673, 0x3F60C243329A9CA1, 0xBF64630116262084, 0x3F61E84D1022E8CB,
   0xBF56B41872716325, 0x3F436EDDE582B265, 0xBF1F7870EBC38E66, 0xBF051ECFDC37801E, 0x3F0711D817E07BC3],
   [0x3FEFFFBB8F1049C6, 0x3F2A740684026555, 0xBF436D34C8F1C26A, 0x3F51EB6E14974A25, 0xBF5714EB8CC0947F, 0x3F55BEC08C01B1D7,
   0xBF4E4621D82DAD12, 0x3F3E1B7B564B0E79, 0xBF224564B69716A0, 0x3EBBF8E3B47F3CC9, 0x3EF8F55A9BE0E03D]]

/-- R154: erf coefficients a_(j,0) … a_(j,10), rows 24 to 31. -/
def tabErf3 : List (List Nat) :=
  [[0x3FEFFFE0E0140857, 0x3F18FDC1B2DCF7B9, 0xBF3322484CF12DAA, 0x3F427DC1BC6CFEF5, 0xBF49202F465EB421, 0x3F493B4C9746835F,
   0xBF430E9E6142FE9B, 0x3F3555B9D5FB4825, 0xBF2055983C4AC7AB, 0x3EF68E6C75A5D068, 0x3EE2D4A50D2829B7],
   [0x3FEFFFF2436A21DC, 0x3F06E2367DC27F95, 0xBF223C436C36FDAB, 0x3F326BF00867A835, 0xBF3A51FB50B15F22, 0x3F3C0825378FDA08,
   0xBF36C3DBFE0CBE4A, 0x3F2C1DD1438378DF, 0xBF194C36A9D7C0F6, 0x3EFBF0AAB116CA42, 0x3E86BDBD2F94D9AF],
   [0x3FEFFFFA1DE8C582, 0x3EF44F21E49054F2, 0xBF10D18811478659, 0x3F21B964D438F622, 0xBF2A8D7851F26BF0, 0x3F2DDD6DF9B6852D,
   0xBF29E52B7AAC1644, 0x3F2165B2034FCAB2, 0xBF11B75C33326751, 0x3EF91A253C42F4E8, 0xBED020B498059EDB],
   [0x3FEFFFFD8E1A2F22, 0x3EE1783CEAC28910, 0xBEFE06A8B37E5B93, 0x3F107978C7B8496B, 0xBF19D039884F8BE5, 0x3F1E8D1145E94A54,
   0xBF1C1F7251172A87, 0x3F1458B9E0854D68, 0xBF06EB05572453F5, 0x3EF33045CF65279E, 0xBED42C8ADF1CD1FD],
   [0x3FEFFFFF039F9E8F, 0x3ECD21397EAD99CB, 0xBEE9F19734D29CF9, 0x3EFD982BD41D8954, 0xBF08320FC4836BE5, 0x3F0E0A1CB1D071F3,
   0xBF0D384223047B9C, 0x3F0696DAF6422BD4, 0xBEFBB6E2D311A919, 0x3EEA4FCB0EA87EFB, 0xBED1C940C531C53B],
   [0x3FEFFFFF9D446CCC, 0x3EB789FB715AAE95, 0xBED5B333CC7F98F1, 0x3EE9B12FDBF90F62, 0xBEF5E06923144D70, 0x3EFC6A071925631D,
   0xBEFD178CB0388A82, 0x3EF7E29D33AC92B6, 0xBEEF9203429BA9FF, 0x3EE094DADEEE395C, 0xBECA771CF3589991],
   [0x3FEFFFFFDA86FAA9, 0x3EA26F9DF8519BD7, 0xBEC1926290ADC888, 0x3ED5900C02D97304, 0xBEE3166DE6A8C640, 0x3EE9DFCC328729E0,
   0xBEEBCAB1ED5EC38D, 0x3EE81CD74A57CE17, 0xBEE106E95B6BF43D, 0x3ED379625A71385F, 0xBEC1970A5B67012C],
   [0x3FEFFFFFF233EE1D, 0x3E8BFD7555A3BD68, 0xBEAB8D7F804D2E73, 0x3EC17F93E5149289, 0xBED013B0457D08FA, 0x3ED6B245D7E1D829,
   0xBED98077548C6950, 0x3ED7492048AB3CEB, 0xBED17506C7B39DF8, 0x3EC57E94A4C5F5A5, 0xBEB5709711F3CABC]]

/-- R154: erf coefficients, one row for each j. -/
def tabErf : List (List Nat) := tabErf0 ++ tabErf1 ++ tabErf2 ++ tabErf3

/-- R154: sn_j, sin(jπ/64). (part 0) -/
def tabSn0 : List Nat :=
  [0x0000000000000000, 0x3FA91F65F10DD814, 0x3FB917A6BC29B42C, 0x3FC2C8106E8E613A,
   0x3FC8F8B83C69A60B, 0x3FCF19F97B215F1B, 0x3FD294062ED59F06, 0x3FD58F9A75AB1FDD,
   0x3FD87DE2A6AEA963, 0x3FDB5D1009E15CC0, 0x3FDE2B5D3806F63B, 0x3FE073879922FFEE,
   0x3FE1C73B39AE68C8, 0x3FE30FF7FCE17035, 0x3FE44CF325091DD6, 0x3FE57D69348CECA0,
   0x3FE6A09E667F3BCD, 0x3FE7B5DF226AAFAF, 0x3FE8BC806B151741, 0x3FE9B3E047F38741,
   0x3FEA9B66290EA1A3, 0x3FEB728345196E3E, 0x3FEC38B2F180BDB1, 0x3FECED7AF43CC773,
   0x3FED906BCF328D46, 0x3FEE212104F686E5, 0x3FEE9F4156C62DDA, 0x3FEF0A7EFB9230D7,
   0x3FEF6297CFF75CB0, 0x3FEFA7557F08A517, 0x3FEFD88DA3D12526, 0x3FEFF621E3796D7E]

/-- R154: sn_j, sin(jπ/64). (part 1) -/
def tabSn1 : List Nat :=
  [0x3FF0000000000000, 0x3FEFF621E3796D7E, 0x3FEFD88DA3D12526, 0x3FEFA7557F08A517,
   0x3FEF6297CFF75CB0, 0x3FEF0A7EFB9230D7, 0x3FEE9F4156C62DDA, 0x3FEE212104F686E5,
   0x3FED906BCF328D46, 0x3FECED7AF43CC773, 0x3FEC38B2F180BDB1, 0x3FEB728345196E3E,
   0x3FEA9B66290EA1A3, 0x3FE9B3E047F38741, 0x3FE8BC806B151741, 0x3FE7B5DF226AAFAF,
   0x3FE6A09E667F3BCD, 0x3FE57D69348CECA0, 0x3FE44CF325091DD6, 0x3FE30FF7FCE17035,
   0x3FE1C73B39AE68C8, 0x3FE073879922FFEE, 0x3FDE2B5D3806F63B, 0x3FDB5D1009E15CC0,
   0x3FD87DE2A6AEA963, 0x3FD58F9A75AB1FDD, 0x3FD294062ED59F06, 0x3FCF19F97B215F1B,
   0x3FC8F8B83C69A60B, 0x3FC2C8106E8E613A, 0x3FB917A6BC29B42C, 0x3FA91F65F10DD814]

/-- R154: sn_j, sin(jπ/64). (part 2) -/
def tabSn2 : List Nat :=
  [0x0000000000000000, 0xBFA91F65F10DD814, 0xBFB917A6BC29B42C, 0xBFC2C8106E8E613A,
   0xBFC8F8B83C69A60B, 0xBFCF19F97B215F1B, 0xBFD294062ED59F06, 0xBFD58F9A75AB1FDD,
   0xBFD87DE2A6AEA963, 0xBFDB5D1009E15CC0, 0xBFDE2B5D3806F63B, 0xBFE073879922FFEE,
   0xBFE1C73B39AE68C8, 0xBFE30FF7FCE17035, 0xBFE44CF325091DD6, 0xBFE57D69348CECA0,
   0xBFE6A09E667F3BCD, 0xBFE7B5DF226AAFAF, 0xBFE8BC806B151741, 0xBFE9B3E047F38741,
   0xBFEA9B66290EA1A3, 0xBFEB728345196E3E, 0xBFEC38B2F180BDB1, 0xBFECED7AF43CC773,
   0xBFED906BCF328D46, 0xBFEE212104F686E5, 0xBFEE9F4156C62DDA, 0xBFEF0A7EFB9230D7,
   0xBFEF6297CFF75CB0, 0xBFEFA7557F08A517, 0xBFEFD88DA3D12526, 0xBFEFF621E3796D7E]

/-- R154: sn_j, sin(jπ/64). (part 3) -/
def tabSn3 : List Nat :=
  [0xBFF0000000000000, 0xBFEFF621E3796D7E, 0xBFEFD88DA3D12526, 0xBFEFA7557F08A517,
   0xBFEF6297CFF75CB0, 0xBFEF0A7EFB9230D7, 0xBFEE9F4156C62DDA, 0xBFEE212104F686E5,
   0xBFED906BCF328D46, 0xBFECED7AF43CC773, 0xBFEC38B2F180BDB1, 0xBFEB728345196E3E,
   0xBFEA9B66290EA1A3, 0xBFE9B3E047F38741, 0xBFE8BC806B151741, 0xBFE7B5DF226AAFAF,
   0xBFE6A09E667F3BCD, 0xBFE57D69348CECA0, 0xBFE44CF325091DD6, 0xBFE30FF7FCE17035,
   0xBFE1C73B39AE68C8, 0xBFE073879922FFEE, 0xBFDE2B5D3806F63B, 0xBFDB5D1009E15CC0,
   0xBFD87DE2A6AEA963, 0xBFD58F9A75AB1FDD, 0xBFD294062ED59F06, 0xBFCF19F97B215F1B,
   0xBFC8F8B83C69A60B, 0xBFC2C8106E8E613A, 0xBFB917A6BC29B42C, 0xBFA91F65F10DD814]

/-- R154: sn_j, sin(jπ/64). -/
def tabSn : List Nat := tabSn0 ++ tabSn1 ++ tabSn2 ++ tabSn3

/-- R154: cs_j, cos(jπ/64). (part 0) -/
def tabCs0 : List Nat :=
  [0x3FF0000000000000, 0x3FEFF621E3796D7E, 0x3FEFD88DA3D12526, 0x3FEFA7557F08A517,
   0x3FEF6297CFF75CB0, 0x3FEF0A7EFB9230D7, 0x3FEE9F4156C62DDA, 0x3FEE212104F686E5,
   0x3FED906BCF328D46, 0x3FECED7AF43CC773, 0x3FEC38B2F180BDB1, 0x3FEB728345196E3E,
   0x3FEA9B66290EA1A3, 0x3FE9B3E047F38741, 0x3FE8BC806B151741, 0x3FE7B5DF226AAFAF,
   0x3FE6A09E667F3BCD, 0x3FE57D69348CECA0, 0x3FE44CF325091DD6, 0x3FE30FF7FCE17035,
   0x3FE1C73B39AE68C8, 0x3FE073879922FFEE, 0x3FDE2B5D3806F63B, 0x3FDB5D1009E15CC0,
   0x3FD87DE2A6AEA963, 0x3FD58F9A75AB1FDD, 0x3FD294062ED59F06, 0x3FCF19F97B215F1B,
   0x3FC8F8B83C69A60B, 0x3FC2C8106E8E613A, 0x3FB917A6BC29B42C, 0x3FA91F65F10DD814]

/-- R154: cs_j, cos(jπ/64). (part 1) -/
def tabCs1 : List Nat :=
  [0x0000000000000000, 0xBFA91F65F10DD814, 0xBFB917A6BC29B42C, 0xBFC2C8106E8E613A,
   0xBFC8F8B83C69A60B, 0xBFCF19F97B215F1B, 0xBFD294062ED59F06, 0xBFD58F9A75AB1FDD,
   0xBFD87DE2A6AEA963, 0xBFDB5D1009E15CC0, 0xBFDE2B5D3806F63B, 0xBFE073879922FFEE,
   0xBFE1C73B39AE68C8, 0xBFE30FF7FCE17035, 0xBFE44CF325091DD6, 0xBFE57D69348CECA0,
   0xBFE6A09E667F3BCD, 0xBFE7B5DF226AAFAF, 0xBFE8BC806B151741, 0xBFE9B3E047F38741,
   0xBFEA9B66290EA1A3, 0xBFEB728345196E3E, 0xBFEC38B2F180BDB1, 0xBFECED7AF43CC773,
   0xBFED906BCF328D46, 0xBFEE212104F686E5, 0xBFEE9F4156C62DDA, 0xBFEF0A7EFB9230D7,
   0xBFEF6297CFF75CB0, 0xBFEFA7557F08A517, 0xBFEFD88DA3D12526, 0xBFEFF621E3796D7E]

/-- R154: cs_j, cos(jπ/64). (part 2) -/
def tabCs2 : List Nat :=
  [0xBFF0000000000000, 0xBFEFF621E3796D7E, 0xBFEFD88DA3D12526, 0xBFEFA7557F08A517,
   0xBFEF6297CFF75CB0, 0xBFEF0A7EFB9230D7, 0xBFEE9F4156C62DDA, 0xBFEE212104F686E5,
   0xBFED906BCF328D46, 0xBFECED7AF43CC773, 0xBFEC38B2F180BDB1, 0xBFEB728345196E3E,
   0xBFEA9B66290EA1A3, 0xBFE9B3E047F38741, 0xBFE8BC806B151741, 0xBFE7B5DF226AAFAF,
   0xBFE6A09E667F3BCD, 0xBFE57D69348CECA0, 0xBFE44CF325091DD6, 0xBFE30FF7FCE17035,
   0xBFE1C73B39AE68C8, 0xBFE073879922FFEE, 0xBFDE2B5D3806F63B, 0xBFDB5D1009E15CC0,
   0xBFD87DE2A6AEA963, 0xBFD58F9A75AB1FDD, 0xBFD294062ED59F06, 0xBFCF19F97B215F1B,
   0xBFC8F8B83C69A60B, 0xBFC2C8106E8E613A, 0xBFB917A6BC29B42C, 0xBFA91F65F10DD814]

/-- R154: cs_j, cos(jπ/64). (part 3) -/
def tabCs3 : List Nat :=
  [0x0000000000000000, 0x3FA91F65F10DD814, 0x3FB917A6BC29B42C, 0x3FC2C8106E8E613A,
   0x3FC8F8B83C69A60B, 0x3FCF19F97B215F1B, 0x3FD294062ED59F06, 0x3FD58F9A75AB1FDD,
   0x3FD87DE2A6AEA963, 0x3FDB5D1009E15CC0, 0x3FDE2B5D3806F63B, 0x3FE073879922FFEE,
   0x3FE1C73B39AE68C8, 0x3FE30FF7FCE17035, 0x3FE44CF325091DD6, 0x3FE57D69348CECA0,
   0x3FE6A09E667F3BCD, 0x3FE7B5DF226AAFAF, 0x3FE8BC806B151741, 0x3FE9B3E047F38741,
   0x3FEA9B66290EA1A3, 0x3FEB728345196E3E, 0x3FEC38B2F180BDB1, 0x3FECED7AF43CC773,
   0x3FED906BCF328D46, 0x3FEE212104F686E5, 0x3FEE9F4156C62DDA, 0x3FEF0A7EFB9230D7,
   0x3FEF6297CFF75CB0, 0x3FEFA7557F08A517, 0x3FEFD88DA3D12526, 0x3FEFF621E3796D7E]

/-- R154: cs_j, cos(jπ/64). -/
def tabCs : List Nat := tabCs0 ++ tabCs1 ++ tabCs2 ++ tabCs3

/-- R154: s_n, (−1)^n/(2n + 1)!, n = 1 to 3. -/
def tabS : List Nat :=
  [0xBFC5555555555555, 0x3F81111111111111, 0xBF2A01A01A01A01A]

/-- R154: c_n, (−1)^n/(2n)!, n = 1 to 4. -/
def tabC : List Nat :=
  [0xBFE0000000000000, 0x3FA5555555555555, 0xBF56C16C16C16C17, 0x3EFA01A01A01A01A]

/-- log2 e. -/
def conL2e : Nat := 0x3FF71547652B82FE

/-- ln 2. -/
def conLn2 : Nat := 0x3FE62E42FEFA39EF

/-- 2/√π. -/
def conTwoSqrtPi : Nat := 0x3FF20DD750429B6D

/-- 64/π. -/
def conI64 : Nat := 0x40345F306DC9C883

/-- pa: π/64 cut to 28 bits. -/
def conPa : Nat := 0x3FA921FB54000000

/-- pb: π/64 − pa cut to 28 bits. -/
def conPb : Nat := 0x3DC10B4610000000

/-- pc: π/64 − pa − pb. -/
def conPc : Nat := 0x3C0A62633145C06E

/-- R201: −2·ln 2. -/
def conM2 : Nat := 0xBFF62E42FEFA39EF

/-- R201: 2π. -/
def conTp : Nat := 0x401921FB54442D18

end Sys2Proof.Machine
end

