-- ==== Sys2Proof/Machine/Vetiver.lean ====
section
/-!
DEFINITION. Vetiver.lean: the Vetiver function and its draws (R190-R194).
-/
namespace Sys2Proof.Machine

/-- A key's words k0 to k3 (R190). -/
def keyWord (key : BitVec 128) (i : Nat) : BitVec 32 := key.extractLsb' (32 * (i % 4)) 32

/-- R193: the round key. -/
def vetiverRk (key : BitVec 128) (r : Nat) : BitVec 32 :=
  (keyWord key r ^^^ (keyWord key (r + 1)).rotateLeft 7) + BitVec.ofNat 32 (r + 1) * 0x5e1f0c2b#32

/-- R193: the rotation constants of round `r`. -/
def vetiverRot (r : Nat) : Nat × Nat :=
  match r % 5 with
  | 0 => (7, 19)
  | 1 => (13, 3)
  | 2 => (29, 17)
  | 3 => (5, 24)
  | _ => (22, 11)

/-- The four working words. -/
structure VBlock where
  x0 : BitVec 32
  x1 : BitVec 32
  x2 : BitVec 32
  x3 : BitVec 32
  deriving DecidableEq, Repr

/-- R193: one round. -/
def vetiverRound (key : BitVec 128) (x : VBlock) (r : Nat) : VBlock :=
  let a := (vetiverRot r).1
  let b := (vetiverRot r).2
  let x0 := x.x0 + x.x3.rotateLeft a
  let x1 := x.x1 ^^^ x0
  let x2 := x.x2 + x1.rotateLeft b
  let x3 := x.x3 ^^^ x2
  let x1 := x1 + vetiverRk key r
  ⟨x1, x2, x3, x0⟩

/-- R192, R193: the block of a key and a counter (draw number, logical element index, stream). -/
def vetiver (key : BitVec 128) (stream index draw : Nat) : VBlock :=
  let x : VBlock :=
    ⟨BitVec.ofNat 32 draw ^^^ keyWord key 0, BitVec.ofNat 32 index ^^^ keyWord key 1,
     BitVec.ofNat 32 (index / 2 ^ 32) ^^^ keyWord key 2, BitVec.ofNat 32 stream ^^^ keyWord key 3⟩
  let y := (upTo 10).foldl (vetiverRound key) x
  ⟨y.x0 + keyWord key 2, y.x1 + keyWord key 3, y.x2 + keyWord key 0, y.x3 + keyWord key 1⟩

/-- R194: the 24-bit draw. -/
def draw24 (key : BitVec 128) (stream index draw : Nat) : Nat := (vetiver key stream index draw).x0.toNat / 2 ^ 8

/-- R194: the 16-bit draw. -/
def draw16 (b : VBlock) : Nat := b.x0.toNat / 2 ^ 16

/-- R194: the raw draw. -/
def rawDraw (b : VBlock) : Nat := b.x3.toNat * 2 ^ 96 + b.x2.toNat * 2 ^ 64 + b.x1.toNat * 2 ^ 32 + b.x0.toNat

/-- The rounding of an element in a descriptor's mode: nearest-even, or stochastic with the draw of R54. -/
def rndFor (key : BitVec 128) (stochastic : Bool) (stream index draw : Nat) : Rnd :=
  if stochastic then .sr (draw24 key stream index draw) else .rne

end Sys2Proof.Machine
end

