-- ==== Sys2Proof/Machine/Trans.lean ====
section
/-!
DEFINITION. Trans.lean: the IEEE 754-2019 operations that the units share (R66, R144, R165, R217) and the transcendental
functions and activation sequences, bit for bit (R151-R155, R201, R485).
-/
namespace Sys2Proof.Machine

/-! ### Operations before their rounding -/

/-- An exact result before rounding: a NaN (and whether the operation was invalid), an infinity (and whether it came of a
division by zero), or ± (n/d)·2^e. -/
inductive XVal where
  | nan (invalid : Bool)
  | inf (neg divZero : Bool)
  | rat (neg : Bool) (n d : Nat) (e : Int)
  deriving DecidableEq, Repr

/-- A decoded value as an exact result. -/
def XVal.of : FVal → XVal
  | .nan => .nan false
  | .inf neg => .inf neg false
  | .fin neg m e => .rat neg m 1 e

/-- Any NaN operand gives a NaN with no invalid operation (R71: signalling and quiet NaNs are treated alike). -/
def xGuard (ops : List FVal) (r : FVal) : XVal :=
  if ops.any FVal.isNan then .nan false
  else match r with
    | .nan => .nan true
    | v => .of v

/-- a + b. `down` says that the rounding is towards minus infinity (the sign of an exact zero). -/
def xAdd (down : Bool) (a b : FVal) : XVal := xGuard [a, b] (FVal.add down a b)

/-- a·b. -/
def xMul (a b : FVal) : XVal := xGuard [a, b] (FVal.mul a b)

/-- a·b + c, rounded once. -/
def xFma (down : Bool) (a b c : FVal) : XVal := xGuard [a, b, c] (FVal.add down (FVal.mul a b) c)

/-- a / b. -/
def xDiv (a b : FVal) : XVal :=
  match a, b with
  | .nan, _ => .nan false
  | _, .nan => .nan false
  | .inf _, .inf _ => .nan true
  | .inf s, .fin t _ _ => .inf (s != t) false
  | .fin s _ _, .inf t => .rat (s != t) 0 1 0
  | .fin s m e, .fin t n f =>
    if n = 0 then (if m = 0 then .nan true else .inf (s != t) true)
    else .rat (s != t) m n (e - f)

/-- √a. -/
def xSqrt (a : FVal) : XVal :=
  match a with
  | .nan => .nan false
  | .inf true => .nan true
  | .inf false => .inf false false
  | .fin s m e =>
    if m = 0 then .rat s 0 1 0
    else if s then .nan true
    else let r := sqrtSticky m e; .rat false r.1 1 r.2

/-- R144: minimum; a NaN operand gives NaN, and −0 is below +0. -/
def fMin (a b : FVal) : FVal :=
  if a.isNan || b.isNan then .nan
  else if a.isZero && b.isZero then (if a.neg then a else b)
  else if FVal.lt b a then b else a

/-- R144: maximum. -/
def fMax (a b : FVal) : FVal :=
  if a.isNan || b.isNan then .nan
  else if a.isZero && b.isZero then (if a.neg then b else a)
  else if FVal.lt a b then b else a

/-- R55, R56: an exact result into a floating-point format. -/
def FFmt.encodeX (f : FFmt) (m : Rnd) (flush : Bool) (x : XVal) : Nat × AFlags :=
  match x with
  | .nan _ => (f.nanBits, {})
  | .inf neg _ => f.encode m flush (.inf neg)
  | .rat neg n d e =>
    let r := f.roundRat m flush neg n d e
    (r.bits, { inexact := r.inexact, resultOvf := r.overflow, flushed := r.flushed })

/-! ### binary64 steps -/

/-- R151: round64. -/
def round64 (v : FVal) : FVal := fp64.decode (fp64.encode .rne false v).1

/-- R151: fma64. -/
def fma64 (a b c : FVal) : FVal := round64 (FVal.add false (FVal.mul a b) c)

/-- round64 of a quotient. -/
def div64 (a b : FVal) : FVal := fp64.decode (fp64.encodeX .rne false (xDiv a b)).1

/-- round64 of a square root. -/
def sqrt64 (a : FVal) : FVal := fp64.decode (fp64.encodeX .rne false (xSqrt a)).1

/-- A binary64 constant by its encoding. -/
def k64 (bits : Nat) : FVal := fp64.decode bits

/-- Entry `i` of a table of binary64 encodings. -/
def tab (t : List Nat) (i : Nat) : FVal := k64 (t.getD i 0)

/-- An integer as a value. -/
def ofI (i : Int) : FVal := FVal.ofInt false i 0

/-- round_ne_int of a finite value. -/
def rneInt : FVal → Int
  | .fin neg m e => (roundInt .rne neg m e).1
  | _ => 0

/-- floor of a nonnegative finite value. -/
def floorNat : FVal → Nat
  | .fin _ m e => (scaledDiv m 1 e).1
  | _ => 0

/-- R152: exp2_core. -/
def exp2Core (t : FVal) : FVal :=
  let k := rneInt (t.scale 5)
  let j := (k % 32).toNat
  let i := (k - j) / 32
  let r := FVal.add false t ((ofI (-k)).scale (-5))
  let p := (([3, 2, 1, 0] : List Nat)).foldl (fun p n => fma64 p r (tab tabP n)) (tab tabP 4)
  let p := round64 (FVal.mul p r)
  (fma64 (tab tabTx j) p (tab tabTx j)).scale i

/-- R153: log2_core of a positive finite value. -/
def log2Core (x : FVal) : FVal :=
  match x with
  | .fin _ mag ex =>
    let l := mag.log2
    let e : Int := (l : Int) + ex
    let m : FVal := .fin false mag (-(l : Int))
    let j := (mag * 64) / 2 ^ l - 64
    let r := fma64 m (tab tabRc j) (ofI (-1))
    let q := (([5, 4, 3, 2, 1, 0] : List Nat)).foldl (fun q n => fma64 q r (tab tabQ n)) (tab tabQ 6)
    let q := round64 (FVal.mul q r)
    round64 (FVal.add false (ofI e) (round64 (FVal.add false (tab tabLg j) q)))
  | v => v

/-- R154: the sine-cosine algorithm, binary64 results before any rounding to a type. -/
def sincosCore (x : FVal) : FVal × FVal :=
  let n := rneInt (round64 (FVal.mul x (k64 conI64)))
  let mn := ofI (-n)
  let r := fma64 mn (k64 conPa) x
  let r := fma64 mn (k64 conPb) r
  let r := fma64 mn (k64 conPc) r
  let j := (n % 128).toNat
  let z := round64 (FVal.mul r r)
  let s := tab tabS 2
  let s := fma64 s z (tab tabS 1)
  let s := fma64 s z (tab tabS 0)
  let s := round64 (FVal.mul s z)
  let ps := fma64 s r r
  let c := (([2, 1, 0] : List Nat)).foldl (fun c i => fma64 c z (tab tabC i)) (tab tabC 3)
  let pc := fma64 c z (ofI 1)
  let sn := tab tabSn j
  let cs := tab tabCs j
  (fma64 sn pc (round64 (FVal.mul cs ps)), fma64 cs pc (round64 (FVal.mul sn.negate ps)))

/-- R154: the erf polynomial of |x| < 4. -/
def erfPoly (ax : FVal) : FVal :=
  let j := floorNat (ax.scale 3)
  let h := FVal.add false ax (FVal.fin true (2 * j + 1) (-4))
  let row := tabErf.getD j []
  (([9, 8, 7, 6, 5, 4, 3, 2, 1, 0] : List Nat)).foldl (fun y n => fma64 y h (tab row n)) (tab row 10)

/-- A function's value before its single rounding, with the flags that a cut-off or an overflow rule forces (R154, R485). -/
structure TRes where
  v : FVal
  fl : AFlags := {}
  deriving DecidableEq, Repr

/-- The flags of a cut-off (R485). -/
def cutFlags : AFlags := { inexact := true }

/-- R154: the EXP2 rule with the cut-offs (hi, lo) of the result type. -/
def exp2Rule (hi lo : Int) (t : FVal) : TRes :=
  match t with
  | .nan => ⟨.nan, {}⟩
  | .inf false => ⟨.inf false, {}⟩
  | .inf true => ⟨.zero, {}⟩
  | .fin _ _ _ =>
    if FVal.le (ofI hi) t then ⟨.inf false, { resultOvf := true, inexact := true }⟩
    else if FVal.lt t (ofI lo) then ⟨.zero, cutFlags⟩
    else ⟨exp2Core t, {}⟩

/-- R154, R165: EXP: a finite x whose t rounds to an infinity is beyond a cut-off, not a special input. -/
def expRule (hi lo : Int) (x : FVal) : TRes :=
  match x, round64 (FVal.mul x (k64 conL2e)) with
  | .fin _ _ _, .inf neg => if neg then ⟨.zero, cutFlags⟩ else ⟨.inf false, { resultOvf := true, inexact := true }⟩
  | _, t => exp2Rule hi lo t

/-- R154: the cut-offs of EXP2 by result format. -/
def expLimits (f : FFmt) : Int × Int :=
  if f = fp64 then (1024, -1075)
  else if f = fp16 then (16, -25)
  else if f = bf16 then (128, -134)
  else (128, -150)

/-- The transcendental functions (R143, R154). -/
inductive TFun where
  | exp2 | log2 | exp | log | tanh | erf | rsqrt | sin | cos
  deriving DecidableEq, Repr

/-- R154: LOG2 and LOG share their special inputs. -/
def logRule (x : FVal) (post : FVal → FVal) : TRes :=
  match x with
  | .nan => ⟨.nan, {}⟩
  | .inf neg => ⟨if neg then .nan else .inf false, {}⟩
  | .fin neg m _ => if m = 0 then ⟨.inf true, {}⟩ else if neg then ⟨.nan, {}⟩ else ⟨post (log2Core x), {}⟩

/-- Give a value the sign of another. -/
def withSign (neg : Bool) (v : FVal) : FVal := if neg then v.negate else v

/-- 2^k as a value. -/
def pow2 (k : Int) : FVal := .fin false 1 k

/-- R154, R485: the value of a function before its single rounding to the result format `f`. -/
def transValue (fn : TFun) (f : FFmt) (x : FVal) : TRes :=
  match fn with
  | .exp2 => exp2Rule (expLimits f).1 (expLimits f).2 x
  | .exp => expRule (expLimits f).1 (expLimits f).2 x
  | .log2 => logRule x id
  | .log => logRule x (fun l => FVal.mul l (k64 conLn2))
  | .rsqrt =>
    match x with
    | .nan => ⟨.nan, {}⟩
    | .inf neg => ⟨if neg then .nan else .zero, {}⟩
    | .fin neg m _ =>
      if m = 0 then ⟨.inf neg, {}⟩
      else if neg then ⟨.nan, {}⟩
      else ⟨exp2Core ((log2Core x).negate.scale (-1)), {}⟩
  | .tanh =>
    match x with
    | .nan => ⟨.nan, {}⟩
    | .inf neg => ⟨withSign neg (ofI 1), {}⟩
    | .fin neg m _ =>
      if m = 0 then ⟨x, {}⟩
      else if FVal.le (ofI 10) x.abs then ⟨withSign neg (ofI 1), cutFlags⟩
      else if FVal.lt x.abs (pow2 (-12)) then ⟨x, cutFlags⟩
      else
        let e := round64 (exp2Core (round64 (FVal.mul (x.abs.negate.scale 1) (k64 conL2e))))
        let num := round64 (FVal.add false (ofI 1) e.negate)
        let den := round64 (FVal.add false (ofI 1) e)
        ⟨withSign neg (div64 num den), {}⟩
  | .erf =>
    match x with
    | .nan => ⟨.nan, {}⟩
    | .inf neg => ⟨withSign neg (ofI 1), {}⟩
    | .fin neg m _ =>
      if m = 0 then ⟨x, {}⟩
      else if FVal.le (ofI 4) x.abs then ⟨withSign neg (ofI 1), cutFlags⟩
      else if FVal.lt x.abs (pow2 (-12)) then ⟨round64 (FVal.mul x (k64 conTwoSqrtPi)), cutFlags⟩
      else ⟨withSign neg (erfPoly x.abs), {}⟩
  | .sin =>
    match x with
    | .fin _ m _ => if m = 0 then ⟨x, {}⟩ else ⟨(sincosCore x).1, {}⟩
    | _ => ⟨.nan, {}⟩
  | .cos =>
    match x with
    | .fin _ m _ => if m = 0 then ⟨ofI 1, {}⟩ else ⟨(sincosCore x).2, {}⟩
    | _ => ⟨.nan, {}⟩

/-- R151: a transcendental function of a decoded input, rounded once to `f`. -/
def transOp (fn : TFun) (f : FFmt) (flush : Bool) (x : FVal) : Nat × AFlags :=
  let r := transValue fn f x
  let e := f.encode .rne flush r.v
  (e.1, e.2.or r.fl)

/-! ### Activation sequences (R155), on binary32 encodings -/

/-- A binary32 value in a sequence, with the flags so far. -/
structure F32Seq where
  bits : Nat
  fl : AFlags
  deriving DecidableEq, Repr

/-- Decode an operand of a step (R56). -/
def f32In (flush : Bool) (b : Nat) : FVal × AFlags :=
  let r := fp32.decodeFlush flush b
  (r.1, { flushed := r.2 })

/-- One step of one operand. -/
def f32Step1 (flush : Bool) (op : FVal → Nat × AFlags) (a : F32Seq) : F32Seq :=
  let x := f32In flush a.bits
  let r := op x.1
  ⟨r.1, (a.fl.or x.2).or r.2⟩

/-- One step of two operands. -/
def f32Step2 (flush : Bool) (op : FVal → FVal → XVal) (a b : F32Seq) : F32Seq :=
  let x := f32In flush a.bits
  let y := f32In flush b.bits
  let r := fp32.encodeX .rne flush (op x.1 y.1)
  ⟨r.1, ((a.fl.or b.fl).or (x.2.or y.2)).or r.2⟩

/-- A constant of a sequence. -/
def f32K (bits : Nat) : F32Seq := ⟨bits, {}⟩

/-- 1.0 in binary32. -/
def f32One : F32Seq := f32K 0x3F800000

/-- NEG of R144 on a binary32 encoding: the sign inverted, the canonical quiet NaN for a NaN. -/
def negStep (flush : Bool) (a : F32Seq) : F32Seq := f32Step1 flush (fun v => fp32.encode .rne flush v.negate) a

/-- ADD, MUL, RCP, FMA of the sequences. -/
def addStep (flush : Bool) (a b : F32Seq) : F32Seq := f32Step2 flush (xAdd false) a b
/-- MUL. -/
def mulStep (flush : Bool) (a b : F32Seq) : F32Seq := f32Step2 flush xMul a b
/-- RCP. -/
def rcpStep (flush : Bool) (a : F32Seq) : F32Seq := f32Step2 flush xDiv f32One a
/-- FMA. -/
def fmaStep (flush : Bool) (a b c : F32Seq) : F32Seq :=
  let x := f32In flush a.bits
  let y := f32In flush b.bits
  let z := f32In flush c.bits
  let r := fp32.encodeX .rne flush (xFma false x.1 y.1 z.1)
  ⟨r.1, ((a.fl.or (b.fl.or c.fl)).or (x.2.or (y.2.or z.2))).or r.2⟩
/-- A transcendental step. -/
def trStep (flush : Bool) (fn : TFun) (a : F32Seq) : F32Seq := f32Step1 flush (transOp fn fp32 flush) a

/-- R155: SIGMOID. -/
def seqSigmoid (flush : Bool) (u : F32Seq) : F32Seq :=
  rcpStep flush (addStep flush (trStep flush .exp (negStep flush u)) f32One)

/-- R155: SILU. -/
def seqSilu (flush : Bool) (u : F32Seq) : F32Seq := mulStep flush u (seqSigmoid flush u)

/-- R155: GELU_TANH. -/
def seqGeluTanh (flush : Bool) (u : F32Seq) : F32Seq :=
  let s := mulStep flush u u
  let t := fmaStep flush s (f32K 0x3D372713) f32One
  let t := mulStep flush t u
  let t := mulStep flush t (f32K 0x3F4C422A)
  let h := addStep flush (trStep flush .tanh t) f32One
  let g := mulStep flush u (f32K 0x3F000000)
  mulStep flush g h

/-- R155: GELU_ERF. -/
def seqGeluErf (flush : Bool) (u : F32Seq) : F32Seq :=
  let t := mulStep flush u (f32K 0x3F3504F3)
  let h := addStep flush (trStep flush .erf t) f32One
  let g := mulStep flush u (f32K 0x3F000000)
  mulStep flush g h

/-- R105: RELU of the epilogue. -/
def relu32 (u : Nat) : Nat :=
  match fp32.decode u with
  | .nan => fp32.nanBits
  | v => if FVal.lt .zero v then u else 0

/-- R105: the epilogue activations 1 to 6, on a binary32 encoding. -/
def activation (act : Nat) (flush : Bool) (u : Nat) : Nat × AFlags :=
  let r : F32Seq :=
    match act with
    | 1 => ⟨relu32 u, {}⟩
    | 2 => seqGeluTanh flush ⟨u, {}⟩
    | 3 => seqGeluErf flush ⟨u, {}⟩
    | 4 => seqSilu flush ⟨u, {}⟩
    | 5 => seqSigmoid flush ⟨u, {}⟩
    | 6 => trStep flush .tanh ⟨u, {}⟩
    | _ => ⟨u, {}⟩
  (r.bits, r.fl)

/-- R201: a normal element from a block: its binary32 encoding and whether the last rounding changed it. -/
def normalElem (b : VBlock) : Nat × AFlags :=
  let u1 : FVal := .fin false (b.x0.toNat / 2 ^ 8 + 1) (-24)
  let u2 : FVal := .fin false (b.x1.toNat / 2 ^ 8) (-24)
  let l := log2Core u1
  let rad := sqrt64 (round64 (FVal.mul l (k64 conM2)))
  let sc := sincosCore (round64 (FVal.mul u2 (k64 conTp)))
  fp32.encode .rne false (round64 (FVal.mul rad sc.2))

end Sys2Proof.Machine
end

