-- ==== Sys2Proof/Machine/Tableau.lean ====
section
/-!
DEFINITION. Tableau.lean: Tableau descriptors: fields (R87, R92), acceptance (R91, R95, R100, R119, R120), the dot product bit for
bit (R118-R129), tiles, chunks and the epilogue (R97, R101-R106), and commit (R107-R109).
-/
namespace Sys2Proof.Machine

open Sys2Proof

/-- No address (R87). -/
def noAddr : Nat := 0xFFFF_FFFF_FFFF_FFFF

/-- The fields of a Tableau descriptor and of its parameter block (R87, R92). -/
structure TblDesc where
  op : Nat
  fa : Nat
  fb : Nat
  fc : Nat
  fd : Nat
  sealed : Bool
  rmode : Nat
  epi : Nat
  m : Nat
  n : Nat
  k : Nat
  kChunk : Nat
  a : Nat
  b : Nat
  c : Nat
  d : Nat
  scaleA : Nat
  scaleB : Nat
  scaleD : Nat
  lda : Nat
  ldb : Nat
  ldc : Nat
  ldd : Nat
  pipMode : Nat
  pipCount : Nat
  pipBase : Nat
  stream : Nat
  param : Nat
  se : Int
  biasFmt : Nat
  bias : Nat
  lo : FVal
  hi : FVal
  outId : Nat
  sumA : Nat
  sumB : Nat
  deriving DecidableEq, Repr

/-- Read the fields of a descriptor and its parameter block. -/
def tblDesc (x : BitVec 1024) (p : List Byte) : TblDesc where
  op := df x 0 7 0
  fa := df x 1 4 0
  fb := df x 2 4 0
  fc := df x 3 4 0
  fd := df x 4 4 0
  sealed := df x 5 3 3 == 1
  rmode := df x 5 1 0
  epi := df x 6 7 5 * 32 + df x 6 3 0
  m := df x 8 31 0
  n := df x 12 31 0
  k := df x 16 31 0
  kChunk := df x 20 31 0
  a := df x 24 63 0
  b := df x 32 63 0
  c := df x 40 63 0
  d := df x 48 63 0
  scaleA := df x 56 63 0
  scaleB := df x 64 63 0
  scaleD := df x 72 63 0
  lda := df x 80 31 0
  ldb := df x 84 31 0
  ldc := df x 88 31 0
  ldd := df x 92 31 0
  pipMode := descPipMode .tbl x
  pipCount := descPipCount .tbl x
  pipBase := descPipBase .tbl x
  stream := df x 112 31 0
  param := df x 120 63 0
  se := toSigned 16 (leAt p 0 2)
  biasFmt := leAt p 2 1 % 32
  bias := leAt p 8 8
  lo := fp64.decode (leAt p 16 8)
  hi := fp64.decode (leAt p 24 8)
  outId := leAt p 32 8
  sumA := leAt p 40 8
  sumB := leAt p 48 8


/-- EPI_CODE fields (R104), bit 4 being reserved and ignored (R8). -/
def TblDesc.clampEn (t : TblDesc) : Bool := t.epi.testBit 7
/-- BIAS_EN. -/
def TblDesc.biasEn (t : TblDesc) : Bool := t.epi.testBit 6
/-- SCALE_EN. -/
def TblDesc.scaleEn (t : TblDesc) : Bool := t.epi.testBit 5
/-- ACT. -/
def TblDesc.act (t : TblDesc) : Nat := t.epi % 16
/-- C is present. -/
def TblDesc.hasC (t : TblDesc) : Bool := t.c != noAddr
/-- The formats, binary64 where a code is reserved (such a descriptor is rejected). -/
def TblDesc.fmtA (t : TblDesc) : Fmt := (fmtOfCode t.fa).getD .b64
/-- Format of B. -/
def TblDesc.fmtB (t : TblDesc) : Fmt := (fmtOfCode t.fb).getD .b64
/-- Format of C. -/
def TblDesc.fmtC (t : TblDesc) : Fmt := (fmtOfCode t.fc).getD .b64
/-- Format of D. -/
def TblDesc.fmtD (t : TblDesc) : Fmt := (fmtOfCode t.fd).getD .b64
/-- Format of the bias. -/
def TblDesc.fmtBias (t : TblDesc) : Fmt := (fmtOfCode t.biasFmt).getD .b64
/-- FP64 accumulation (R126). -/
def TblDesc.wide (t : TblDesc) : Bool := t.fmtA == .b64 && t.fmtB == .b64
/-- The window of the sums (R46, R126). -/
def TblDesc.win (t : TblDesc) : Window := if t.wide then win192 else win128
/-- R100: the chunk count. -/
def TblDesc.chunks (t : TblDesc) : Nat := if t.kChunk = 0 then 1 else ceilDiv t.k t.kChunk
/-- R101: A needs an exponent summary. -/
def TblDesc.needSumA (t : TblDesc) : Bool := t.pipMode == 2 && (fmtOfCode t.fa).any (fun f => !f.isMx)
/-- R101: B needs an exponent summary. -/
def TblDesc.needSumB (t : TblDesc) : Bool := t.pipMode == 2 && (fmtOfCode t.fb).any (fun f => !f.isMx)
/-- R97: tile rows. -/
def TblDesc.tileM (t : TblDesc) : Nat := if t.m ≤ 32 then 32 else if t.m ≤ 64 then 64 else if t.m ≤ 128 then 128 else 256
/-- R97: tile columns. -/
def TblDesc.tileN (t : TblDesc) : Nat := (if t.wide then 32768 else 65536) / t.tileM
/-- R97: T. -/
def TblDesc.tiles (t : TblDesc) : Nat := ceilDiv t.m t.tileM * ceilDiv t.n t.tileN


/-- R73: bytes of `n` contiguous elements of a format. -/
def Fmt.rowBytes (f : Fmt) (n : Nat) : Nat := if f.isMx then ceilDiv n 32 * f.blockBytes else n * (f.bits / 8)

/-- The bounding extent of `rows` rows of `row` bytes at a stride. -/
def rowsExtent (base stride rows row : Nat) : Nat × Nat :=
  if rows = 0 ∨ row = 0 then (base, 0) else (base, (rows - 1) * stride + row)


/-- Rows (columns for MATMUL) of B and their length. -/
def TblDesc.bRows (t : TblDesc) : Nat := if t.op = 2 then t.k else t.n
/-- Elements in one of them. -/
def TblDesc.bLen (t : TblDesc) : Nat := if t.op = 2 then t.n else t.k

/-- Extents that guard chunks: A and B. With K = 0 no byte of either is read: they are empty and their places are not checked (DESIGN
CHOICE, log entry 29). -/
def TblDesc.abExtents (t : TblDesc) : List (Nat × Nat) :=
  if t.k = 0 then []
  else [rowsExtent t.a t.lda t.m (t.fmtA.rowBytes t.k), rowsExtent t.b t.ldb t.bRows (t.fmtB.rowBytes t.bLen)]

/-- The other extents that are read: scales, C, bias, summaries. -/
def TblDesc.auxExtents (t : TblDesc) : List (Nat × Nat) :=
  (if t.fmtA.isMx then [(t.scaleA, t.m * ceilDiv t.k 32)] else []) ++
  (if t.fmtB.isMx then [(t.scaleB, t.n * ceilDiv t.k 32)] else []) ++
  (if t.hasC then [rowsExtent t.c t.ldc t.m (t.fmtC.rowBytes t.n)] else []) ++
  (if t.biasEn then [(t.bias, t.n * (t.fmtBias.bits / 8))] else []) ++
  (if t.needSumA then [(t.sumA, 2 * t.m)] else []) ++ (if t.needSumB then [(t.sumB, 2 * t.n)] else [])

/-- The extents written: D, its scales, the trailer (R108). -/
def TblDesc.outExtents (t : TblDesc) : List (Nat × Nat) :=
  [rowsExtent t.d t.ldd t.m (t.fmtD.rowBytes t.n)] ++
  (if t.fmtD.isMx then [(t.scaleD, t.m * ceilDiv t.n 32)] else []) ++
  (if t.sealed then [(t.d + t.m * t.ldd, 64)] else [])


/-- R95, R96, R432: may this extent stand where it does for engine `g`? -/
def State.tblExtent (s : State) (g a n : Nat) : Bool :=
  n == 0 ||
  ((match s.storeOfExtent a n with
    | some (.organ i) =>
      i == g && decide (a - (0x0102_0000_0000 + 0x0020_0000 * g) + n ≤ (vget s.eng.organSplit g 0).toNat * 4096)
    | some k => k.shared
    | none => false) && s.attachedExtent a n)

/-- R119: the permitted pairings. -/
def pairingOk (a b : Fmt) : Bool :=
  let fp : Fmt → Bool := fun f => match f with | .b32 | .b16 | .bf16 | .e4m3 | .e5m2 => true | _ => false
  let wide : Fmt → Bool := fun f => match f with | .b32 | .b16 | .bf16 => true | _ => false
  (a == .b64 && b == .b64) || (fp a && fp b) || (a == .int8 && b == .int8) || (a.isMx && b.isMx) ||
    (a.isMx && wide b) || (wide a && b.isMx)

/-- binary64, binary32, binary16 or BF16. -/
def Fmt.plainFloat : Fmt → Bool
  | .b64 | .b32 | .b16 | .bf16 => true
  | _ => false

/-- R91, DESC_OP. -/
def tblBadOp (t : TblDesc) : Bool :=
  decide (t.op > 2) || decide (t.rmode > 1) || t.pipMode == 3 || (t.op == 2 && t.fmtB.isMx) || decide (t.act > 6) ||
  (t.act != 0 && (fmtOfCode t.fd).any (fun f => f == .b64 || f == .int32)) ||
  (t.fmtD == .int32 && (t.scaleEn || t.biasEn || t.clampEn)) ||
  (t.param == noAddr && (t.epi != 0 || t.sealed || t.needSumA || t.needSumB)) ||
  (t.clampEn && (t.lo.isNan || t.hi.isNan || FVal.lt t.hi t.lo)) ||
  (t.scaleEn && (decide (t.se < -256) || decide (t.se > 256))) ||
  (t.needSumA && t.sumA == noAddr) || (t.needSumB && t.sumB == noAddr)

/-- R91, DESC_FORMAT (R68, R119, R120). -/
def tblBadFormat (t : TblDesc) : Bool :=
  let both := t.fmtA == .int8 && t.fmtB == .int8
  (fmtOfCode t.fa).isNone || (fmtOfCode t.fb).isNone || (fmtOfCode t.fd).isNone ||
  !t.fmtA.tblOperand || !t.fmtB.tblOperand || !scaleAgrees t.fmtA t.scaleA || !scaleAgrees t.fmtB t.scaleB ||
  !scaleAgrees t.fmtD t.scaleD || !pairingOk t.fmtA t.fmtB || !t.fmtD.tblOutput both ||
  (t.hasC && ((fmtOfCode t.fc).isNone || !(t.fmtC.plainFloat || (t.fmtC == .int32 && both && t.fmtD == .int32)))) ||
  (t.biasEn && ((fmtOfCode t.biasFmt).isNone || !t.fmtBias.plainFloat))

/-- R91, DESC_DIM (R100). -/
def tblBadDim (t : TblDesc) : Bool :=
  t.m == 0 || decide (t.m > 1048576) || t.n == 0 || decide (t.n > 1048576) || decide (t.k > 4194304) ||
  (if t.pipMode = 0 then t.pipCount != 0 else t.pipCount != t.chunks || t.pipCount == 0 || decide (t.pipCount > 64)) ||
  decide (t.pipBase + t.pipCount > 4096) || ((t.fmtA.isMx || t.fmtB.isMx) && t.kChunk % 32 != 0) ||
  (t.pipMode == 2 && t.tiles != 1)

/-- R91, DESC_ALIGN. -/
def tblBadAlign (t : TblDesc) : Bool :=
  t.a % 64 != 0 || t.b % 64 != 0 || t.d % 64 != 0 || t.lda % 64 != 0 || t.ldb % 64 != 0 || t.ldd % 64 != 0 ||
  decide (t.lda < t.fmtA.rowBytes t.k) || decide (t.ldb < t.fmtB.rowBytes t.bLen) || decide (t.ldd < t.fmtD.rowBytes t.n) ||
  (t.hasC && (t.c % 64 != 0 || t.ldc % 64 != 0 || decide (t.ldc < t.fmtC.rowBytes t.n)))

/-- R91, DESC_ADDR. 'Scale' is taken as the operand scales: D's extent is not held against SCALE_D or the trailer (DESIGN CHOICE, log
entry 29). -/
def tblBadAddr (s : State) (g : Nat) (t : TblDesc) : Bool :=
  (t.abExtents ++ t.auxExtents ++ t.outExtents).any (fun x => !(s.tblExtent g x.1 x.2)) ||
  anyOverlap t.outExtents (t.abExtents ++ t.auxExtents)

/-- R90, R91: a NOP. -/
def nopStatus (k : EngKind) (s : State) (x : BitVec 1024) : Nat :=
  let n := descPipCount k x
  firstFail [(descPipMode k x == 3, stOp),
    (!(if descPipMode k x = 0 then n == 0 else decide (1 ≤ n) && decide (n ≤ 64)) || decide (descPipBase k x + n > 4096), stDim),
    (!(relValid s (descRelease k x)), stRelease)]

/-- R91, R483: acceptance of a Tableau descriptor. -/
def tblCheck (g : Nat) (s : State) (sub : Submission) : Accepted :=
  let x := sub.desc
  if descOp x = 0 then { status := nopStatus .tbl s x }
  else
    let pa := df x 120 63 0
    match (if pa = noAddr then .ok [] else s.readBlock (s.tblExtent g pa 64) pa 64) with
    | .error st => { status := st }
    | .ok p =>
      let t := tblDesc x p
      { image := p
        status := firstFail [(tblBadOp t, stOp), (tblBadFormat t, stFormat), (tblBadDim t, stDim), (tblBadAlign t, stAlign),
          (tblBadAddr s g t, stAddr), (!(relValid s (descRelease .tbl x)), stRelease)] }

/-- TBL_ACCEPT (R91): a descriptor enters the FIFO. -/
def execTblAccept (i : Fin 64) (s : State) : Host.Outcome State Fault Refusal := inService s (State.accept .tbl i (tblCheck i))

/-! ### Operands (R88, R89, R121) -/

/-- A row of A or a column of B: its element values before scales, its block scales, the maximum of E over its elements, and
which of its elements were flushed (none listed in an MX format). -/
structure VecOp where
  vals : List FVal
  scales : List Nat
  e : Option Int
  flushed : List Bool
  deriving DecidableEq, Repr

/-- One element of a non-MX format at an address. -/
def State.elemAt (s : State) (m : Memory) (f : Fmt) (flush : Bool) (a : Nat) : FVal × Bool :=
  f.decode flush (leNat (s.readIn m a (f.bits / 8)))

/-- `n` elements at an address, `stride` bytes apart. -/
def State.plainVec (s : State) (m : Memory) (f : Fmt) (flush : Bool) (a stride n : Nat) : VecOp :=
  let xs := (upTo n).map (fun k => s.elemAt m f flush (a + k * stride))
  let vs := xs.map Prod.fst
  { vals := vs, scales := [], e := maxE vs, flushed := xs.map Prod.snd }

/-- Was one of elements [lo, hi) flushed? -/
def VecOp.flushedIn (v : VecOp) (lo hi : Nat) : Bool := ((v.flushed.drop lo).take (hi - lo)).any id

/-- `n` elements of an MX row at an address, and its scales. -/
def State.mxVec (s : State) (m : Memory) (f : Fmt) (a scale n : Nat) : VecOp :=
  let nb := ceilDiv n 32
  let vals := ((upTo nb).map (fun b =>
    let bytes := s.readIn m (a + b * f.blockBytes) f.blockBytes
    (upTo (min 32 (n - 32 * b))).map (fun j => mxElemValue f (blockElem f bytes j)))).flatten
  { vals, scales := (s.readIn m scale nb).map (fun x => x.toNat), e := none, flushed := [] }

/-- Row `i` of A (R88, R89). -/
def State.rowA (s : State) (m : Memory) (flush : Bool) (t : TblDesc) (i : Nat) : VecOp :=
  if t.fmtA.isMx then s.mxVec m t.fmtA (t.a + i * t.lda) (t.scaleA + i * ceilDiv t.k 32) t.k
  else s.plainVec m t.fmtA flush (t.a + i * t.lda) (t.fmtA.bits / 8) t.k

/-- Column `j` of B (R88, R89). -/
def State.colB (s : State) (m : Memory) (flush : Bool) (t : TblDesc) (j : Nat) : VecOp :=
  let size := t.fmtB.bits / 8
  if t.fmtB.isMx then s.mxVec m t.fmtB (t.b + j * t.ldb) (t.scaleB + j * ceilDiv t.k 32) t.k
  else if t.op = 2 then s.plainVec m t.fmtB flush (t.b + j * size) t.ldb t.k
  else s.plainVec m t.fmtB flush (t.b + j * t.ldb) size t.k

/-! ### Terms and anchors (R122-R125) -/

/-- R123: the exact sum of a block's products. -/
def blockSum (ps : List FVal) : FVal :=
  if ps.any FVal.isNan then .nan
  else match ps.find? FVal.isInf with
    | some v => if ps.any (fun p => p.isInf && p.neg != v.neg) then .nan else .inf v.neg
    | none =>
      let v := ps.foldl (FVal.add false) .zero
      if v.isZero then .fin (ps.all FVal.neg) 0 0 else v

/-- The unbiased exponent of a scale. -/
def scaleExp (x : Nat) : Int := (x : Int) - 127

/-- R123, R124: the terms of blocks [lo/32, …) of an MX or mixed pairing, over products `ps` of elements lo, lo+1, …. -/
def blockTerms (sa sb : List Nat) (mxA mxB : Bool) : Nat → Nat → List FVal → List FVal
  | 0, _, _ => []
  | fuel + 1, b, ps =>
    if ps.isEmpty then []
    else
      let x := if mxA then sa.getD b 127 else 127
      let y := if mxB then sb.getD b 127 else 127
      let v := if x = 255 ∨ y = 255 then .nan else (blockSum (ps.take 32)).scale (scaleExp x + scaleExp y)
      v :: blockTerms sa sb mxA mxB fuel (b + 1) (ps.drop 32)

/-- The terms that elements [lo, hi) of K give, before any epilogue scale (R122-R124). -/
def dotTerms (t : TblDesc) (va vb : VecOp) (lo hi : Nat) : List FVal :=
  let ps := List.zipWith FVal.mul ((va.vals.drop lo).take (hi - lo)) ((vb.vals.drop lo).take (hi - lo))
  if t.fmtA.isMx || t.fmtB.isMx then blockTerms va.scales vb.scales t.fmtA.isMx t.fmtB.isMx (ps.length / 32 + 1) (lo / 32) ps else ps

/-- Largest scale exponent over blocks, those with a scale of 0xFF left out (R125). -/
def maxScale (xs : List (Option Int)) : Option Int := xs.foldl maxExpo none

/-- Add to an optional exponent. -/
def addExpo (k : Int) (x : Option Int) : Option Int := x.map (fun e => e + k)

/-- R125 stage 1: the base anchor; none where a maximum is empty. R125 and R58 speak of all of them being empty; where exactly one is, the
model drops the whole base anchor, since no product of the element is then finite and nonzero (DESIGN CHOICE, log entry 29). -/
def baseAnchor (t : TblDesc) (va vb : VecOp) : Option Int :=
  let sc (x : Nat) : Option Int := if x = 255 then none else some (scaleExp x)
  if t.fmtA.isMx && t.fmtB.isMx then
    addExpo (t.fmtA.bound + t.fmtB.bound + 5) (maxScale (List.zipWith
      (fun x y => match sc x, sc y with | some p, some q => some (p + q) | _, _ => none) va.scales vb.scales))
  else if t.fmtA.isMx then
    match maxScale (va.scales.map sc), vb.e with
    | some p, some e => some (p + t.fmtA.bound + e + 6)
    | _, _ => none
  else if t.fmtB.isMx then
    match maxScale (vb.scales.map sc), va.e with
    | some p, some e => some (p + t.fmtB.bound + e + 6)
    | _, _ => none
  else match va.e, vb.e with
    | some p, some q => some (p + q + 2)
    | _, _ => none

/-- R125: the anchor of an element, from the base anchor and the scaled addends. -/
def elemAnchor (t : TblDesc) (base : Option Int) (adds : List FVal) : Int :=
  let a := addExpo (if t.scaleEn then t.se else 0) base
  (adds.foldl (fun m v => maxExpo m (addExpo 1 v.expo)) a).getD 0

/-- The epilogue scale of a term (R104, R124). -/
def TblDesc.scaled (t : TblDesc) (v : FVal) : FVal := if t.scaleEn then v.scale t.se else v

/-- The addends of element (i, j): C scaled, bias not (R124), and whether one was flushed. -/
def State.addends (s : State) (m : Memory) (flush : Bool) (t : TblDesc) (i j : Nat) : List FVal × Bool :=
  let c := if t.hasC then
      let x := s.elemAt m t.fmtC flush (t.c + i * t.ldc + j * (t.fmtC.bits / 8))
      [(t.scaled x.1, x.2)] else []
  let b := if t.biasEn then [s.elemAt m t.fmtBias flush (t.bias + j * (t.fmtBias.bits / 8))] else []
  ((c ++ b).map Prod.fst, (c ++ b).any Prod.snd)

/-- A summary entry (R101). -/
def State.summary (s : State) (m : Memory) (base i : Nat) : Option Int :=
  let x := leNat (s.readIn m (base + 2 * i) 2)
  if x = 0x8000 then none else some (toSigned 16 x)

/-- The operand with the E that a summary gives in place of its own (R101). -/
def VecOp.withSummary (v : VecOp) (need : Bool) (e : Option Int) : VecOp := if need then { v with e := e } else v

/-! ### Output elements (R104, R127, R128) -/

/-- R104: the exact clamp. -/
def clampV (lo hi v : FVal) : FVal := if v.isNan then v else if FVal.lt v lo then lo else if FVal.lt hi v then hi else v

/-- The value of an element ahead of its last encoding (clamped sum, or clamped activation result), and its flags so far: those of the
activation's own roundings and flushes are among them, which R129 and R105 leave open (DESIGN CHOICE, log entry 16). -/
def epilogueValue (t : TblDesc) (flush : Bool) (anchor : Int) (acc : ASum) : FVal × AFlags :=
  let v := acc.value t.win anchor
  let cl (v : FVal) : FVal := if t.clampEn then clampV t.lo t.hi v else v
  let f0 := { acc.flags with anchorExceeded := false }
  if t.act = 0 then (cl v, f0)
  else
    let u := fp32.encode .rne flush v
    let a := activation t.act flush u.1
    (cl (fp32.decode a.1), (f0.or u.2).or a.2)

/-- The rounding of element (i, j) (R127). -/
def TblDesc.rnd (t : TblDesc) (key : BitVec 128) (i j : Nat) : Rnd := rndFor key (t.rmode == 1) t.stream (i * t.n + j) 0

/-- One tile's cell: its sum and its value with flags. -/
structure TblCell where
  sum : ASum
  v : FVal
  fl : AFlags
  deriving DecidableEq, Repr

/-- Split a list into pieces of `n` (`fuel` pieces at most). -/
def pieces {α : Type} (n : Nat) : Nat → List α → List (List α)
  | 0, _ => []
  | k + 1, xs => if xs.isEmpty then [] else xs.take n :: pieces n k (xs.drop n)

/-- The bytes that columns j0 … of row i write, its scale bytes, and the flags (R127, R128). -/
def rowOutput (t : TblDesc) (key : BitVec 128) (flush : Bool) (i j0 : Nat) (vs : List FVal) : List Byte × List Byte × AFlags :=
  if t.fmtD.isMx then
    let bs := pieces 32 (vs.length / 32 + 1) vs
    let es := (List.zip (upTo bs.length) bs).map (fun qb =>
      encodeMxBlock t.fmtD (fun p => t.rnd key i (j0 + 32 * qb.1 + p)) qb.2)
    ((es.map (fun e => packBlock t.fmtD e.codes)).flatten, es.map (fun e => BitVec.ofNat 8 e.scale), AFlags.all (es.map (fun e => e.flags)))
  else
    let es := (List.zip (upTo vs.length) vs).map (fun jv => t.fmtD.encode (t.rnd key i (j0 + jv.1)) flush jv.2)
    ((es.map (fun e => leBytes (t.fmtD.bits / 8) e.1)).flatten, [], AFlags.all (es.map Prod.snd))

/-- Rows and columns of tile `x` (R97), as (first, number). -/
def TblDesc.tileAt (t : TblDesc) (x : Nat) : (Nat × Nat) × (Nat × Nat) :=
  let nc := ceilDiv t.n t.tileN
  let i0 := x / nc * t.tileM
  let j0 := x % nc * t.tileN
  ((i0, min t.tileM (t.m - i0)), (j0, min t.tileN (t.n - j0)))

/-- Write one row's output. -/
def State.writeRow (t : TblDesc) (i j0 : Nat) (out : List Byte × List Byte × AFlags) (s : State) : State :=
  let at_ := if t.fmtD.isMx then j0 / 32 * t.fmtD.blockBytes else j0 * (t.fmtD.bits / 8)
  let s := s.writeMem (t.d + i * t.ldd + at_) out.1
  if t.fmtD.isMx then s.writeMem (t.scaleD + i * ceilDiv t.n 32 + j0 / 32) out.2.1 else s

/-- The anchor and addends of element (i, j), with operands as the anchors take them. -/
def State.cellAnchor (s : State) (m : Memory) (flush : Bool) (t : TblDesc) (va vb : VecOp) (i j : Nat) : Int × List FVal × Bool :=
  let ads := s.addends m flush t i j
  let va := va.withSummary t.needSumA (if t.needSumA then s.summary m t.sumA i else none)
  let vb := vb.withSummary t.needSumB (if t.needSumB then s.summary m t.sumB j else none)
  (elemAnchor t (baseAnchor t va vb) ads.1, ads.1, ads.2)

/-- The cell (i, j): `part` holds its products where chunks have gathered them (PIP_MODE 2). -/
def State.tblCell (s : State) (m : Memory) (flush : Bool) (t : TblDesc) (va vb : VecOp) (part : Option ASum) (i j : Nat) : TblCell :=
  let an := s.cellAnchor m flush t va vb i j
  let prods := match part with
    | some p => p
    | none => ASum.terms t.win an.1 {} ((dotTerms t va vb 0 t.k).map t.scaled)
  let acc := ASum.terms t.win an.1 prods an.2.1
  let ev := epilogueValue t flush an.1 acc
  { sum := acc, v := ev.1, fl := ev.2.or { flushed := an.2.2 || (part.isNone && (va.flushed.any id || vb.flushed.any id)) } }

/-- The head's descriptor with its parameter block. -/
def Engine.tblHead (e : Engine) : TblDesc :=
  match e.fifo with
  | [] => tblDesc 0 []
  | x :: _ => tblDesc x.sub.desc x.image

/-- FLUSH recorded for the head. -/
def Engine.headFlush (e : Engine) : Bool :=
  match e.fifo with
  | [] => false
  | x :: _ => x.sub.flush

/-- R103, R111: a Tableau reads poison among these extents. -/
def State.readsPoison (s : State) (xs : List (Nat × Nat)) : Bool := xs.any (fun x => s.poisonedIn x.1 x.2)

/-- Every transfer of the extents is decoded as it is read (R242). -/
def State.settleAll (xs : List (Nat × Nat)) (s : State) : State := xs.foldl (fun s x => s.settle x.1 x.2) s

/-- Rows of A and columns of B that the cells of a chunk read, lying in elements [lo, hi) of K. -/
def TblDesc.chunkExtents (t : TblDesc) (lo hi : Nat) : List (Nat × Nat) :=
  let sub (f : Fmt) : Nat × Nat := (f.rowBytes lo, f.rowBytes hi - f.rowBytes lo)
  let xa := sub t.fmtA
  let xb := sub t.fmtB
  (upTo t.m).map (fun i => (t.a + i * t.lda + xa.1, xa.2)) ++
  (if t.op = 2 then (upTo (hi - lo)).map (fun k => (t.b + (lo + k) * t.ldb, t.fmtB.rowBytes t.n))
   else (upTo t.n).map (fun j => (t.b + j * t.ldb + xb.1, xb.2)))

/-- The bytes read besides A and B: scales, C row by row, bias, summaries. -/
def TblDesc.auxReads (t : TblDesc) : List (Nat × Nat) :=
  { t with c := noAddr }.auxExtents ++
  (if t.hasC then (upTo t.m).map (fun i => (t.c + i * t.ldc, t.fmtC.rowBytes t.n)) else [])

/-- Memory of the head's descriptor is held (R247, R384). -/
def State.tblWaits (s : State) (i : Nat) : Bool :=
  let t := (s.engine .tbl i).tblHead
  s.engWaits .tbl i (t.abExtents ++ t.auxExtents ++ t.outExtents)

/-- R96: are operands staged: does an extent that is read stand in HBM or a Suit buffer? -/
def State.stages (s : State) (t : TblDesc) : Bool :=
  (t.abExtents ++ t.auxExtents).any (fun x => decide (x.2 > 0) && (s.storeOfExtent x.1 x.2).any Store.shared)

/-- R96, R476: as it stages operands the engine overwrites the Organ from STAGE_BASE to its top. -/
def State.stage (g : Nat) (t : TblDesc) (s : State) : State :=
  if s.stages t then s.onMem (Memory.stageOrgan g (vget s.eng.organSplit g 0).toNat) else s

/-- What a Tableau does when arithmetic begins: a NOP commits at once (R90); poison among the operands ends it (R111). -/
def State.tblStart (i : Nat) (s : State) : State :=
  let e := s.engine .tbl i
  if descOp e.headDesc = 0 then s.finish .tbl i stOk
  else if s.tblWaits i then s
  else
    let t := e.tblHead
    let xs := if t.pipMode = 2 then t.auxReads else t.chunkExtents 0 t.k ++ t.auxReads
    let s := s.settleAll xs
    if s.readsPoison xs then s.finishPoison .tbl i
    else
      let s := (s.stage i t).beginRun .tbl i
      s.onHead .tbl i (fun h => { h with run := { h.run with wide := t.wide } })

/-- R101: the lowest unconsumed chunk whose pip is up. -/
def State.nextChunk (s : State) (i : Nat) : Option Nat :=
  let e := s.engine .tbl i
  let t := e.tblHead
  (upTo t.pipCount).find? (fun c => !(e.head.run.chunks.contains c) && s.pipUp (engineSuit .tbl i) (t.pipBase + c))

/-- R113: MACs per ac of an operand format. -/
def macRate (f : Nat) : Nat :=
  match fmtOfCode f with
  | some x => match x.bits with
    | 4 => 524288
    | 16 => 65536
    | 32 => 16384
    | 64 => 5120
    | _ => 262144
  | none => 262144

/-- R113, R450: MACs over the cells of a tile, at the lower rate of the two operands. -/
def State.macs (i : Nat) (t : TblDesc) (n : Nat) (s : State) : State :=
  s.pulseRate (.tbl (Fin.ofNat 64 i)) 0x0101 n (min (macRate t.fa) (macRate t.fb))

/-- CHUNK_CONSUME (R101, R102): in PIP_MODE 2 the lowest chunk whose pip is up is added; a term that reaches 2^A aborts. -/
def execChunkConsume (i : Fin 64) (s : State) : Host.Outcome State Fault Refusal :=
  inService s (fun s =>
    let e := s.engine .tbl i
    let t := e.tblHead
    match s.nextChunk i with
    | none => s
    | some c =>
      if e.head.phase ≠ .running ∨ t.pipMode ≠ 2 ∨ !s.pwr.slotOn ∨ s.tblWaits i then s
      else
        let lo := c * t.kChunk
        let hi := if t.kChunk = 0 then t.k else min ((c + 1) * t.kChunk) t.k
        let xs := t.chunkExtents lo hi
        let s := s.settleAll xs
        if s.readsPoison xs then s.finishPoison .tbl i
        else
          let flush := e.headFlush
          -- elements from the chunk's bytes as they now stand; anchors, scales and addends as they stood at the start
          let asA := (upTo t.m).map (fun i => (s.rowA s.mem flush t i, s.rowA e.head.snap flush t i))
          let asB := (upTo t.n).map (fun j => (s.colB s.mem flush t j, s.colB e.head.snap flush t j))
          let cell (i j : Nat) (a b : VecOp × VecOp) : ASum :=
            let va := { a.1 with scales := a.2.scales }
            let vb := { b.1 with scales := b.2.scales }
            let an := s.cellAnchor e.head.snap flush t a.2 b.2 i j
            ASum.terms t.win an.1 (e.head.run.sums.getD (i * t.n + j) {}) ((dotTerms t va vb lo hi).map t.scaled)
          let sums := ((List.zip (upTo t.m) asA).map (fun ia => (List.zip (upTo t.n) asB).map (fun jb => cell ia.1 jb.1 ia.2 jb.2))).flatten
          let fl := (asA.any (fun a => a.1.flushedIn lo hi)) || (asB.any (fun b => b.1.flushedIn lo hi))
          let s := ((s.stage i t).onHead .tbl i (Head.stamped s.stamp)).macs i t (t.m * t.n * (hi - lo))
          if (t.needSumA || t.needSumB) && sums.any (fun x => x.ax) then (s.engErr .tbl i 4).finish .tbl i stSummary
          else
            s.onHead .tbl i (fun h => { h with
              flags := h.flags.or { flushed := fl }
              run := { h.run with sums, chunks := h.run.chunks ++ [c] } }))

/-- TBL_TILE_OUTPUT (R97, R104-R107, R127-R129): the next tile's arithmetic ends and its outputs are written. -/
def execTblTileOutput (i : Fin 64) (s : State) : Host.Outcome State Fault Refusal :=
  inService s (fun s =>
    let e := s.engine .tbl i
    let t := e.tblHead
    if e.head.phase ≠ .running ∨ !s.pwr.slotOn ∨ s.tblWaits i ∨ e.head.run.tiles ≥ t.tiles ∨
        (t.pipMode = 2 ∧ e.head.run.chunks.length < t.pipCount) then s
    else
      let tl := t.tileAt e.head.run.tiles
      let s := (s.stage i t).macs i t (if t.pipMode = 2 then 0 else tl.1.2 * tl.2.2 * t.k)
      let flush := e.headFlush
      let m := e.head.snap
      let i0 := tl.1.1
      let j0 := tl.2.1
      let rows := (upTo tl.1.2).map (fun r => s.rowA m flush t (i0 + r))
      let cols := (upTo tl.2.2).map (fun c => s.colB m flush t (j0 + c))
      let cells := (List.zip (upTo tl.1.2) rows).map (fun ra => (List.zip (upTo tl.2.2) cols).map (fun cb =>
        let ii := i0 + ra.1
        let jj := j0 + cb.1
        s.tblCell m flush t ra.2 cb.2 (if t.pipMode = 2 then some (e.head.run.sums.getD (ii * t.n + jj) {}) else none) ii jj))
      let s := (List.zip (upTo tl.1.2) cells).foldl (fun s rc =>
        let out := rowOutput t s.eng.key flush (i0 + rc.1) j0 (rc.2.map (fun c => c.v))
        let s := s.writeRow t (i0 + rc.1) j0 out
        let fl := out.2.2.or (AFlags.all (rc.2.map (fun c => c.fl)))
        s.onHead .tbl i (fun h => { h with flags := h.flags.or fl })) s
      s.onHead .tbl i (fun h => { h with
        run := { h.run with tiles := h.run.tiles + 1, sums := (cells.map (fun row => row.map (fun c => c.sum))).flatten } }))

/-- TBL_COMMIT (R107-R109, R112): every tile is out: the trailer of a sealed write, then the completion; with the ring full neither is
written yet. -/
def execTblCommit (i : Fin 64) (s : State) : Host.Outcome State Fault Refusal :=
  inService s (fun s =>
    let e := s.engine .tbl i
    let t := e.tblHead
    if e.head.phase = .running ∧ e.head.run.tiles ≥ t.tiles ∧ e.cq.full then s.onHead .tbl i (fun h => { h with held := true })
    else if e.head.phase = .running ∧ e.head.run.tiles ≥ t.tiles ∧ !(s.tblWaits i) then
      let s := if t.sealed then s.writeMem (t.d + t.m * t.ldd) (s.sealTrailer (t.m * t.ldd) t.outId) else s
      s.finish .tbl i stOk
    else s)

/-! ### TBL_ORGAN_SPLIT (R116) -/

/-- A write of STAGE_BASE: at most 384; ignored with SPLIT_BUSY while the FIFO holds a descriptor. -/
def State.writeOrganSplit (i : Nat) (v : Nat) (s : State) : State :=
  if (s.engine .tbl i).fifo.isEmpty then
    s.onEng (fun x => { x with organSplit := vput x.organSplit i (BitVec.ofNat 9 (min (v % 512) 384)) })
  else s.engErr .tbl i 32

/-- ORGAN_SPLIT_WRITE (R116). -/
def execOrganSplitWrite (i : Fin 64) (v : W64) (s : State) : Host.Outcome State Fault Refusal :=
  inService s (fun s => (s.writeOrganSplit i v.toNat).noted (.eng .tbl) i 0x0B0 0 v.toNat)

end Sys2Proof.Machine
end

