-- ==== Sys2Proof/Machine/Atomizer.lean ====
section
/-!
DEFINITION. Atomizer.lean: Atomizer descriptors, stream tables and programs (R134-R137, R141, R142), acceptance (R156), the
micro-operations lane by lane (R132, R133, R139-R145), reductions (R146-R149), SOFTMAX (R150), and commit (R157). The anchor
pass of R147 computes nothing that the terms themselves do not give, so it is no separate step here.
-/
namespace Sys2Proof.Machine

open Sys2Proof

/-! ### Descriptor, stream table, program -/

/-- R135: a stream-table entry. -/
structure AtmStream where
  base : Nat
  scale : Nat
  code : Nat
  rkind : Nat
  s1 : Nat
  s2 : Nat
  s3 : Nat
  s4 : Nat
  deriving DecidableEq, Repr

/-- R135: entry `i` of a stream table. -/
def atmStream (tab : List Byte) (i : Nat) : AtmStream :=
  let b := slice tab (64 * i) 64
  ⟨leAt b 0 8, leAt b 8 8, leAt b 16 1 % 32, leAt b 17 1 % 16, leAt b 24 8, leAt b 32 8, leAt b 40 8, leAt b 48 8⟩

/-- The format of a stream, binary64 where a code is reserved (such a descriptor is rejected). -/
def AtmStream.fmt (x : AtmStream) : Fmt := (fmtOfCode x.code).getD .b64

/-- R134: the fields of a descriptor, with its stream table. -/
structure AtmDesc where
  op : Nat
  redDim : Nat
  ndim : Nat
  en : Nat
  stream : Nat
  e0 : Nat
  e1 : Nat
  e2 : Nat
  e3 : Nat
  e4 : Nat
  prog : Nat
  stab : Nat
  tab : List Byte
  deriving DecidableEq, Repr

/-- Read the fields of a descriptor. -/
def atmDesc (x : BitVec 1024) (tab : List Byte) : AtmDesc where
  op := df x 0 7 0
  redDim := df x 1 3 3
  ndim := df x 1 2 0
  en := df x 2 15 0
  stream := df x 4 31 0
  e0 := df x 8 31 0
  e1 := df x 12 31 0
  e2 := df x 16 31 0
  e3 := df x 20 31 0
  e4 := df x 24 31 0
  prog := df x 32 63 0
  stab := df x 40 63 0
  tab := tab

/-- Stream `i`. -/
def AtmDesc.st (d : AtmDesc) (i : Nat) : AtmStream := atmStream d.tab i

/-- Is stream `i` enabled (SOFTMAX ignores the RD entries)? -/
def AtmDesc.on (d : AtmDesc) (i : Nat) : Bool := d.en.testBit i && !(d.op == 2 && decide (6 ≤ i))

/-- The enabled streams. -/
def AtmDesc.streams (d : AtmDesc) : List Nat := (upTo 10).filter d.on

/-- Are reductions enabled? -/
def AtmDesc.hasRd (d : AtmDesc) : Bool := d.streams.any (fun i => decide (6 ≤ i))

/-- R141: a micro-operation word. -/
structure MicroOp where
  opc : Nat
  ty : Nat
  rm : Bool
  dst : Nat
  a : Nat
  b : Nat
  c : Nat
  aux : Nat
  deriving DecidableEq, Repr

/-- R141: the fields of a word. -/
def microOp (w : Nat) : MicroOp :=
  ⟨field w 63 56, field w 55 53, w.testBit 52, field w 51 46, field w 45 40, field w 39 34, field w 33 28, field w 27 24⟩

/-- R143: the operations. -/
inductive AOp where
  | nop | ld | st | add | sub | mul | fma | div | rcp | sqrt | min | max | abs | neg | cvt | cmp | sel | maskr
  | trans (f : TFun)
  /-- the activation code of R105 -/
  | act (a : Nat)
  | red
  deriving DecidableEq, Repr

/-- R143: the OPC table. -/
def aopOf : Nat → Option AOp
  | 0x00 => some .nop
  | 0x01 => some .ld
  | 0x02 => some .st
  | 0x10 => some .add
  | 0x11 => some .sub
  | 0x12 => some .mul
  | 0x13 => some .fma
  | 0x14 => some .div
  | 0x15 => some .rcp
  | 0x16 => some .sqrt
  | 0x17 => some .min
  | 0x18 => some .max
  | 0x19 => some .abs
  | 0x1A => some .neg
  | 0x1B => some .cvt
  | 0x1C => some .cmp
  | 0x1D => some .sel
  | 0x1E => some .maskr
  | 0x20 => some (.trans .exp2)
  | 0x21 => some (.trans .log2)
  | 0x22 => some (.trans .exp)
  | 0x23 => some (.trans .log)
  | 0x24 => some (.trans .tanh)
  | 0x25 => some (.trans .erf)
  | 0x26 => some (.trans .rsqrt)
  | 0x27 => some (.trans .sin)
  | 0x28 => some (.trans .cos)
  | 0x30 => some (.act 5)
  | 0x31 => some (.act 4)
  | 0x32 => some (.act 2)
  | 0x33 => some (.act 3)
  | 0x40 => some .red
  | _ => none

/-- R143: the types of an operation. -/
def AOp.types : AOp → List Nat
  | .div | .rcp | .sqrt => [0, 1, 2, 3]
  | .maskr => [4]
  | .trans _ => [0, 1, 2]
  | .act _ => [0]
  | _ => [0, 1, 2, 3, 4]

/-- How many of SRCA, SRCB, SRCC an operation reads. -/
def AOp.sources : AOp → Nat
  | .nop | .ld => 0
  | .add | .sub | .mul | .div | .min | .max | .cmp => 2
  | .fma | .sel => 3
  | _ => 1

/-- Does the operation write DST? -/
def AOp.writes : AOp → Bool
  | .nop | .st | .maskr | .red => false
  | _ => true

/-- R132: the format of a type. -/
def tyFmt : Nat → Fmt
  | 0 => .b32
  | 1 => .bf16
  | 2 => .b16
  | 3 => .b64
  | _ => .int32

/-- The type in which source `n` is read. -/
def MicroOp.srcTy (m : MicroOp) (o : AOp) (n : Nat) : Nat :=
  match o with
  | .cvt => m.aux
  | .sel => if n = 2 then 4 else m.ty
  | _ => m.ty

/-- The selectors of the sources that an operation reads, with their types. -/
def MicroOp.srcs (m : MicroOp) (o : AOp) : List (Nat × Nat) :=
  (List.zip (upTo 3) [m.a, m.b, m.c]).take o.sources |>.map (fun nx => (nx.2, m.srcTy o nx.1))

/-- R137: a program. -/
structure AtmProg where
  nops : Nat
  nphase : Nat
  l0 : Nat
  l1 : Nat
  l2 : Nat
  consts : List Nat
  ops : List MicroOp
  deriving DecidableEq, Repr

/-- R137: read a program image. -/
def atmProg (b : List Byte) : AtmProg :=
  let n := leAt b 0 2
  { nops := n, nphase := leAt b 2 1, l0 := leAt b 4 2, l1 := leAt b 6 2, l2 := leAt b 8 2
    consts := (upTo 16).map (fun i => leAt b (64 + 8 * i) 8)
    ops := (upTo (min n 256)).map (fun i => microOp (leAt b (192 + 8 * i) 8)) }

/-- The phase that holds position `p`. -/
def AtmProg.phaseOf (g : AtmProg) (p : Nat) : Nat := if p < g.l0 then 0 else if p < g.l0 + g.l1 then 1 else 2

/-- The micro-operations of a phase, with their positions. -/
def AtmProg.phase (g : AtmProg) (ph : Nat) : List (Nat × MicroOp) :=
  (List.zip (upTo g.ops.length) g.ops).filter (fun x => g.phaseOf x.1 == ph)

/-- The phases that hold a RED of slot `r`. -/
def AtmProg.redPhases (g : AtmProg) (r : Nat) : List Nat :=
  ((List.zip (upTo g.ops.length) g.ops).filter (fun x => x.2.opc == 0x40 && x.2.aux == r)).map (fun x => g.phaseOf x.1)

/-! ### Addresses (R136) -/

/-- ρ of R136. -/
def AtmDesc.rho (d : AtmDesc) (i1 i2 i3 i4 : Nat) : Nat := i1 + d.e1 * (i2 + d.e2 * (i3 + d.e3 * i4))

/-- The element array's size unit of a stream: MAXEXP writes 16 bits (R148). -/
def AtmDesc.elemSize (d : AtmDesc) (i : Nat) : Nat :=
  if 6 ≤ i ∧ (d.st i).rkind = 9 then 2 else (d.st i).fmt.bits / 8

/-- Is a stream packed in MX blocks? -/
def AtmDesc.mx (d : AtmDesc) (i : Nat) : Bool := (d.st i).fmt.isMx && !(decide (6 ≤ i) && (d.st i).rkind == 9)

/-- Where the row (i1, i2, i3, i4) of a stream begins. -/
def AtmStream.row (x : AtmStream) (i1 i2 i3 i4 : Nat) : Nat := x.base + i1 * x.s1 + i2 * x.s2 + i3 * x.s3 + i4 * x.s4

/-- The byte offset of element i0, at the start of a block for MX. -/
def AtmDesc.off0 (d : AtmDesc) (i i0 : Nat) : Nat :=
  if d.mx i then i0 / 32 * (d.st i).fmt.blockBytes else i0 * d.elemSize i

/-- The extents of an enabled stream: elements and scales; none for an RD stream that writes nothing. -/
def AtmDesc.extents (d : AtmDesc) (i : Nat) : List (Nat × Nat) :=
  let x := d.st i
  let rd := decide (6 ≤ i)
  if rd && x.base == noAddr then []
  else
    let n0 := if rd && d.redDim == 0 then 1 else d.e0
    let n1 := if rd && d.redDim == 1 then 1 else d.e1
    let rowLen := if d.mx i then x.fmt.rowBytes n0 else n0 * d.elemSize i
    (x.base, rowLen + (n1 - 1) * x.s1 + (d.e2 - 1) * x.s2 + (d.e3 - 1) * x.s3 + (d.e4 - 1) * x.s4) ::
      (if d.mx i then [(x.scale, n1 * d.e2 * d.e3 * d.e4 * ceilDiv n0 32)] else [])

/-- R136: every stride of a stream; the reduced dimension's of an RD stream is ignored. -/
def AtmDesc.strides (d : AtmDesc) (i : Nat) : List Nat :=
  let x := d.st i
  let all := [(1, x.s1), (2, x.s2), (3, x.s3), (4, x.s4)]
  (all.filter (fun ks => !(decide (6 ≤ i) && d.redDim == 1 && ks.1 == 1))).map Prod.snd

/-! ### Acceptance (R156) -/

/-- DESC_OP for one micro-operation in its place. -/
def badMicroOp (d : AtmDesc) (g : AtmProg) (pos : Nat) (m : MicroOp) : Bool :=
  let ph := g.phaseOf pos
  match aopOf m.opc with
  | none => true
  | some o =>
    !(o.types.contains m.ty) ||
    (m.rm && (m.ty == 4 || (match o with | .trans _ | .act _ => true | _ => false))) ||
    (m.srcs o).any (fun st => decide (st.1 > 53) || (decide (st.1 < 32) && st.2 == 3 && st.1 % 2 == 1) ||
      (decide (48 ≤ st.1) && decide (st.1 < 52) && !((g.redPhases (st.1 - 48)).any (fun r => decide (r < ph))))) ||
    (o.writes && (decide (m.dst > 31) || (m.ty == 3 && o != .cmp && m.dst % 2 == 1))) ||
    (match o with
      | .ld => decide (m.aux > 3) || !d.on m.aux
      | .st => !(m.aux == 4 || m.aux == 5) || !d.on m.aux || decide (ph + 1 ≠ g.nphase)
      | .red => decide (m.aux > 3) || !d.on (6 + m.aux)
      | .cmp => decide (m.aux > 3)
      | .cvt => decide (m.aux > 4)
      | _ => false)

/-- DESC_OP for a program (R137, R149). -/
def badProg (d : AtmDesc) (g : AtmProg) : Bool :=
  let rds := d.streams.filter (fun i => decide (6 ≤ i))
  g.nops == 0 || decide (g.nops > 256) || g.nphase == 0 || decide (g.nphase > 3) || g.l0 == 0 ||
  g.l0 + g.l1 + g.l2 != g.nops || (decide (g.nphase < 2) && g.l1 != 0) || (decide (g.nphase < 3) && g.l2 != 0) ||
  rds.any (fun i => decide ((d.st i).rkind > 9) || (g.redPhases (i - 6)).length != 1) ||
  (d.redDim == 1 && decide (rds.length * d.e0 > 4096)) ||
  (List.zip (upTo g.ops.length) g.ops).any (fun x => badMicroOp d g x.1 x.2)

/-- R156, DESC_OP. -/
def atmBadOp (d : AtmDesc) (g : AtmProg) : Bool :=
  decide (d.op > 2) || d.ndim == 0 || decide (d.ndim > 5) ||
  (if d.op = 2 then !(d.on 0) || !(d.on 4) else (d.redDim == 1 && d.ndim == 1) || badProg d g)

/-- R156, DESC_FORMAT (R68, R86, R146, R148, R150). -/
def atmBadFormat (d : AtmDesc) : Bool :=
  d.streams.any (fun i =>
    let x := d.st i
    !(decide (6 ≤ i) && x.rkind == 9) &&
      ((fmtOfCode x.code).isNone || !(x.fmt.atmStream) || !(scaleAgrees x.fmt x.scale) ||
        (decide (6 ≤ i) && (x.rkind == 6 || x.rkind == 7 || x.rkind == 8) && x.fmt != .int32))) ||
  (d.op == 2 && (!((d.st 0).fmt.shfScore) || (d.on 1 && (d.st 1).fmt != .int8)))

/-- R156, DESC_DIM (R134). -/
def atmBadDim (x : BitVec 1024) (d : AtmDesc) : Bool :=
  (List.zip (upTo 5) [d.e0, d.e1, d.e2, d.e3, d.e4]).any (fun ie =>
    if ie.1 < d.ndim then ie.2 == 0 || decide (ie.2 > 4194304) else ie.2 != 1) || !(pipsOk .atm x)

/-- R156, DESC_ALIGN (R136). -/
def atmBadAlign (d : AtmDesc) : Bool :=
  d.streams.any (fun i =>
    let x := d.st i
    let u := if d.mx i then 64 else d.elemSize i
    (!(decide (6 ≤ i) && x.base == noAddr) && x.base % u != 0) || (d.strides i).any (fun s => s % u != 0))

/-- R156, DESC_ADDR. -/
def atmBadAddr (s : State) (d : AtmDesc) (blocks : List (Nat × Nat)) : Bool :=
  let ext := d.streams.map (fun i => (i, d.extents i))
  ext.any (fun ix => ix.2.any (fun x => !(s.sharedExtent x.1 x.2))) ||
  ext.any (fun ix => decide (4 ≤ ix.1) &&
    (anyOverlap ix.2 blocks || ext.any (fun jy => jy.1 != ix.1 && anyOverlap ix.2 jy.2))) ||
  d.streams.any (fun i => (decide (4 ≤ i) || d.mx i) && (d.strides i).any (fun s => s == 0))

/-- R137, R483: the program image, read in two parts; a count of micro-operations out of range ends with the header. -/
def State.readProg (s : State) (a : Nat) : Except Nat (List Byte) :=
  match s.readBlock (s.sharedExtent a 192) a 192 with
  | .error st => .error st
  | .ok h =>
    let n := leAt h 0 2
    if n = 0 ∨ n > 256 then .ok h else s.readBlock (s.sharedExtent a (192 + 8 * n)) a (192 + 8 * n)

/-- R156, R483: acceptance of an Atomizer descriptor. R483 gives no order between its two blocks: the stream table is checked and read first
(DESIGN CHOICE, log entry 16). -/
def atmCheck (s : State) (sub : Submission) : Accepted :=
  let x := sub.desc
  if descOp x = 0 then { status := nopStatus .atm s x }
  else
    let ta := df x 40 63 0
    let pa := df x 32 63 0
    let sm := descOp x == 2
    match s.readBlock (s.sharedExtent ta 640) ta 640 with
    | .error st => { status := st }
    | .ok tab =>
      match (if sm then .ok [] else s.readProg pa) with
      | .error st => { status := st }
      | .ok img =>
        let d := atmDesc x tab
        let blocks := (ta, 640) :: (if sm then [] else [(pa, img.length)])
        { image := img, stab := tab
          status := firstFail [(atmBadOp d (atmProg img), stOp), (atmBadFormat d, stFormat), (atmBadDim x d, stDim),
            (atmBadAlign d, stAlign), (atmBadAddr s d blocks, stAddr), (!(relValid s (descRelease .atm x)), stRelease)] }

/-- ATM_ACCEPT (R156): a descriptor enters the FIFO. -/
def execAtmAccept (i : Fin 64) (s : State) : Host.Outcome State Fault Refusal := inService s (State.accept .atm i atmCheck)

/-! ### One lane (R133, R139, R141-R145) -/

/-- A number with the flags of its making. -/
abbrev Flagged (α : Type) := α × AFlags

/-- What a lane knows: its element, its line's results, its sources. -/
structure LaneEnv where
  i0 : Nat
  i1 : Nat
  /-- logical element index L (R140) -/
  l : Nat
  tail : Bool
  key : BitVec 128
  stream : Nat
  flush : Bool
  consts : List Nat
  /-- results of RD0-RD3 for the element's line -/
  res : List (Option FVal)
  /-- the element of LD0-LD3, and whether it was flushed -/
  loads : List (FVal × Bool)
  /-- stands for a result that does not exist: a tail lane outside every line -/
  noRes : Nat
  deriving DecidableEq, Repr

/-- A lane in progress. -/
structure Lane where
  regs : List Nat
  active : Bool
  fl : AFlags
  /-- ST: position, value -/
  stores : List (Nat × FVal)
  /-- RED: slot, value, type F64 -/
  reds : List (Nat × FVal × Bool)
  deriving DecidableEq, Repr

/-- R133: the start of a lane. -/
def Lane.start : Lane := ⟨List.replicate 32 0, true, {}, [], []⟩

/-- R132: read a register as a type. -/
def Lane.reg (x : Lane) (n ty : Nat) : Nat :=
  if ty = 3 then x.regs.getD n 0 + x.regs.getD (n + 1) 0 * 2 ^ 32
  else if ty = 1 ∨ ty = 2 then x.regs.getD n 0 % 2 ^ 16
  else x.regs.getD n 0

/-- R132: write a register as a type. -/
def Lane.setReg (x : Lane) (n ty bits : Nat) : Lane :=
  if ty = 3 then { x with regs := (x.regs.set n (bits % 2 ^ 32)).set (n + 1) (bits / 2 ^ 32 % 2 ^ 32) }
  else { x with regs := x.regs.set n bits }

/-- R142: a source, as bits of a type. A conversion here rounds to nearest, ties to even, an RD result's too: RM of the micro-operation governs
its own result alone (DEDUCED, log entry 29). -/
def Lane.src (e : LaneEnv) (x : Lane) (sel ty : Nat) : Flagged Nat :=
  let conv (v : FVal) : Flagged Nat := (tyFmt ty).encode .rne e.flush v
  if sel < 32 then (x.reg sel ty, {})
  else if sel < 48 then
    let k := fp64.decodeFlush e.flush (e.consts.getD (sel - 32) 0)
    let r := conv k.1
    (r.1, r.2.or { flushed := k.2 })
  else if sel < 52 then
    match e.res.getD (sel - 48) none with
    | some v => conv v
    | none => (e.noRes % 2 ^ (tyFmt ty).bits, {})
  else conv (ofI (if sel = 52 then e.i0 else e.i1))

/-- Decode the bits of a type (R56). -/
def tyDecode (flush : Bool) (ty bits : Nat) : Flagged FVal :=
  let r := (tyFmt ty).decode flush bits
  (r.1, { flushed := r.2 })

/-- R143: CMP's condition. -/
def cmpHolds (cond : Nat) (a b : FVal) : Bool :=
  match cond with
  | 0 => FVal.eqv a b
  | 1 => FVal.lt a b
  | 2 => FVal.le a b
  | _ => a.isNan || b.isNan

/-- R144: I32 arithmetic: ADD, SUB and MUL wrap; where ABS, NEG or FMA leaves 32 bits the spec gives no result (log entry 6). -/
def intOp (o : AOp) (a b c : Nat) : Nat :=
  let x := toSigned 32 a
  let y := toSigned 32 b
  let fit (op : Nat) (r : Int) : Nat :=
    if -(2 ^ 31 : Int) ≤ r ∧ r < 2 ^ 31 then ofSigned 32 r else (Config.intCorner op a b c).toNat
  match o with
  | .add => ofSigned 32 (x + y)
  | .sub => ofSigned 32 (x - y)
  | .mul => ofSigned 32 (x * y)
  | .fma => fit 2 (x * y + toSigned 32 c)
  | .min => ofSigned 32 (min x y)
  | .max => ofSigned 32 (max x y)
  | .abs => fit 0 (x.natAbs : Int)
  | .neg => fit 1 (-x)
  | _ => 0

/-- R144: floating-point arithmetic before its rounding. -/
def floatOp (o : AOp) (a b c : FVal) : XVal :=
  match o with
  | .add => xAdd false a b
  | .sub => xAdd false a b.negate
  | .mul => xMul a b
  | .fma => xFma false a b c
  | .div => xDiv a b
  | .rcp => xDiv (ofI 1) a
  | .sqrt => xSqrt a
  | .min => .of (fMin a b)
  | .max => .of (fMax a b)
  | .abs => .of a.abs
  | .neg => .of a.negate
  | _ => .of a

/-- The encoding of a float type. -/
def tyFf (ty : Nat) : FFmt := ((tyFmt ty).ff).getD fp32

/-- One micro-operation in one lane. -/
def Lane.step (e : LaneEnv) (x : Lane) (pm : Nat × MicroOp) : Lane :=
  let m := pm.2
  let pos := pm.1
  let rnd := rndFor e.key m.rm e.stream e.l pos
  let f := tyFmt m.ty
  match aopOf m.opc with
  | none => x
  | some o =>
    let ss := (m.srcs o).map (fun st => let r := x.src e st.1 st.2; (r.1, st.2, r.2))
    let fs := AFlags.all (ss.map (fun r => r.2.2))
    let bits (n : Nat) : Nat := (ss.getD n (0, 0, {})).1
    let val (n : Nat) : Flagged FVal := let r := ss.getD n (0, 0, {}); tyDecode e.flush r.2.1 r.1
    let fv := AFlags.all ((upTo ss.length).map (fun n => (val n).2))
    let put (ty b : Nat) (fl : AFlags) : Lane :=
      let y := x.setReg m.dst ty b
      if e.tail then y else { y with fl := y.fl.or fl }
    let note (fl : AFlags) (y : Lane) : Lane := if e.tail then x else { y with fl := y.fl.or fl }
    match o with
    | .nop => x
    | .ld =>
      if e.tail then x.setReg m.dst m.ty 0
      else
        let v := e.loads.getD m.aux (.zero, false)
        let r := f.encode rnd e.flush v.1
        put m.ty r.1 (r.2.or { flushed := v.2 })
    | .st => note (fs.or fv) { x with stores := x.stores ++ [(pos, (val 0).1)] }
    | .red => note (fs.or fv) (if x.active then { x with reds := x.reds ++ [(m.aux, (val 0).1, m.ty == 3)] } else x)
    | .maskr => note fs (if bits 0 ≠ 0 then { x with active := false } else x)
    | .sel => put m.ty (if bits 2 ≠ 0 then bits 0 else bits 1) fs
    | .cmp => put 4 (bit01 (cmpHolds m.aux (val 0).1 (val 1).1)) (fs.or fv)
    | .cvt => let r := f.encode rnd e.flush (val 0).1; put m.ty r.1 ((fs.or fv).or r.2)
    | .trans fn => let r := transOp fn (tyFf m.ty) e.flush (val 0).1; put m.ty r.1 ((fs.or fv).or r.2)
    | .act a => let r := activation a e.flush (bits 0); put m.ty r.1 (fs.or r.2)
    | _ =>
      if m.ty = 4 then put 4 (intOp o (bits 0) (bits 1) (bits 2)) fs
      else
        let r := (tyFf m.ty).encodeX rnd e.flush (floatOp o (val 0).1 (val 1).1 (val 2).1)
        put m.ty r.1 ((fs.or fv).or r.2)

/-! ### Reductions (R146-R149) -/

/-- The order of MAX and MIN: −0 below +0. -/
def keyLt (a b : FVal) : Bool := FVal.lt a b || (a.isZero && b.isZero && a.neg && !b.neg)

/-- A quotient, exact but for a sticky bit far below any rounding of it. -/
def divSticky (v : FVal) (n : Nat) : FVal :=
  match v with
  | .fin neg m e =>
    if m = 0 ∨ n = 0 then .fin neg 0 0
    else
      let x := m <<< 512
      .fin neg (2 * (x / n) + (if x % n = 0 then 0 else 1)) (e - 513)
  | v => v

/-- R148: one level of PROD's tree. -/
def prodLevel (flush : Bool) : List FVal → List FVal × AFlags
  | x :: y :: r =>
    let p := fp64.encodeX .rne flush (xMul x y)
    let t := prodLevel flush r
    (fp64.decode p.1 :: t.1, p.2.or t.2)
  | xs => (xs, {})

/-- R148: PROD's tree (`fuel` levels at most). -/
def prodTree (flush : Bool) : Nat → List FVal → AFlags → FVal × AFlags
  | 0, xs, fl => (xs.headD (ofI 1), fl)
  | n + 1, xs, fl =>
    if xs.length ≤ 1 then (xs.headD (ofI 1), fl)
    else let r := prodLevel flush xs; prodTree flush n r.1 (fl.or r.2)

/-- The index of the extreme value: the lowest index of a NaN, or of the value that none beats (R148). -/
def argBest (beats : FVal → FVal → Bool) : List (Nat × FVal) → Option (Nat × FVal)
  | [] => none
  | x :: r =>
    match argBest beats r with
    | none => some x
    | some y => if x.2.isNan then some x else if y.2.isNan ∨ beats y.2 x.2 then some y else some x

/-- A reduction's outcome: a value to round to FMT, or an integer result. -/
structure RedOut where
  v : FVal
  isInt : Bool
  fl : AFlags
  deriving DecidableEq, Repr

/-- R146: the identities. -/
def redIdentity (kind : Nat) : RedOut :=
  match kind with
  | 3 => ⟨ofI 1, false, {}⟩
  | 4 => ⟨.inf true, false, {}⟩
  | 5 => ⟨.inf false, false, {}⟩
  | 6 => ⟨ofI 0, true, {}⟩
  | 7 | 8 => ⟨ofI (-1), true, {}⟩
  | 9 => ⟨ofI (-32768), true, {}⟩
  | _ => ⟨.zero, false, {}⟩

/-- R146-R148: the reduction of one line's contributions, in increasing index along the reduced dimension. -/
def redLine (kind : Nat) (flush f64 : Bool) (cs : List (Nat × FVal)) : RedOut :=
  let xs := cs.map Prod.snd
  let win := if f64 then win192 else win128
  let sumOf (a : Option Int) (ts : List FVal) : FVal × AFlags :=
    let acc := ASum.terms win (a.getD 0) {} ts
    (acc.value win (a.getD 0), acc.flags)
  if cs.isEmpty then redIdentity kind
  else match kind with
    | 0 => let r := sumOf (addExpo 1 (maxE xs)) xs; ⟨r.1, false, r.2⟩
    | 1 => let r := sumOf (addExpo 1 (maxE xs)) xs; ⟨divSticky r.1 xs.length, false, r.2⟩
    | 2 => let r := sumOf ((maxE xs).map (fun e => 2 * e + 2)) (xs.map (fun x => FVal.mul x x)); ⟨r.1, false, r.2⟩
    | 3 => let r := prodTree flush 64 xs {}; ⟨r.1, false, r.2⟩
    | 4 => ⟨(xs.tail).foldl fMax (xs.headD .zero), false, {}⟩
    | 5 => ⟨(xs.tail).foldl fMin (xs.headD .zero), false, {}⟩
    | 6 => ⟨ofI xs.length, true, {}⟩
    | 7 => ⟨ofI ((argBest (fun y x => keyLt x y) cs).elim 0 (fun p => (p.1 : Int))), true, {}⟩
    | 8 => ⟨ofI ((argBest (fun y x => keyLt y x) cs).elim 0 (fun p => (p.1 : Int))), true, {}⟩
    | _ => ⟨ofI ((maxE xs).getD (-32768)), true, {}⟩

/-! ### Where a run stands (R138) -/

/-- Tiles along dimension 0. -/
def AtmDesc.t0 (d : AtmDesc) : Nat := ceilDiv d.e0 32
/-- Tiles along dimension 1. -/
def AtmDesc.t1 (d : AtmDesc) : Nat := ceilDiv d.e1 8
/-- Index triples of dimensions 2 to 4. -/
def AtmDesc.outer (d : AtmDesc) : Nat := d.e2 * d.e3 * d.e4

/-- Tiles in one group: SOFTMAX works line by line along dimension 0. -/
def AtmDesc.groupTiles (d : AtmDesc) : Nat :=
  if d.op = 2 then d.t0 else if !d.hasRd then 1 else if d.redDim = 0 then d.t0 else d.t0 * d.t1

/-- Groups. -/
def AtmDesc.groups (d : AtmDesc) : Nat := d.t0 * d.t1 * d.outer / d.groupTiles

/-- The tile that invocation `tile` of group `g` works on: its tile indices and (i2, i3, i4). -/
def AtmDesc.tileAt (d : AtmDesc) (g tile : Nat) : Nat × Nat × Nat × Nat × Nat :=
  let x := g * d.groupTiles + tile
  let o := x / (d.t0 * d.t1)
  (x % d.t0, x / d.t0 % d.t1, o % d.e2, o / d.e2 % d.e3, o / (d.e2 * d.e3))

/-- The line of an element within its group: its i1 or, with RED_DIM 1, its i0. -/
def AtmDesc.lineOf (d : AtmDesc) (i0 i1 : Nat) : Nat := if d.redDim = 1 then i0 else i1

/-- The head's descriptor with its stream table. -/
def Engine.atmHead (e : Engine) : AtmDesc :=
  match e.fifo with
  | [] => atmDesc 0 []
  | x :: _ => atmDesc x.sub.desc x.stab

/-- The head's program. -/
def Engine.atmProgram (e : Engine) : AtmProg :=
  match e.fifo with
  | [] => atmProg []
  | x :: _ => atmProg x.image

/-! ### Loads and stores of a tile -/

/-- The elements i0, i0+1, … (`n` of them, within one block) of a row of stream `i`. -/
def State.atmRow (s : State) (m : Memory) (flush : Bool) (d : AtmDesc) (i i0 n i1 i2 i3 i4 : Nat) : List (FVal × Bool) :=
  let x := d.st i
  let a := x.row i1 i2 i3 i4 + d.off0 i i0
  if d.mx i then
    let bytes := s.readIn m a x.fmt.blockBytes
    let sc := leNat (s.readIn m (x.scale + d.rho i1 i2 i3 i4 * ceilDiv d.e0 32 + i0 / 32) 1)
    (upTo n).map (fun j => (mxDecode x.fmt sc (blockElem x.fmt bytes j), false))
  else (upTo n).map (fun j => s.elemAt m x.fmt flush (a + j * d.elemSize i))

/-- The bytes that such a read meets. -/
def AtmDesc.rowReads (d : AtmDesc) (i i0 n i1 i2 i3 i4 : Nat) : List (Nat × Nat) :=
  let x := d.st i
  let a := x.row i1 i2 i3 i4 + d.off0 i i0
  if d.mx i then [(a, x.fmt.blockBytes), (x.scale + d.rho i1 i2 i3 i4 * ceilDiv d.e0 32 + i0 / 32, 1)]
  else [(a, n * d.elemSize i)]

/-- Encode values and write them at element i0 of a row of a stream whose rows have `n0` elements; `rnd j` rounds value j. -/
def State.atmWrite (d : AtmDesc) (i i0 rho n0 rowAddr : Nat) (flush : Bool) (rnd : Nat → Rnd) (vs : List FVal) (s : State) :
    State × List FVal × AFlags :=
  let x := d.st i
  let a := rowAddr + d.off0 i i0
  let live := x.base != noAddr
  if d.mx i then
    let b := encodeMxBlock x.fmt rnd vs
    let s := if live then
      (s.writeMem a (packBlock x.fmt b.codes)).writeMem (x.scale + rho * ceilDiv n0 32 + i0 / 32) [BitVec.ofNat 8 b.scale] else s
    (s, (b.codes.take vs.length).map (mxDecode x.fmt b.scale), b.flags)
  else
    let es := (List.zip (upTo vs.length) vs).map (fun jv => x.fmt.encode (rnd jv.1) flush jv.2)
    let s := if live then s.writeMem a ((es.map (fun e => leBytes (d.elemSize i) e.1)).flatten) else s
    (s, es.map (fun e => (x.fmt.decode false e.1).1), AFlags.all (es.map Prod.snd))

/-! ### A tile invocation -/

/-- OR flags into the head of an Atomizer. -/
def State.atmFlags (i : Nat) (fl : AFlags) (s : State) : State := s.onHead .atm i (fun h => { h with flags := h.flags.or fl })

/-- Rows ρ of a tile within the extents: their i1. -/
def AtmDesc.tileRows (d : AtmDesc) (t1 : Nat) : List Nat := ((upTo 8).map (fun r => 8 * t1 + r)).filter (fun i1 => decide (i1 < d.e1))

/-- Streams that the micro-operations of a phase load. -/
def loadsOf (ops : List (Nat × MicroOp)) : List Nat := (upTo 4).filter (fun i => ops.any (fun x => x.2.opc == 1 && x.2.aux == i))

/-- The lanes of one row of a tile: 32 lanes run through the micro-operations of a phase. -/
def State.atmLanes (s : State) (i : Nat) (d : AtmDesc) (g : AtmProg) (ops : List (Nat × MicroOp)) (t0 i1 i2 i3 i4 : Nat) : List Lane :=
  let e := s.engine .atm i
  let flush := e.headFlush
  let inRow := decide (i1 < d.e1)
  let n := if inRow then min 32 (d.e0 - 32 * t0) else 0
  let loads := loadsOf ops
  let rows := (upTo 4).map (fun k => if loads.contains k ∧ inRow then s.atmRow e.head.snap flush d k (32 * t0) n i1 i2 i3 i4 else [])
  (upTo 32).map (fun j =>
    let i0 := 32 * t0 + j
    let env : LaneEnv :=
      { i0, i1, l := i0 + d.e0 * d.rho i1 i2 i3 i4, tail := decide (n ≤ j), key := s.eng.key, stream := d.stream, flush
        consts := g.consts
        res := (upTo 4).map (fun r => (e.head.run.results.find? (fun x => x.slot == r && x.line == d.lineOf i0 i1)).map (fun x => x.v))
        loads := rows.map (fun r => r.getD j (.zero, false))
        noRes := (Config.freeWord s.freeCtr).toNat }
    ops.foldl (fun x pm => x.step env pm) Lane.start)

/-- The ST micro-operations of a row, in program order. -/
def State.atmStores (i : Nat) (d : AtmDesc) (ops : List (Nat × MicroOp)) (lanes : List Lane) (t0 i1 i2 i3 i4 : Nat) (s : State) : State :=
  let flush := (s.engine .atm i).headFlush
  (ops.filter (fun x => x.2.opc == 2)).foldl (fun s pm =>
    let vs := (lanes.filterMap (fun x => x.stores.find? (fun y => y.1 == pm.1))).map Prod.snd
    let rho := d.rho i1 i2 i3 i4
    let rnd (j : Nat) : Rnd := rndFor s.eng.key pm.2.rm d.stream (32 * t0 + j + d.e0 * rho) pm.1
    let r := s.atmWrite d pm.2.aux (32 * t0) rho d.e0 ((d.st pm.2.aux).row i1 i2 i3 i4) flush rnd vs
    r.1.atmFlags i r.2.2) s

/-- The contributions of a row. -/
def rowContribs (d : AtmDesc) (t0 i1 : Nat) (lanes : List Lane) : List Contrib :=
  ((List.zip (upTo 32) lanes).map (fun jx =>
    let i0 := 32 * t0 + jx.1
    jx.2.reds.map (fun r =>
      { slot := r.1, line := d.lineOf i0 i1, idx := if d.redDim = 1 then i1 else i0, v := r.2.1, f64 := r.2.2 }))).flatten

/-- The end of a phase over a group: the results of the slots whose RED stands in the phase, written line by line, or, for the
blocks of an MX stream with RED_DIM 1, by 32 lines (R136, R149). -/
def State.atmResults (i : Nat) (d : AtmDesc) (slot t1 i2 i3 i4 : Nat) (s : State) : State :=
  let e := s.engine .atm i
  let flush := e.headFlush
  let st := d.st (6 + slot)
  let cs := e.head.run.contribs.filter (fun c => c.slot == slot)
  let f64 := cs.any (fun c => c.f64)
  let lines := if d.redDim = 1 then upTo d.e0 else d.tileRows t1
  let outs := lines.map (fun l => (l, redLine st.rkind flush f64 ((cs.filter (fun c => c.line == l)).map (fun c => (c.idx, c.v)))))
  let empty := lines.any (fun l => !(cs.any (fun c => c.line == l)))
  let s := s.onHead .atm i (fun h => { h with empty := h.empty || empty })
  let s := s.atmFlags i (AFlags.all (outs.map (fun o => o.2.fl)))
  let keep (l : Nat) (v : FVal) (s : State) : State :=
    s.onHead .atm i (fun h => { h with run := { h.run with results := { slot, line := l, v } :: h.run.results } })
  let rowOf (l : Nat) : Nat := if d.redDim = 1 then st.row 0 i2 i3 i4 else st.row l i2 i3 i4
  let rhoOf (l : Nat) : Nat := if d.redDim = 1 then i2 + d.e2 * (i3 + d.e3 * i4) else d.rho l i2 i3 i4
  let n0 := if d.redDim = 1 then d.e0 else 1
  let group := if d.mx (6 + slot) && d.redDim == 1 then 32 else 1
  (pieces group (outs.length + 1) outs).foldl (fun s os =>
    let l0 := (os.headD (0, redIdentity 0)).1
    let i0 := if d.redDim = 1 then l0 else 0
    let isInt := os.any (fun o => o.2.isInt)
    if isInt then
      os.foldl (fun s o =>
        let n := d.elemSize (6 + slot)
        let s := if st.base != noAddr then
          s.writeMem (rowOf o.1 + (if d.redDim = 1 then o.1 * n else 0)) (leBytes n (match o.2.v with
            | .fin neg m e => ofSigned (8 * n) (signedMag neg (m <<< e.toNat))
            | _ => 0)) else s
        keep o.1 o.2.v s) s
    else
      let r := s.atmWrite d (6 + slot) i0 (rhoOf l0) n0 (rowOf l0) flush (fun _ => .rne) (os.map (fun o => o.2.v))
      let s := r.1.atmFlags i r.2.2
      (List.zip (os.map Prod.fst) r.2.1).foldl (fun s lv => keep lv.1 lv.2 s) s) s

/-- R150: one line of SOFTMAX: values before their conversion, whether the line was empty, flags. -/
def softmaxLine (flush : Bool) (xs : List FVal) (mask : List Bool) : List FVal × Bool × AFlags :=
  let ms := List.zip mask xs
  if ms.any (fun p => !p.1 && p.2.isNan) then (xs.map (fun _ => .nan), false, {})
  else
    let act (p : Bool × FVal) : Bool := !p.1 && !(p.2.isInf && p.2.neg)
    let as := (ms.filter act).map Prod.snd
    if as.isEmpty then (xs.map (fun _ => .zero), true, {})
    else
      let c := (as.filter FVal.isInf).length
      if c > 0 then
        let y := divSticky (ofI 1) c
        (ms.map (fun p => if act p && p.2.isInf then y else .zero), false, {})
      else
        let m := as.tail.foldl fMax (as.headD .zero)
        let exps := ms.map (fun p =>
          if act p then
            let d := fp32.encodeX .rne flush (xAdd false p.2 m.negate)
            let dv := fp32.decodeFlush flush d.1
            let e := transOp .exp fp32 flush dv.1
            let ev := fp32.decodeFlush flush e.1
            (ev.1, ((d.2.or e.2).or { flushed := dv.2 || ev.2 }))
          else (.zero, {}))
        let terms := ((List.zip ms exps).filter (fun q => act q.1)).map (fun q => q.2.1)
        let acc := ASum.terms win128 1 {} terms
        let n := acc.s.toNat
        -- e / (S · 2^(1 − 128))
        (exps.map (fun q => (divSticky q.1 n).scale 127), false, acc.flags.or (AFlags.all (exps.map Prod.snd)))

/-- R150: a SOFTMAX row: read, computed and written. -/
def State.softmaxRow (i : Nat) (d : AtmDesc) (i1 i2 i3 i4 : Nat) (s : State) : State :=
  let e := s.engine .atm i
  let flush := e.headFlush
  let xs := s.atmRow e.head.snap flush d 0 0 d.e0 i1 i2 i3 i4
  let mask := if d.on 1 then (s.atmRow e.head.snap flush d 1 0 d.e0 i1 i2 i3 i4).map (fun v => !v.1.isZero)
    else List.replicate d.e0 false
  let r := softmaxLine flush (xs.map Prod.fst) mask
  let s := s.onHead .atm i (fun h => { h with empty := h.empty || r.2.1 })
  let s := s.atmFlags i (r.2.2.or { flushed := xs.any Prod.snd })
  let ps := pieces 32 (d.t0 + 1) r.1
  (List.zip (upTo ps.length) ps).foldl (fun s kp =>
    let w := s.atmWrite d 4 (32 * kp.1) (d.rho i1 i2 i3 i4) d.e0 ((d.st 4).row i1 i2 i3 i4) flush (fun _ => .rne) kp.2
    w.1.atmFlags i w.2.2) s

/-- The next invocation's place: tile, then phase, then group (R138). -/
def EngRun.atmNext (d : AtmDesc) (nphase : Nat) (r : EngRun) : EngRun :=
  if r.tile + 1 < d.groupTiles then { r with tile := r.tile + 1 }
  else if r.phase + 1 < nphase then { r with tile := 0, phase := r.phase + 1, contribs := [] }
  else { r with tile := 0, phase := 0, group := r.group + 1, contribs := [], results := [] }

/-- Phases of the head: SOFTMAX has one. -/
def atmPhases (d : AtmDesc) (g : AtmProg) : Nat := if d.op = 2 then 1 else g.nphase

/-- Registers of a tile from its lanes, register by register (R132). -/
def tileRegsOf (lanes : List Lane) : List (BitVec 32) :=
  ((upTo 32).map (fun n => lanes.map (fun x => BitVec.ofNat 32 (x.regs.getD n 0)))).flatten

/-- R138-R150: one tile invocation whose sources hold no poison. -/
def State.atmInvoke (i : Nat) (s : State) : State :=
  let e := s.engine .atm i
  let d := e.atmHead
  let g := e.atmProgram
  let run := e.head.run
  let t := d.tileAt run.group run.tile
  let t0 := t.1
  let t1 := t.2.1
  let i2 := t.2.2.1
  let i3 := t.2.2.2.1
  let i4 := t.2.2.2.2
  let s :=
    if d.op = 2 then
      let s := s.onEng (fun x => { x with tileRegs := vput x.tileRegs i [] })
      if run.tile + 1 < d.groupTiles then s
      else (d.tileRows t1).foldl (fun s i1 => s.softmaxRow i d i1 i2 i3 i4) s
    else
      let ops := g.phase run.phase
      let rows := (upTo 8).map (fun r => (8 * t1 + r, s.atmLanes i d g ops t0 (8 * t1 + r) i2 i3 i4))
      let lanes := (rows.map Prod.snd).flatten
      let s := s.onEng (fun x => { x with tileRegs := vput x.tileRegs i (tileRegsOf lanes) })
      let s := { s with freeCtr := s.freeCtr + 1 }
      let s := s.atmFlags i (AFlags.all (lanes.map (fun x => x.fl)))
      let s := rows.foldl (fun s r => if r.1 < d.e1 then s.atmStores i d ops r.2 t0 r.1 i2 i3 i4 else s) s
      let cs := (rows.map (fun r => rowContribs d t0 r.1 r.2)).flatten
      let s := s.onHead .atm i (fun h => { h with run := { h.run with contribs := h.run.contribs ++ cs } })
      if run.tile + 1 < d.groupTiles then s
      else ((upTo 4).filter (fun r => (g.redPhases r).contains run.phase)).foldl (fun s r => s.atmResults i d r t1 i2 i3 i4) s
  s.onHead .atm i (fun h => { h with run := h.run.atmNext d (atmPhases d g) })

/-- The bytes that the next invocation reads. -/
def Engine.atmReads (e : Engine) : List (Nat × Nat) :=
  let d := e.atmHead
  let run := e.head.run
  let t := d.tileAt run.group run.tile
  let loads := if d.op = 2 then (upTo 2).filter d.on else loadsOf (e.atmProgram.phase run.phase)
  ((d.tileRows t.2.1).map (fun i1 => (loads.map (fun k =>
    d.rowReads k (32 * t.1) (min 32 (d.e0 - 32 * t.1)) i1 t.2.2.1 t.2.2.2.1 t.2.2.2.2)).flatten)).flatten

/-- Memory of the head's descriptor is held (R247, R384). -/
def State.atmWaits (s : State) (i : Nat) : Bool :=
  let d := (s.engine .atm i).atmHead
  s.engWaits .atm i ((d.streams.map d.extents).flatten)

/-- What an Atomizer does when arithmetic begins: a NOP commits at once. -/
def State.atmStart (i : Nat) (s : State) : State :=
  if descOp (s.engine .atm i).headDesc = 0 then s.finish .atm i stOk else s.beginRun .atm i

/-- ATM_TILE_INVOCATION (R138, R158): the next phase of the program over the next tile; poison among its sources ends the
descriptor (R111). -/
def execAtmTileInvocation (i : Fin 64) (s : State) : Host.Outcome State Fault Refusal :=
  inService s (fun s =>
    let e := s.engine .atm i
    if e.head.phase ≠ .running ∨ !s.pwr.slotOn ∨ s.atmWaits i ∨ e.head.run.group ≥ e.atmHead.groups then s
    else
      let xs := e.atmReads
      let s := s.settleAll xs
      if s.readsPoison xs then s.finishPoison .atm i else s.atmInvoke i)

/-- ATM_COMMIT (R157): every group is done. -/
def execAtmCommit (i : Fin 64) (s : State) : Host.Outcome State Fault Refusal :=
  inService s (fun s =>
    let e := s.engine .atm i
    if e.head.phase = .running ∧ e.head.run.group ≥ e.atmHead.groups then s.finish .atm i stOk else s)

end Sys2Proof.Machine
end

