-- ==== Sys2Proof/Machine/Compounder.lean ====
section
/-!
DEFINITION. Compounder.lean: formulas (R164-R169): the image, the acceptance check of its words, one lane, and the range monitor.
-/
namespace Sys2Proof.Machine

open Sys2Proof

/-- R164: a formula image. -/
structure Formula where
  ninst : Nat
  nconst : Nat
  n : Nat
  h : Nat
  sigA : Int
  mgrow : Nat
  grow : Nat
  xrel : Int
  consts : List Nat
  words : List Nat
  deriving DecidableEq, Repr

/-- R164: bytes of an image, from its header; the header alone where a count is out of range. -/
def formulaSize (hd : List Byte) : Nat :=
  let ni := leAt hd 0 2
  let nc := leAt hd 2 1
  if ni = 0 ∨ ni > 1024 ∨ nc > 64 then 64 else 64 + 8 * nc + 8 * ni

/-- R164: read an image. -/
def formulaOf (b : List Byte) : Formula :=
  let ni := leAt b 0 2
  let nc := leAt b 2 1
  { ninst := ni, nconst := nc, n := leAt b 3 1, h := leAt b 4 1, sigA := toSigned 16 (leAt b 6 2)
    mgrow := leAt b 8 1 / 16, grow := leAt b 8 1 % 16, xrel := toSigned 8 (leAt b 9 1)
    consts := (upTo (min nc 64)).map (fun k => leAt b (64 + 8 * k) 8)
    words := (upTo (min ni 1024)).map (fun k => leAt b (64 + 8 * nc + 8 * k) 8) }

/-- R166: OPC of a word. -/
def fOpc (w : Nat) : Nat := field w 63 56
/-- R166: DST. -/
def fDst (w : Nat) : Nat := field w 55 50
/-- R166: SRCA. -/
def fA (w : Nat) : Nat := field w 49 44
/-- R166: SRCB. -/
def fB (w : Nat) : Nat := field w 43 38
/-- R166: SRCC. -/
def fC (w : Nat) : Nat := field w 37 32
/-- R166: IMM. -/
def fImm (w : Nat) : Nat := w % 2 ^ 32

/-- R166: the bits of IMM that a code's row uses; none for a reserved code. -/
def fImmMask : Nat → Option Nat
  | 0x00 => some 0
  | 0x01 | 0x02 | 0x03 | 0x04 => some 0xC0FF_FFFF
  | 0x05 => some 0x3F
  | 0x06 => some 1
  | 0x10 | 0x11 | 0x12 | 0x13 | 0x14 | 0x15 | 0x16 | 0x17 | 0x18 | 0x19 | 0x1A | 0x1B => some 0
  | 0x20 | 0x21 | 0x22 | 0x23 => some 0
  | 0x30 | 0x31 => some 0xF000_FFFF
  | 0x32 => some 0xC007_FF00
  | 0x38 => some 0x7F
  | 0x39 => some 0
  | _ => none

/-- R166: an index term. -/
def indexTerm (sel i0 i1 : Nat) : Nat := if sel = 1 then i0 else if sel = 2 then i1 else 0

/-- What the check of a word needs. -/
structure FCheck where
  n : Nat
  h : Nat
  nconst : Nat
  pstride : Nat
  mstride : Nat
  deriving DecidableEq, Repr

/-- R166: does a word fail its check with these index values? -/
def fWordBad (e : FCheck) (i0 i1 w : Nat) : Bool :=
  let im := fImm w
  let t := field im 31 30
  let u := field im 29 28
  match fImmMask (fOpc w) with
  | none => true
  | some m =>
    (im &&& m) != im ||
    (match fOpc w with
      | 0x01 | 0x02 | 0x03 | 0x04 =>
        let size := if fOpc w % 2 = 1 then 8 else 4
        let off := field im 23 0
        let stride := if fOpc w ≤ 2 then e.pstride else e.mstride
        t == 3 || off % size != 0 || decide (off + size * indexTerm t i0 i1 + size > stride)
      | 0x05 => decide (im % 64 ≥ e.nconst)
      | 0x30 | 0x31 =>
        t == 3 || u == 3 || decide (field im 15 8 + indexTerm t i0 i1 ≥ e.n) || decide (field im 7 0 + indexTerm u i0 i1 ≥ e.n)
      | 0x32 => t == 3 || decide (field im 15 8 + indexTerm t i0 i1 ≥ e.n) || decide (field im 18 16 ≥ e.h)
      | _ => false)

/-- The body of a LOOP that has just been read, and what follows its ENDL (depth of inner loops open). -/
def splitLoop : Nat → List Nat → List Nat × List Nat
  | _, [] => ([], [])
  | d, w :: ws =>
    if fOpc w = 0x39 then
      match d with
      | 0 => ([], ws)
      | d + 1 => let r := splitLoop d ws; (w :: r.1, r.2)
    else
      let r := splitLoop (if fOpc w = 0x38 then d + 1 else d) ws
      (w :: r.1, r.2)

/-- R166: walk the words with the index values that they meet: a loop's first and last pass show the largest of them. `outer` lists
the indices of the loops around; `fuel` bounds the walk by the number of words. The result is whether a check fails, and I0, I1. -/
def fWalk (e : FCheck) : Nat → List Nat → List Nat → Nat → Nat → Bool × Nat × Nat
  | 0, _, _, i0, i1 => (false, i0, i1)
  | _ + 1, _, [], i0, i1 => (false, i0, i1)
  | k + 1, outer, w :: ws, i0, i1 =>
    if fWordBad e i0 i1 w then (true, i0, i1)
    else if fOpc w = 0x38 then
      let cnt := field (fImm w) 6 0
      let x := fDst w % 2
      if cnt = 0 ∨ cnt > 64 ∨ outer.length ≥ 2 ∨ outer.contains x then (true, i0, i1)
      else
        let br := splitLoop 0 ws
        let at_ (v : Nat) (a b : Nat) : Nat × Nat := if x = 0 then (v, b) else (a, v)
        let p := at_ 0 i0 i1
        let r := fWalk e k (x :: outer) br.1 p.1 p.2
        let q := at_ (cnt - 1) r.2.1 r.2.2
        let r2 := if cnt = 1 then r else fWalk e k (x :: outer) br.1 q.1 q.2
        let z := at_ cnt r2.2.1 r2.2.2
        let rest := fWalk e k outer br.2 z.1 z.2
        (r.1 || r2.1 || rest.1, rest.2.1, rest.2.2)
    else fWalk e k outer ws i0 i1

/-- R166: every LOOP has its ENDL. -/
def balanced : Nat → List Nat → Bool
  | d, [] => d == 0
  | d, w :: ws =>
    if fOpc w = 0x38 then balanced (d + 1) ws
    else if fOpc w = 0x39 then (match d with | 0 => false | d + 1 => balanced d ws)
    else balanced d ws

/-- R164, R166: DESC_OP for a formula. The walk passes over each ENDL, so its unused IMM is checked here. -/
def formulaBad (f : Formula) (pstride mstride : Nat) : Bool :=
  f.ninst == 0 || decide (f.ninst > 1024) || decide (f.nconst > 64) || f.n == 0 || decide (f.n > 64) || f.h == 0 ||
  decide (f.h > 8) || decide (f.xrel < -64) || decide (f.xrel > 64) ||
  (f.words.getLast?.map fOpc != some 0) || (f.words.dropLast.any (fun w => fOpc w == 0)) || !(balanced 0 f.words) ||
  f.words.any (fun w => fOpc w == 0x39 && fImm w != 0) ||
  (fWalk ⟨f.n, f.h, f.nconst, pstride, mstride⟩ (f.words.length + 1) [] f.words 0 0).1

/-! ### One lane (R165-R167, R169) -/

/-- A lane in progress: registers, predicates, indices, the problem it builds, and what it has read. -/
structure FLane where
  c : List Nat
  p : List Bool
  i0 : Nat
  i1 : Nat
  a : List Nat
  fix : List Int
  b : List Nat
  wrote : List Bool
  bad : Bool
  fl : AFlags
  reads : List (Nat × Nat)
  deriving DecidableEq, Repr

/-- R165: all zero at the start; entries never written are +0 (R167). -/
def FLane.start (n h : Nat) : FLane :=
  ⟨List.replicate 64 0, List.replicate 8 false, 0, 0, List.replicate (n * n) 0, List.replicate (n * n) 0, List.replicate (n * h) 0,
   List.replicate (n * n) false, false, {}, []⟩

/-- What a lane's words work on. -/
structure FEnv where
  f : Formula
  kind : Nat
  flush : Bool
  /-- addresses of the parameter and the measurement record -/
  param : Nat
  meas : Nat
  deriving DecidableEq, Repr

/-- R165: the binary64 arithmetic of a code, before its rounding. -/
def fArith (opc : Nat) (a b c : FVal) : XVal :=
  match opc with
  | 0x10 => xAdd false a b
  | 0x11 => xAdd false a b.negate
  | 0x12 => xMul a b
  | 0x13 => xFma false a b c
  | 0x14 => xDiv a b
  | 0x15 => xSqrt a
  | 0x16 => .of (fMin a b)
  | 0x17 => .of (fMax a b)
  | 0x18 => .of a.negate
  | _ => .of a.abs

/-- How many operands an arithmetic code has. -/
def fSources (opc : Nat) : Nat :=
  if opc = 0x13 then 3 else if opc = 0x10 ∨ opc = 0x11 ∨ opc = 0x12 ∨ opc = 0x14 ∨ opc = 0x16 ∨ opc = 0x17 then 2 else 1

/-- R166: one word in one lane. `rd a n` is the number in `n` bytes at an address. A copy (a load of the same format, SEL, STA, STB) keeps the bits
of a NaN: R71's canonical NaN is what arithmetic makes (DEDUCED, log entry 29). -/
def FLane.step (e : FEnv) (rd : Nat → Nat → Nat) (x : FLane) (w : Nat) : FLane :=
  let im := fImm w
  let reg (k : Nat) : Nat := x.c.getD k 0
  let put (v : Nat) (fl : AFlags) : FLane := { x with c := x.c.set (fDst w) v, fl := x.fl.or fl }
  let operand (k : Nat) : FVal × AFlags := let r := fp64.decodeFlush e.flush (reg k); (r.1, { flushed := r.2 })
  let va := operand (fA w)
  let vb := operand (fB w)
  let vc := operand (fC w)
  let t := indexTerm (field im 31 30) x.i0 x.i1
  let u := indexTerm (field im 29 28) x.i0 x.i1
  let load (base size : Nat) (conv : Nat → Nat × AFlags) : FLane :=
    let a := base + field im 23 0 + size * t
    let r := conv (rd a size)
    { put r.1 r.2 with reads := (a, size) :: x.reads }
  let widen (v : Nat) : Nat × AFlags :=
    let r := fp32.decodeFlush e.flush v
    ((fp64.encode .rne false r.1).1, { flushed := r.2 })
  let store (v : Nat) : FLane :=
    let i := field im 15 8 + t
    let j := field im 7 0 + u
    let ij := if e.kind ≠ 0 ∧ j > i then j * e.f.n + i else i * e.f.n + j
    let q := toFix36 e.f.sigA (fp64.decode v)
    { x with a := x.a.set ij v, fix := x.fix.set ij q.1, wrote := x.wrote.set ij true, bad := x.bad || q.2 }
  let setP (b : Bool) (fl : AFlags) : FLane := { x with p := x.p.set (fDst w % 8) b, fl := x.fl.or fl }
  let flab := va.2.or vb.2
  match fOpc w with
  | 0x01 => load e.param 8 (fun v => (v, {}))
  | 0x02 => load e.param 4 widen
  | 0x03 => load e.meas 8 (fun v => (v, {}))
  | 0x04 => load e.meas 4 widen
  | 0x05 => put (e.f.consts.getD (im % 64) 0) {}
  | 0x06 => put (fp64.encode .rne false (ofI (if im % 2 = 0 then x.i0 else x.i1))).1 {}
  | 0x1A => let r := transOp .exp fp64 e.flush va.1; put r.1 (va.2.or r.2)
  | 0x1B => let r := transOp .log fp64 e.flush va.1; put r.1 (va.2.or r.2)
  | 0x20 => setP (FVal.eqv va.1 vb.1) flab
  | 0x21 => setP (FVal.lt va.1 vb.1) flab
  | 0x22 => setP (FVal.le va.1 vb.1) flab
  | 0x23 => put (if x.p.getD (fC w % 8) false then reg (fA w) else reg (fB w)) {}
  | 0x30 => store (reg (fA w))
  | 0x31 => if x.p.getD (fB w % 8) false then store (reg (fA w)) else x
  | 0x32 =>
    let v := reg (fA w)
    { x with b := x.b.set (field im 18 16 * e.f.n + (field im 15 8 + t)) v
             bad := x.bad || (match fp64.decode v with | .fin _ _ _ => false | _ => true) }
  | opc =>
    if 0x10 ≤ opc ∧ opc ≤ 0x19 then
      let r := fp64.encodeX .rne e.flush (fArith opc va.1 vb.1 vc.1)
      let n := fSources opc
      put r.1 ((va.2.or (if n ≥ 2 then vb.2 else {})).or ((if n ≥ 3 then vc.2 else {}).or r.2))
    else x

/-- Set a loop index. -/
def FLane.setI (x : FLane) (k v : Nat) : FLane := if k = 0 then { x with i0 := v } else { x with i1 := v }

/-- Read a loop index. -/
def FLane.getI (x : FLane) (k : Nat) : Nat := if k = 0 then x.i0 else x.i1

/-- R166: the words of a formula in one lane (`fuel` at least the number of words). -/
def FLane.run (e : FEnv) (rd : Nat → Nat → Nat) : Nat → List Nat → FLane → FLane
  | 0, _, x => x
  | _ + 1, [], x => x
  | k + 1, w :: ws, x =>
    if fOpc w = 0x38 then
      let br := splitLoop 0 ws
      let i := fDst w % 2
      let y := (upTo (field (fImm w) 6 0)).foldl (fun y _ =>
        let z := FLane.run e rd k br.1 y
        z.setI i (z.getI i + 1)) (x.setI i 0)
      FLane.run e rd k br.2 y
    else FLane.run e rd k ws (x.step e rd w)

/-- R168: the structure hash. -/
def structureHash (wrote : List Bool) : Nat :=
  leNat ((shake256 8 ((pieces 8 (wrote.length / 8 + 1) wrote).map (fun bs =>
    BitVec.ofNat 8 ((List.zip (upTo 8) bs).foldl (fun x kb => x + bit01 kb.2 * 2 ^ kb.1) 0)))).take 8)

end Sys2Proof.Machine
end

