-- ==== Sys2Proof/Machine/Solitaire.lean ====
section
/-!
DEFINITION. Solitaire.lean: Solitaire descriptors (R161-R163), lane groups (R165), the fixed-point factorisations (R170-R173), solve
and refinement (R174-R178), warm and saved slots (R179-R181), and commit (R182-R186).
-/
namespace Sys2Proof.Machine

open Sys2Proof

/-- R161: the fields of a descriptor. -/
structure SolDesc where
  op : Nat
  perturb : Bool
  save : Bool
  warm : Bool
  kind : Nat
  cap : Nat
  pertLog2 : Nat
  nprob : Nat
  rho : Nat
  formula : Nat
  param : Nat
  meas : Nat
  pstride : Nat
  mstride : Nat
  x : Nat
  status : Nat
  fb : Nat
  work : Nat
  slot : Nat
  warmFirst : Nat
  saveFirst : Nat
  slotStride : Nat
  tau : FVal
  deriving DecidableEq, Repr

/-- Read the fields. -/
def solDesc (x : BitVec 1024) : SolDesc where
  op := df x 0 7 0
  perturb := df x 1 5 5 == 1
  save := df x 1 4 4 == 1
  warm := df x 1 3 3 == 1
  kind := df x 1 1 0
  cap := if df x 2 3 0 = 0 then 6 else df x 2 3 0
  pertLog2 := df x 3 7 0
  nprob := df x 4 15 0
  rho := df x 6 15 0
  formula := df x 8 63 0
  param := df x 16 63 0
  meas := df x 24 63 0
  pstride := df x 32 31 0
  mstride := df x 36 31 0
  x := df x 40 63 0
  status := df x 48 63 0
  fb := df x 56 63 0
  work := df x 64 63 0
  slot := df x 72 63 0
  warmFirst := df x 80 31 0
  saveFirst := df x 84 31 0
  slotStride := df x 88 31 0
  tau := fp64.decode (df x 112 63 0)

/-- Round up to a multiple of 64. -/
def up64 (n : Nat) : Nat := ceilDiv n 64 * 64

/-- R179: bytes that a factor slot holds. -/
def slotBytes (n : Nat) : Nat := 64 + 8 * n * n + 9 * n

/-- R162: XS. -/
def xSize (n h : Nat) : Nat := up64 (8 * n * h)

/-- R162: FS. -/
def fbSize (n h : Nat) : Nat := up64 (64 + 8 * n * n + 8 * n * h)

/-- R162: a problem buffer of the work area. -/
def bufSize (n h : Nat) : Nat := up64 (64 + 16 * n * n + 16 * n * h)

/-- `count` regions of `size` bytes that adjoin, as one interval. -/
def regionRange (base count size : Nat) : List (Nat × Nat) := if size = 0 ∨ count = 0 then [] else [(base, count * size)]

/-- R162: slots stand at their stride, one region each; acceptance has no use for more than NPROB can name. -/
def slotRegions (base stride count size : Nat) : List (Nat × Nat) := (upTo (min count 4096)).map (fun p => (base + p * stride, size))

/-- R163: the regions that are only read. -/
def SolDesc.ins (d : SolDesc) (f : Formula) : List (Nat × Nat) :=
  [(d.formula, 64 + 8 * f.nconst + 8 * f.ninst)] ++ regionRange d.param d.nprob d.pstride ++
  regionRange d.meas d.nprob d.mstride ++
  (if d.warm then slotRegions (d.slot + d.warmFirst * d.slotStride) d.slotStride d.nprob (up64 (slotBytes f.n)) else [])

/-- R163: the regions that are written, without the work area. -/
def SolDesc.outs (d : SolDesc) (f : Formula) : List (Nat × Nat) :=
  regionRange d.x d.nprob (xSize f.n f.h) ++ regionRange d.status d.nprob 16 ++
  (if d.fb = noAddr then [] else regionRange d.fb d.nprob (fbSize f.n f.h)) ++
  (if d.save then slotRegions (d.slot + d.saveFirst * d.slotStride) d.slotStride d.nprob (up64 (slotBytes f.n)) else [])

/-- R163, DESC_OP. -/
def solBadOp (d : SolDesc) (f : Formula) : Bool :=
  d.op != 1 || d.kind == 3 || d.rho == 0 ||
  !(match d.tau with | .fin neg m _ => !neg && m != 0 | _ => false) ||
  (d.perturb && (decide (d.pertLog2 < 8) || decide (d.pertLog2 > 34))) || formulaBad f d.pstride d.mstride ||
  ((d.warm || d.save) && decide (d.slotStride < up64 (slotBytes f.n)))

/-- R163, DESC_ALIGN. -/
def solBadAlign (d : SolDesc) : Bool :=
  [d.formula, d.param, d.meas, d.x, d.status, d.work, d.pstride, d.mstride].any (fun a => a % 64 != 0) ||
  (d.fb != noAddr && d.fb % 64 != 0) || ((d.warm || d.save) && (d.slot % 64 != 0 || d.slotStride % 64 != 0))

/-- R163, DESC_ADDR. -/
def solBadAddr (s : State) (i : Nat) (d : SolDesc) (f : Formula) : Bool :=
  let work := (d.work, 8 * bufSize f.n f.h)
  let outs := d.outs f
  (d.ins f ++ outs).any (fun x => !(s.sharedExtent x.1 x.2)) ||
  s.storeOfExtent work.1 work.2 != some (.suit i) || !(s.attachedExtent work.1 work.2) ||
  anyOverlap (work :: outs) (d.ins f) || selfOverlap (work :: outs)

/-- R163, R483: acceptance of a Solitaire descriptor. -/
def solCheck (i : Nat) (s : State) (sub : Submission) : Accepted :=
  let x := sub.desc
  if descOp x = 0 then { status := nopStatus .sol s x }
  else
    let d := solDesc x
    match s.readBlock (s.sharedExtent d.formula 64) d.formula 64 with
    | .error st => { status := st }
    | .ok hd =>
      let n := formulaSize hd
      match s.readBlock (s.sharedExtent d.formula n) d.formula n with
      | .error st => { status := st }
      | .ok img =>
        let f := formulaOf img
        { image := img
          status := firstFail [(solBadOp d f, stOp), (decide (f.sigA < -960) || decide (f.sigA > 960), stFormat),
            (d.nprob == 0 || decide (d.nprob > 4096) || !(pipsOk .sol x), stDim), (solBadAlign d, stAlign),
            (solBadAddr s i d f, stAddr), (!(relValid s (descRelease .sol x)), stRelease)] }

/-- SOL_ACCEPT (R163): a descriptor enters the FIFO. -/
def execSolAccept (i : Fin 16) (s : State) : Host.Outcome State Fault Refusal := inService s (State.accept .sol i (solCheck i))

/-- The head's descriptor. -/
def Engine.solHead (e : Engine) : SolDesc := solDesc e.headDesc

/-- The head's formula. -/
def Engine.solFormula (e : Engine) : Formula :=
  match e.fifo with
  | [] => formulaOf []
  | x :: _ => formulaOf x.image

/-- Change the running descriptor's run. -/
def State.onRun (k : EngKind) (i : Nat) (f : EngRun → EngRun) (s : State) : State := s.onHead k i (fun h => { h with run := f h.run })

/-- Memory of the head's descriptor is held (R247, R384). -/
def State.solWaits (s : State) (i : Nat) : Bool :=
  let e := s.engine .sol i
  s.engWaits .sol i (e.solHead.ins e.solFormula ++ e.solHead.outs e.solFormula)

/-- What a Solitaire does when arithmetic begins: a NOP commits at once. RANGE_COUNT counts from the start of the last descriptor that works
on problems, and neither a NOP nor one that does not start changes it (R189; DESIGN CHOICE, log entry 16). -/
def State.solStart (i : Nat) (s : State) : State :=
  if descOp (s.engine .sol i).headDesc = 0 then s.finish .sol i stOk
  else
    (s.beginRun .sol i).onEng (fun x => { x with cmp := vmod x.cmp i (fun c => { c with rangeCount := 0 }) })

/-! ### Unspecified bytes -/

/-- Write bytes that the spec does not fix (log entry 6). -/
def State.scribble (a n : Nat) (s : State) : State :=
  let k := s.freeCtr
  { s.writeMem a ((upTo n).map (fun i => Config.unspecByte k i)) with freeCtr := k + 1 }

/-! ### COMPOUNDER_LANE_GROUP (R165, R169, R186) -/

/-- Set bit 0 of CMP_ERR, with its record (R189). -/
def State.cmpPoison (i : Nat) (s : State) : State :=
  let old := (vget s.eng.cmp i ⟨0, 0⟩).err.toNat
  (s.onEng (fun x => { x with cmp := vmod x.cmp i (fun c => { c with err := 1 }) })).errRecords .cmp i old 1

/-- A problem from its lane. -/
def problemOf (p : Nat) (x : FLane) (poisoned : Bool) : Problem where
  idx := p
  a := x.a
  fix := x.fix
  b := x.b
  wrote := x.wrote
  rangeBad := x.bad
  poisoned := poisoned
  factors := []
  recips := []
  pivots := []
  sigF := 0
  sigL := 0
  factored := false
  status := if x.bad then 7 else 0
  corrections := 0
  column := 0xFF
  warmUsed := false
  refactored := false
  warmRejected := false
  perturbed := false
  resNorm := none
  x := []
  done := x.bad
  fl := x.fl

/-- Assemble problem `p`. -/
def State.assemble (i p : Nat) (s : State) : State :=
  let e := s.engine .sol i
  let d := e.solHead
  let f := e.solFormula
  let env : FEnv := ⟨f, d.kind, e.headFlush, d.param + p * d.pstride, d.meas + p * d.mstride⟩
  let m := e.head.snap
  let x := FLane.run env (fun a n => leNat (s.readIn m a n)) (f.words.length + 1) f.words (FLane.start f.n f.h)
  let s := s.settleAll x.reads.reverse
  let bad := s.readsPoison x.reads
  let s := if bad then s.cmpPoison i else s
  let s := if x.bad ∧ p ≥ e.head.run.committed
    then s.onEng (fun y => { y with cmp := vmod y.cmp i (fun c => { c with rangeCount := c.rangeCount + 1 }) }) else s
  let s := s.scribble (d.work + p % 8 * bufSize f.n f.h) (bufSize f.n f.h)
  s.onRun .sol i (fun r => { r with problems := r.problems ++ [problemOf p x bad], assembled := r.assembled + 1 })

/-- COMPOUNDER_LANE_GROUP (R165): the next 64 problems, or as many as are left, once a problem buffer is free. -/
def execCompounderLaneGroup (i : Fin 16) (s : State) : Host.Outcome State Fault Refusal :=
  inService s (fun s =>
    let e := s.engine .sol i
    let d := e.solHead
    let r := e.head.run
    if e.head.phase ≠ .running ∨ !s.pwr.slotOn ∨ s.solWaits i ∨ r.assembled ≥ d.nprob ∨ r.problems.length ≥ 8 then s
    else ((upTo (min 64 (d.nprob - r.assembled))).map (fun k => r.assembled + k)).foldl (fun s p => s.assemble i p) s)

/-! ### Fixed point (R170) -/

/-- A factorisation in progress: factors row-major, reciprocals (r, b), pivot positions, the rows' order, whether a pivot was
perturbed, and the status and column of a failure. -/
structure Factoring where
  l : List Int
  rc : List (Int × Nat)
  piv : List Nat
  perm : List Nat
  perturbed : Bool
  fail : Option (Nat × Nat)
  deriving DecidableEq, Repr

/-- What the factorisation of a problem works on. -/
structure FactEnv where
  n : Nat
  kind : Nat
  /-- the FIX36 matrix, mirrored for the symmetric kinds -/
  a : List Int
  sigA : Int
  sigF : Int
  /-- σ_M, or σ_C for Cholesky -/
  sigL : Int
  perturb : Bool
  /-- ε·‖A‖∞ -/
  epsNorm : FVal
  deriving DecidableEq, Repr

/-- The exact sum of values. -/
def exactSum (xs : List FVal) : FVal := xs.foldl (FVal.add false) .zero

/-- The nearest integer to a quotient, ties to even. -/
def rneDiv (n d : Nat) : Nat :=
  let q := n / d
  let r := n % d
  if 2 * r > d ∨ (2 * r = d ∧ q % 2 = 1) then q + 1 else q

/-- Bit length. -/
def bitLen (n : Nat) : Nat := if n = 0 then 0 else n.log2 + 1

/-- R170: recip, as r and b. -/
def recipOf (m : Int) : Int × Nat :=
  let b := bitLen m.natAbs
  let r : Int := rneDiv (2 ^ (b + 33)) m.natAbs
  (if m < 0 then -r else r, b)

/-- The value of a reciprocal of grid `s`. -/
def recipVal (s : Int) (rb : Int × Nat) : FVal := FVal.ofInt false rb.1 (2 - s - rb.2)

/-- R172: to_fix of an exact square root. -/
def sqrtFix (s : Int) (v : FVal) : Int × Bool :=
  match v with
  | .fin _ m e => if m = 0 then (0, false) else let r := sqrtSticky m e; toFix36 s (.fin false r.1 r.2)
  | _ => (0, true)

/-- R170: pivot_check: the pivot, whether it was perturbed, or none where the factorisation ends. -/
def pivotCheck (e : FactEnv) (s : Int) (m : Int) : Option (Int × Bool) :=
  if m.natAbs ≥ 2 ^ 11 then some (m, false)
  else if !e.perturb then none
  else
    let q := (if e.kind = 1 then sqrtFix s e.epsNorm else toFix36 s e.epsNorm).1
    let mag : Int := max (q.natAbs : Int) (2 ^ 11)
    some (if m < 0 then -mag else mag, true)

/-- An entry of a row-major matrix. -/
def matAt (n : Nat) (a : List Int) (i j : Nat) : Int := a.getD (i * n + j) 0

/-- Set an entry. -/
def matSet (n : Nat) (a : List Int) (i j : Nat) (v : Int) : List Int := a.set (i * n + j) v

/-- Exchange two elements of a list. -/
def swapAt {α : Type} (d : α) (xs : List α) (i j : Nat) : List α := (xs.set i (xs.getD j d)).set j (xs.getD i d)

/-- Exchange two rows. -/
def swapRows (n : Nat) (a : List Int) (i j : Nat) : List Int :=
  if i = j then a
  else (upTo n).foldl (fun b k => (b.set (i * n + k) (matAt n a j k)).set (j * n + k) (matAt n a i k)) a

/-- Σ over k < m of products of row i (grid p) and column j (grid q) of the factors. -/
def dotF (n : Nat) (l : List Int) (p q : Int) (i j m : Nat) : FVal :=
  exactSum ((upTo m).map (fun k => FVal.mul (fix36Value p (matAt n l i k)) (fix36Value q (matAt n l k j))))

/-- The end of a factorisation. -/
def Factoring.stop (x : Factoring) (status col : Nat) : Factoring := { x with fail := some (status, col) }

/-- v − w, to a grid. -/
def fixSub (s : Int) (v w : FVal) : Int × Bool := toFix36 s (FVal.add false v w.negate)

/-- The position of the largest magnitude, lowest first. -/
def argMaxAbs : List (Nat × Int) → Option (Nat × Int)
  | [] => none
  | x :: r =>
    match argMaxAbs r with
    | none => some x
    | some y => if y.2.natAbs > x.2.natAbs then some y else some x

/-- R171: column `j` of the LU factorisation. -/
def luColumn (e : FactEnv) (x : Factoring) (j : Nat) : Factoring :=
  if x.fail.isSome then x
  else
    let n := e.n
    let orig (i k : Nat) : FVal := fix36Value e.sigA (matAt n e.a (x.perm.getD i 0) k)
    let vs := ((upTo n).drop j).map (fun i => (i, fixSub e.sigF (orig i j) (dotF n x.l e.sigL e.sigF i j j)))
    if vs.any (fun v => v.2.2) then x.stop 6 j
    else
      let p := (argMaxAbs (vs.map (fun v => (v.1, v.2.1)))).elim j Prod.fst
      let vals := swapAt 0 (List.replicate j 0 ++ vs.map (fun v => v.2.1)) j p
      let x := { x with perm := swapAt 0 x.perm j p, l := swapRows n x.l j p, piv := x.piv ++ [p] }
      if vals.getD j 0 = 0 then x.stop 4 j
      else match pivotCheck e e.sigF (vals.getD j 0) with
        | none => x.stop 6 j
        | some (u, pert) =>
          let rb := recipOf u
          let rv := recipVal e.sigF rb
          let x := { x with rc := x.rc ++ [rb], perturbed := x.perturbed || pert, l := matSet n x.l j j u }
          let below := ((upTo n).drop (j + 1)).map (fun i => (i, toFix36 e.sigL (FVal.mul (fix36Value e.sigF (vals.getD i 0)) rv)))
          let l := below.foldl (fun l b => matSet n l b.1 j b.2.1) x.l
          let right := ((upTo n).drop (j + 1)).map (fun k =>
            (k, fixSub e.sigF (fix36Value e.sigA (matAt n e.a (x.perm.getD j 0) k)) (dotF n x.l e.sigL e.sigF j k j)))
          let l := right.foldl (fun l b => matSet n l j b.1 b.2.1) l
          let x := { x with l := l }
          if below.any (fun b => b.2.2) || right.any (fun b => b.2.2) then x.stop 6 j else x

/-- Σ over k < m of l[i][k]·w_k. -/
def dotW (n : Nat) (l : List Int) (p : Int) (i m : Nat) (w : List FVal) : FVal :=
  exactSum ((upTo m).map (fun k => FVal.mul (fix36Value p (matAt n l i k)) (w.getD k .zero)))

/-- R172: column `j` of the Cholesky factorisation. -/
def cholColumn (e : FactEnv) (x : Factoring) (j : Nat) : Factoring :=
  if x.fail.isSome then x
  else
    let n := e.n
    let at_ (i k : Nat) : FVal := fix36Value e.sigA (matAt n e.a i k)
    let row (i : Nat) : List FVal := (upTo j).map (fun k => fix36Value e.sigL (matAt n x.l i k))
    let d := fixSub e.sigF (at_ j j) (dotW n x.l e.sigL j j (row j))
    if d.2 then x.stop 6 j
    else if d.1 ≤ 0 then x.stop 5 j
    else
      let r := sqrtFix e.sigL (fix36Value e.sigF d.1)
      if r.2 then x.stop 6 j
      else match pivotCheck e e.sigL r.1 with
        | none => x.stop 6 j
        | some (u, pert) =>
          let rb := recipOf u
          let rv := recipVal e.sigL rb
          let x := { x with rc := x.rc ++ [rb], perturbed := x.perturbed || pert, l := matSet n x.l j j u, piv := x.piv ++ [j] }
          let below := ((upTo n).drop (j + 1)).map (fun i =>
            let t := fixSub e.sigF (at_ i j) (dotW n x.l e.sigL i j (row j))
            let q := toFix36 e.sigL (FVal.mul (fix36Value e.sigF t.1) rv)
            (i, q.1, t.2 || q.2))
          let x := { x with l := below.foldl (fun l b => matSet n l b.1 j b.2.1) x.l }
          if below.any (fun b => b.2.2) then x.stop 6 j else x

/-- R172: column `j` of the LDLᵀ factorisation. -/
def ldltColumn (e : FactEnv) (x : Factoring) (j : Nat) : Factoring :=
  if x.fail.isSome then x
  else
    let n := e.n
    let at_ (i k : Nat) : FVal := fix36Value e.sigA (matAt n e.a i k)
    let ws := (upTo j).map (fun k =>
      toFix36 e.sigF (FVal.mul (fix36Value e.sigL (matAt n x.l j k)) (fix36Value e.sigF (matAt n x.l k k))))
    let w := ws.map (fun q => fix36Value e.sigF q.1)
    let v := fixSub e.sigF (at_ j j) (dotW n x.l e.sigL j j w)
    if ws.any Prod.snd || v.2 then x.stop 6 j
    else if v.1 = 0 then x.stop 4 j
    else match pivotCheck e e.sigF v.1 with
      | none => x.stop 6 j
      | some (u, pert) =>
        let rb := recipOf u
        let rv := recipVal e.sigF rb
        let x := { x with rc := x.rc ++ [rb], perturbed := x.perturbed || pert, l := matSet n x.l j j u, piv := x.piv ++ [j] }
        let below := ((upTo n).drop (j + 1)).map (fun i =>
          let t := fixSub e.sigF (at_ i j) (dotW n x.l e.sigL i j w)
          let q := toFix36 e.sigL (FVal.mul (fix36Value e.sigF t.1) rv)
          (i, q.1, t.2 || q.2))
        let x := { x with l := below.foldl (fun l b => matSet n l b.1 j b.2.1) x.l }
        if below.any (fun b => b.2.2) then x.stop 6 j else x

/-- R171, R172: a factorisation. -/
def factorise (e : FactEnv) : Factoring :=
  let col := if e.kind = 0 then luColumn e else if e.kind = 1 then cholColumn e else ldltColumn e
  (upTo e.n).foldl col ⟨List.replicate (e.n * e.n) 0, [], [], upTo e.n, false, none⟩

/-! ### The FP64 matrix and norms (R167, R176) -/

/-- Entry (i, j), mirrored for the symmetric kinds. -/
def mirror {α : Type} (n kind : Nat) (d : α) (a : List α) (i j : Nat) : α :=
  if kind ≠ 0 ∧ j > i then a.getD (j * n + i) d else a.getD (i * n + j) d

/-- R176: the largest magnitude of finite or infinite values; none for an empty list. -/
def normInf (xs : List FVal) : FVal := xs.foldl (fun m x => if FVal.lt m x.abs then x.abs else m) .zero

/-- R176: ‖A‖∞. -/
def matrixNorm (flush : Bool) (n kind : Nat) (a : List Nat) : FVal :=
  normInf ((upTo n).map (fun i =>
    let xs := (upTo n).map (fun j => (fp64.decodeFlush flush (mirror n kind 0 a i j)).1.abs)
    let anchor := (addExpo 1 (maxE xs)).getD 0
    fp64.decode (fp64.encode .rne flush ((ASum.terms win192 anchor {} xs).value win192 anchor)).1))

/-- What the factorisation of a problem takes. -/
def factEnv (d : SolDesc) (f : Formula) (flush : Bool) (p : Problem) : FactEnv :=
  let sigF := f.sigA + f.grow
  { n := f.n, kind := d.kind
    a := ((upTo f.n).map (fun i => (upTo f.n).map (fun j => mirror f.n d.kind 0 p.fix i j))).flatten
    sigA := f.sigA, sigF
    sigL := if d.kind = 1 then -((-sigF) / 2) else 1 + f.mgrow
    perturb := d.perturb
    epsNorm := (matrixNorm flush f.n d.kind p.a).scale (-(d.pertLog2 : Int)) }

/-- A problem with the outcome of its factorisation. -/
def Problem.factorise (p : Problem) (e : FactEnv) : Problem :=
  let r := Machine.factorise e
  let p := { p with perturbed := p.perturbed || r.perturbed }
  match r.fail with
  | some (st, col) => { p with status := st, column := col, done := true }
  | none => { p with factors := r.l, recips := r.rc, pivots := r.piv, sigF := e.sigF, sigL := e.sigL, factored := true }

/-! ### Slots (R179-R181) -/

/-- R179: a slot's header. -/
def slotHeader (d : SolDesc) (f : Formula) (p : Problem) : List Byte :=
  leBytes 1 1 ++ leBytes 1 d.kind ++ leBytes 1 f.n ++ leBytes 1 f.h ++ leBytes 2 (ofSigned 16 p.sigF) ++
  leBytes 2 (ofSigned 16 p.sigL) ++ leBytes 8 (structureHash p.wrote) ++ List.replicate 48 0

/-- R179: a slot's body. -/
def slotBody (p : Problem) : List Byte :=
  (p.factors.map (fun m => leBytes 8 (fix36Container m))).flatten ++
  (p.recips.map (fun rb => leBytes 8 (ofSigned 36 rb.1 + rb.2 % 64 * 2 ^ 36))).flatten ++ p.pivots.map (fun x => BitVec.ofNat 8 x)

/-- R180: the signature of a slot agrees with the problem. -/
def slotMatches (d : SolDesc) (f : Formula) (p : Problem) (b : List Byte) : Bool :=
  leAt b 0 1 == 1 && leAt b 1 1 % 4 == d.kind && leAt b 2 1 == f.n && leAt b 3 1 == f.h && leAt b 8 8 == structureHash p.wrote

/-- R180: a problem with a slot's factors. -/
def Problem.useSlot (p : Problem) (n : Nat) (b : List Byte) : Problem :=
  let word (k : Nat) : Nat := leAt b (64 + 8 * k) 8
  { p with
    factors := (upTo (n * n)).map (fun k => fix36OfContainer (word k))
    recips := (upTo n).map (fun k => (fix36OfContainer (word (n * n + k)), field (word (n * n + k)) 41 36))
    pivots := (upTo n).map (fun k => leAt b (64 + 8 * n * n + 8 * n + k) 1)
    sigF := toSigned 16 (leAt b 4 2), sigL := toSigned 16 (leAt b 6 2), factored := true, warmUsed := true }

/-- Change the problem of index `p` in an engine's run. -/
def State.onProblem (i p : Nat) (f : Problem → Problem) (s : State) : State :=
  s.onRun .sol i (fun r => { r with problems := r.problems.map (fun x => if x.idx = p then f x else x) })

/-- The problem of index `p`, where one of the engine's 8 buffers holds it. -/
def Engine.buffered (e : Engine) (p : Nat) : Option Problem := (e.head.run.problems.take 8).find? (fun x => x.idx == p)

/-- SOL_FACTORISE (R171, R180): a problem of the work area takes its warm slot's factors or is factorised. -/
def execSolFactorise (i : Fin 16) (p : BitVec 12) (s : State) : Host.Outcome State Fault Refusal :=
  inService s (fun s =>
    let e := s.engine .sol i
    let d := e.solHead
    let f := e.solFormula
    match e.buffered p.toNat with
    | none => s
    | some x =>
      if e.head.phase ≠ .running ∨ !s.pwr.slotOn ∨ x.done ∨ x.factored ∨ x.poisoned then s
      else
        let cold (y : Problem) : Problem := y.factorise (factEnv d f e.headFlush y)
        if !d.warm then s.onProblem i p.toNat cold
        else
          let a := d.slot + (d.warmFirst + p.toNat) * d.slotStride
          let n := slotBytes f.n
          let s := s.settle a n
          if s.poisonedIn a n then (s.engErr .sol i 1).onProblem i p.toNat (fun y => { y with poisoned := true })
          else
            let b := s.readIn e.head.snap a n
            if slotMatches d f x b then s.onProblem i p.toNat (fun y => y.useSlot f.n b)
            else s.onProblem i p.toNat (fun y => cold { y with warmRejected := true }))

/-! ### Solve (R174) -/

/-- R171: the rows' order that the pivots give; a pivot beyond the matrix, which only a damaged slot can hold, moves nothing. -/
def permOf (n : Nat) (piv : List Nat) : List Nat :=
  (List.zip (upTo n) piv).foldl (fun pm jp => if jp.2 < n then swapAt 0 pm jp.1 jp.2 else pm) (upTo n)

/-- What a solve takes from a problem. -/
structure SolveEnv where
  n : Nat
  kind : Nat
  grow : Int
  xrel : Int
  l : List Int
  rc : List (Int × Nat)
  perm : List Nat
  sigF : Int
  sigL : Int
  deriving DecidableEq, Repr

/-- A column in progress, with its mark of overflow. -/
abbrev SolCol := List Int × Bool

/-- R174: solve. -/
def solveCol (e : SolveEnv) (c : List FVal) (sB : Int) : SolCol :=
  let n := e.n
  let sY := sB + e.grow
  let sX := sB + e.xrel
  let c := if e.kind = 0 then (upTo n).map (fun i => c.getD (e.perm.getD i 0) .zero) else c
  let q := c.map (fun v => toFix36 sB v)
  let lv (i k : Nat) : FVal := fix36Value e.sigL (matAt n e.l i k)
  let uv (i k : Nat) : FVal := fix36Value e.sigF (matAt n e.l i k)
  let rc (j : Nat) : FVal := recipVal (if e.kind = 1 then e.sigL else e.sigF) (e.rc.getD j (0, 0))
  let dot (ks : List Nat) (g : Nat → FVal) (v : List Int) (sg : Int) : FVal :=
    exactSum (ks.map (fun k => FVal.mul (g k) (fix36Value sg (v.getD k 0))))
  let fwd := (upTo n).foldl (fun (y : SolCol) i =>
    let t := fixSub sY (fix36Value sB (q.getD i (0, false)).1) (dot (upTo i) (lv i) y.1 sY)
    if e.kind = 1 then
      let u := toFix36 sY (FVal.mul (fix36Value sY t.1) (rc i))
      (y.1 ++ [u.1], y.2 || t.2 || u.2)
    else (y.1 ++ [t.1], y.2 || t.2)) (([], q.any Prod.snd) : SolCol)
  let z : SolCol := if e.kind = 2 then
      (List.zip (upTo n) fwd.1).foldl (fun (z : SolCol) iy =>
        let u := toFix36 sY (FVal.mul (fix36Value sY iy.2) (rc iy.1))
        (z.1 ++ [u.1], z.2 || u.2)) (([], fwd.2) : SolCol)
    else fwd
  (upTo n).reverse.foldl (fun (x : SolCol) j =>
    let later := (upTo n).drop (j + 1)
    let zj := fix36Value sY (z.1.getD j 0)
    if e.kind = 2 then
      let t := fixSub sX zj (dot later (fun k => lv k j) x.1 sX)
      (x.1.set j t.1, x.2 || t.2)
    else
      let t := fixSub sY zj (dot later (fun k => if e.kind = 0 then uv j k else lv k j) x.1 sX)
      let u := toFix36 sX (FVal.mul (fix36Value sY t.1) (rc j))
      (x.1.set j u.1, x.2 || t.2 || u.2)) ((List.replicate n 0, z.2) : SolCol)

/-! ### Residual and refinement (R175-R178) -/

/-- R175: one residual component, and its flags. -/
def residualRow (flush : Bool) (arow : List Nat) (b : Nat) (x : List Nat) : FVal × AFlags :=
  let dec (v : Nat) : FVal × Bool := fp64.decodeFlush flush v
  let as := arow.map dec
  let xs := x.map dec
  let bv := dec b
  let anchor := (List.zip as xs).foldl (fun m ax =>
    match ax.1.1.expo, ax.2.1.expo with
    | some p, some q => maxExpo m (some (p + q + 2))
    | _, _ => m) (addExpo 1 bv.1.expo)
  let terms := bv.1 :: (List.zip as xs).map (fun ax => (FVal.mul ax.1.1 ax.2.1).negate)
  let acc := ASum.terms win192 (anchor.getD 0) {} terms
  let r := fp64.encode .rne flush (acc.value win192 (anchor.getD 0))
  (fp64.decode r.1, (acc.flags.or r.2).or { flushed := bv.2 || as.any Prod.snd || xs.any Prod.snd })

/-- A column in refinement. -/
structure RefCol where
  b : List Nat
  bNorm : FVal
  x : List Nat
  active : Bool
  prev : Option FVal
  /-- norm of the last residual formed, and the residual -/
  last : Option FVal
  r : List FVal
  deriving DecidableEq, Repr

/-- What refinement works on. -/
structure RefEnv where
  sv : SolveEnv
  flush : Bool
  /-- the FP64 matrix, row by row, mirrored -/
  rows : List (List Nat)
  aNorm : FVal
  tau : FVal
  rho : FVal
  cap : Nat
  deriving DecidableEq, Repr

/-- How a refinement stands: columns, corrections, flags, status (0 while it runs). -/
structure Refining where
  cols : List RefCol
  k : Nat
  fl : AFlags
  status : Nat
  deriving DecidableEq, Repr

/-- E(v) + 1 of a norm. -/
def normExp (v : FVal) : Int := (v.expo.getD 0) + 1

/-- R177: the first solve of each column; an x that rounds to an infinity ends the loop, as an update does. -/
def firstSolve (e : RefEnv) (bs : List (List Nat)) : Refining :=
  bs.foldl (fun s b =>
    let bv := b.map fp64.decode
    let nb := normInf bv
    let mk (x : List Nat) (act : Bool) : RefCol := ⟨b, nb, x, act, none, none, []⟩
    if s.status ≠ 0 then s
    else if nb.isZero then { s with cols := s.cols ++ [mk (List.replicate b.length 0) false] }
    else
      let r := solveCol e.sv bv (normExp nb)
      let sX := normExp nb + e.sv.xrel
      { s with
        cols := s.cols ++ [mk (r.1.map (fun m => (fp64.encode .rne false (fix36Value sX m)).1)) true]
        status := if r.2 ∨ r.1.any (fun m => (fp64.decode (fp64.encode .rne false (fix36Value sX m)).1).isInf) then 6 else 0 }) ⟨[], 0, {}, 0⟩

/-- R177: the residual test of one active column. -/
def testColumn (e : RefEnv) (s : Refining) (c : RefCol) : Refining :=
  if s.status ≠ 0 ∨ !c.active then { s with cols := s.cols ++ [c] }
  else
    let rs := (List.zip e.rows c.b).map (fun ab => residualRow e.flush ab.1 ab.2 c.x)
    let r := rs.map Prod.fst
    let nr := normInf r
    let fl := s.fl.or (AFlags.all (rs.map Prod.snd))
    let c := { c with last := some nr, r := r }
    let bound := FVal.mul e.tau (FVal.add false (FVal.mul e.aNorm (normInf (c.x.map fp64.decode))) c.bNorm)
    if nr.isInf then { s with cols := s.cols ++ [c], fl, status := 6 }
    else if FVal.le nr bound then { s with cols := s.cols ++ [{ c with active := false }], fl }
    else if (match c.prev with | some p => FVal.lt (FVal.mul e.rho p) nr | none => false) then
      { s with cols := s.cols ++ [c], fl, status := 3 }
    else { s with cols := s.cols ++ [{ c with prev := some nr }], fl }

/-- R177: the correction of one active column. -/
def correctColumn (e : RefEnv) (s : Refining) (c : RefCol) : Refining :=
  if s.status ≠ 0 ∨ !c.active then { s with cols := s.cols ++ [c] }
  else
    let nr := normInf c.r
    let d := solveCol e.sv c.r (normExp nr)
    let sX := normExp nr + e.sv.xrel
    let ups := (List.zip c.x d.1).map (fun xm =>
      let x := fp64.decodeFlush e.flush xm.1
      let dv := fp64.decodeFlush e.flush (fp64.encode .rne false (fix36Value sX xm.2)).1
      let r := fp64.encode .rne e.flush (FVal.add false x.1 dv.1)
      (r.1, r.2.or { flushed := x.2 || dv.2 }))
    if d.2 then { s with cols := s.cols ++ [c], status := 6 }
    else
      let x := ups.map Prod.fst
      { s with
        cols := s.cols ++ [{ c with x := x }], fl := s.fl.or (AFlags.all (ups.map Prod.snd))
        status := if x.any (fun v => (fp64.decode v).isInf) then 6 else 0 }

/-- R177: the loop (`fuel` passes at most; the cap ends it sooner). -/
def refineLoop (e : RefEnv) : Nat → Refining → Refining
  | 0, s => s
  | n + 1, s =>
    if s.status ≠ 0 then s
    else
      let t := s.cols.foldl (testColumn e) { s with cols := [] }
      if t.status ≠ 0 then t
      else if !(t.cols.any (fun c => c.active)) then { t with status := 1 }
      else if t.k = e.cap then { t with status := 2 }
      else
        let u := t.cols.foldl (correctColumn e) { t with cols := [] }
        if u.status ≠ 0 then u else refineLoop e n { u with k := u.k + 1 }

/-- R182: the norm of each column's last residual, whichever run of R177 formed it. -/
def lastNorms (cols : List RefCol) (old : List (Option FVal)) (h : Nat) : List (Option FVal) :=
  (upTo h).map (fun c => ((cols[c]?).bind (fun x => x.last)).or ((old[c]?).getD none))

/-- R177: refine a problem with the factors it has; `old` holds the norms that an earlier run has left. -/
def Problem.refineOver (old : List (Option FVal)) (p : Problem) (d : SolDesc) (f : Formula) (flush : Bool) : Problem × List (Option FVal) :=
  let sv : SolveEnv := ⟨f.n, d.kind, f.grow, f.xrel, p.factors, p.recips, permOf f.n p.pivots, p.sigF, p.sigL⟩
  let e : RefEnv :=
    { sv, flush
      rows := (upTo f.n).map (fun i => (upTo f.n).map (fun j => mirror f.n d.kind 0 p.a i j))
      aNorm := matrixNorm flush f.n d.kind p.a, tau := d.tau, rho := .fin false d.rho (-16), cap := d.cap }
  let r := refineLoop e 17 (firstSolve e (pieces f.n f.h p.b))
  let norms := lastNorms r.cols old f.h
  let lasts := norms.filterMap id
  ({ p with
    status := r.status, corrections := r.k, column := 0xFF, fl := p.fl.or r.fl, x := (r.cols.map (fun c => c.x)).flatten
    resNorm := if lasts.isEmpty then none else some (fp64.encode .rne false (normInf lasts)).1
    done := true }, norms)

/-- R177: one run of refinement. -/
def Problem.refine (p : Problem) (d : SolDesc) (f : Formula) (flush : Bool) : Problem := (p.refineOver [] d f flush).1

/-- R180, R182: solve and refinement, and after a warm run that fails the problem's own factorisation and a second run; where that
factorisation fails, the corrections and norms of the first run stay. -/
def Problem.solve (x : Problem) (d : SolDesc) (f : Formula) (flush : Bool) : Problem :=
  let r := x.refineOver [] d f flush
  let y := r.1
  if y.warmUsed ∧ (y.status = 3 ∨ y.status = 6) then
    let z := { x with
      fl := y.fl, refactored := true, factored := false, corrections := y.corrections, resNorm := y.resNorm }.factorise (factEnv d f flush x)
    if z.factored then (z.refineOver r.2 d f flush).1 else z
  else y

/-- R450: the refinement corrections that SOL_REFINE makes, those before a refactorisation among them. -/
def Problem.correctionsMade (p : Problem) (d : SolDesc) (f : Formula) (flush : Bool) : Nat :=
  let y := p.refine d f flush
  if y.warmUsed ∧ (y.status = 3 ∨ y.status = 6) then
    let z := { p with fl := y.fl, refactored := true, factored := false }.factorise (factEnv d f flush p)
    y.corrections + (if z.factored then (z.refine d f flush).corrections else 0)
  else y.corrections

/-- SOL_REFINE (R177, R180): the solve and refinement of a factorised problem, and after a warm start that fails, its own
factorisation and a second run. -/
def execSolRefine (i : Fin 16) (p : BitVec 12) (s : State) : Host.Outcome State Fault Refusal :=
  inService s (fun s =>
    let e := s.engine .sol i
    let d := e.solHead
    let f := e.solFormula
    let flush := e.headFlush
    match e.buffered p.toNat with
    | none => s
    | some x =>
      if e.head.phase ≠ .running ∨ !s.pwr.slotOn ∨ x.done ∨ !x.factored ∨ x.poisoned then s
      else
        (s.onProblem i p.toNat (fun x => x.solve d f flush)).pulse (.sol i) 0x0304 (x.correctionsMade d f flush))

/-! ### Commit (R178, R181-R186) -/

/-- R182: a status record. -/
def statusRecord (p : Problem) : List Byte :=
  leBytes 1 p.status ++ leBytes 1 (p.corrections % 16) ++ leBytes 1 p.column ++
  leBytes 1 (8 * bit01 p.warmUsed + 4 * bit01 p.refactored + 2 * bit01 p.warmRejected + bit01 p.perturbed) ++ leBytes 4 0 ++
  leBytes 8 (p.resNorm.getD fp64.nanBits)

/-- R178: is the solution of this status the last x? -/
def keepsX (status : Nat) : Bool := status == 1 || status == 2 || status == 3

/-- R185: a problem's outputs, in their order. -/
def State.commitProblem (d : SolDesc) (f : Formula) (p : Problem) (s : State) : State :=
  let n := f.n
  let words (xs : List Nat) : List Byte := (xs.map (leBytes 8)).flatten
  let s := s.writeMem (d.x + p.idx * xSize n f.h) (words (if keepsX p.status then p.x else List.replicate (n * f.h) fp64.nanBits))
  let s := if d.fb ≠ noAddr ∧ 2 ≤ p.status ∧ p.status ≤ 7 then
      s.writeMem (d.fb + p.idx * fbSize n f.h) (leBytes 4 p.idx ++ leBytes 1 p.status ++ List.replicate 59 0 ++
        words (((upTo n).map (fun i => (upTo n).map (fun j => mirror n d.kind 0 p.a i j))).flatten) ++ words p.b)
    else s
  let a := d.slot + (d.saveFirst + p.idx) * d.slotStride
  let s := if !d.save then s
    else if keepsX p.status then s.writeMem a (slotHeader d f p ++ slotBody p)
    else (s.writeMem a [0]).scribble (a + 1) (slotBytes n - 1)
  s.writeMem (d.status + 16 * p.idx) (statusRecord p)

/-- SOL_PROBLEM_COMMIT (R185, R186): the next problem in index order commits, or writes its outputs again in a replay; the last one ends
the descriptor. A problem that met poison ends it, with RESET in its status record and in those after it. -/
def execSolProblemCommit (i : Fin 16) (s : State) : Host.Outcome State Fault Refusal :=
  inService s (fun s =>
    let e := s.engine .sol i
    let d := e.solHead
    match e.head.run.problems with
    | [] => s
    | p :: rest =>
      if e.head.phase ≠ .running ∨ s.solWaits i then s
      else if p.poisoned then (s.solRest i).finish .sol i stPoison
      else if !p.done then s
      else
        let again := decide (p.idx < e.head.run.committed)
        let fallback := if again then 0 else bit01 (decide (2 ≤ p.status) && decide (p.status ≤ 7))
        let s := (s.commitProblem d e.solFormula p).pulse (.sol i) 0x0303 fallback
        let s := s.onHead .sol i (fun h => { h with
          flags := h.flags.or p.fl
          run := { h.run with
            problems := rest, committed := if again then h.run.committed else h.run.committed + 1
            fallbacks := h.run.fallbacks + fallback } })
        if p.idx + 1 ≥ d.nprob then s.finish .sol i stOk else s)

end Sys2Proof.Machine
end

