-- ==== Sys2Proof/Machine/Shuffle.lean ====
section
/-!
DEFINITION. Shuffle.lean: Shuffle descriptors (R197-R199), FILL and Jumpahead mode (R196, R200-R203), SAMPLE (R204-R207), the Shuffle
state and its registers (R208), commit; and PIP_WAIT_SATISFIED for every kind of engine (R101, R134, R161, R197).
-/
namespace Sys2Proof.Machine

open Sys2Proof

/-- R197: the fields of a descriptor. -/
structure ShfDesc where
  op : Nat
  jump : Bool
  dist : Nat
  scoreFmt : Nat
  stream : Nat
  draw : Nat
  baseIndex : Nat
  count : Nat
  bernP : Nat
  out : Nat
  score : Nat
  mask : Nat
  len : Nat
  rowStride : Nat
  paramA : Nat
  paramB : Nat
  topK : Nat
  slotSel : Nat
  deriving DecidableEq, Repr

/-- Read the fields. -/
def shfDesc (x : BitVec 1024) : ShfDesc where
  op := df x 0 7 0
  jump := df x 1 5 5 == 1
  dist := df x 1 2 0
  scoreFmt := df x 2 4 0
  stream := df x 4 31 0
  draw := df x 8 31 0
  baseIndex := df x 16 63 0
  count := df x 24 31 0
  bernP := df x 28 15 0
  out := df x 32 63 0
  score := df x 40 63 0
  mask := df x 48 63 0
  len := df x 56 31 0
  rowStride := df x 60 31 0
  paramA := df x 64 31 0
  paramB := df x 68 31 0
  topK := df x 72 15 0
  slotSel := df x 74 1 0

/-- The score format, binary32 where a code is reserved (such a descriptor is rejected). -/
def ShfDesc.fmt (d : ShfDesc) : Fmt := (fmtOfCode d.scoreFmt).getD .b32

/-- R200: bytes of an element. -/
def ShfDesc.elemSize (d : ShfDesc) : Nat := if d.dist = 2 then 1 else if d.dist = 4 then 16 else 4

/-- The selected slots. -/
def ShfDesc.slots (d : ShfDesc) : List Nat := onesOf 2 d.slotSel

/-- The extents written. -/
def ShfDesc.outs (d : ShfDesc) : List (Nat × Nat) :=
  if d.op = 1 then [(d.out, d.count * d.elemSize)] else d.slots.map (fun s => (d.out + 32 * s, 32))

/-- The extents read: score and mask rows. -/
def ShfDesc.ins (d : ShfDesc) : List (Nat × Nat) :=
  if d.op = 1 then []
  else d.slots.map (fun s => (d.score + s * d.rowStride, d.len * (d.fmt.bits / 8))) ++
    (if d.mask = noAddr then [] else d.slots.map (fun s => (d.mask + s * d.rowStride, d.len)))

/-- A sequence slot of a unit. -/
def State.shfSlot (s : State) (i k : Nat) : SeqSlot := vget (vget s.eng.shfState i ShfState.reset).slots k ⟨false, 0, 0⟩

/-- R198, DESC_OP. -/
def shfBadOp (s : State) (i : Nat) (d : ShfDesc) : Bool :=
  let a := fp32.decode d.paramA
  let b := fp32.decode d.paramB
  if d.op = 1 then
    decide (d.dist > 4) ||
      (d.dist == 3 && !((match a with | .fin _ _ _ => true | _ => false) && (match b with | .fin _ _ _ => true | _ => false) &&
        FVal.lt a b))
  else if d.op = 2 then
    d.jump || d.slots.isEmpty || d.slots.any (fun k => !(s.shfSlot i k).active) ||
    d.paramA.testBit 31 || a.isNan || a.isInf || b.isNan || FVal.le b .zero || FVal.lt (ofI 1) b || decide (d.topK > 1024)
  else true

/-- R198, R483: acceptance of a Shuffle descriptor. -/
def shfCheck (i : Nat) (s : State) (sub : Submission) : Accepted :=
  let x := sub.desc
  if descOp x = 0 then { status := nopStatus .shf s x }
  else
    let d := shfDesc x
    { status := firstFail [(shfBadOp s i d, stOp),
        (d.op == 2 && ((fmtOfCode d.scoreFmt).isNone || !d.fmt.shfScore), stFormat),
        ((if d.op = 1 then d.count == 0 || decide (d.count > 2 ^ 26) else d.len == 0 || decide (d.len > 262144)) || !(pipsOk .shf x), stDim),
        (d.out % 64 != 0 || (d.op == 2 && (d.score % 64 != 0 || (d.mask != noAddr && d.mask % 64 != 0) || d.rowStride % 64 != 0)), stAlign),
        ((d.ins ++ d.outs).any (fun e => !(s.sharedExtent e.1 e.2)) || anyOverlap d.outs d.ins, stAddr),
        (!(relValid s (descRelease .shf x)), stRelease)] }

/-- SHF_ACCEPT (R198): a descriptor enters the FIFO. -/
def execShfAccept (i : Fin 16) (s : State) : Host.Outcome State Fault Refusal := inService s (State.accept .shf i (shfCheck i))

/-! ### FILL (R196, R200-R203) -/

/-- One element: its bytes, its flags, TRUNC_CAP, and the blocks it used. `blk a` is the block of attempt `a`. -/
structure FillElem where
  bytes : List Byte
  fl : AFlags
  trunc : Bool
  used : Nat
  deriving DecidableEq, Repr

/-- R202: attempts `a`, …, `a + n`: the first one within the bounds, else the clamp of the last. -/
def truncNormal (blk : Nat → VBlock) (lo hi : Nat) : Nat → Nat → FillElem
  | 0, a =>
    let z := normalElem (blk a)
    let v := fp32.decode z.1
    let below := FVal.lt v (fp32.decode lo)
    let above := FVal.lt (fp32.decode hi) v
    ⟨leBytes 4 (if below then lo else if above then hi else z.1), { inexact := z.2.inexact }, below || above, a + 1⟩
  | n + 1, a =>
    let z := normalElem (blk a)
    let v := fp32.decode z.1
    if FVal.le (fp32.decode lo) v ∧ FVal.le v (fp32.decode hi) then ⟨leBytes 4 z.1, { inexact := z.2.inexact }, false, a + 1⟩
    else truncNormal blk lo hi n (a + 1)

/-- R200: one element. -/
def fillElem (d : ShfDesc) (blk : Nat → VBlock) : FillElem :=
  match d.dist with
  | 0 => ⟨leBytes 4 (fp32.encode .rne false (.fin false ((blk 0).x0.toNat / 2 ^ 8) (-24))).1, {}, false, 1⟩
  | 1 => let z := normalElem (blk 0); ⟨leBytes 4 z.1, { inexact := z.2.inexact }, false, 1⟩
  | 2 => ⟨leBytes 1 (bit01 (decide (draw16 (blk 0) < d.bernP))), {}, false, 1⟩
  | 3 => truncNormal blk d.paramA d.paramB 15 0
  | _ => ⟨leBytes 16 (rawDraw (blk 0)), {}, false, 1⟩

/-- R195, R196, R200: the elements e, e+1, … (`n` of them), from the lane positions; the result is reversed. -/
def fillAll (key : BitVec 128) (d : ShfDesc) : Nat → Nat → List (BitVec 96) → List FillElem → List FillElem × List (BitVec 96)
  | 0, _, lanes, acc => (acc, lanes)
  | n + 1, e, lanes, acc =>
    let p := lanes.getD (e % 64) 0
    let blk (a : Nat) : VBlock :=
      if d.jump then
        let q := p + BitVec.ofNat 96 a
        vetiver key d.stream (q.toNat / 2 ^ 32) q.toNat
      else vetiver key d.stream (d.baseIndex + e) (d.draw + a)
    let x := fillElem d blk
    fillAll key d n (e + 1) (if d.jump then lanes.set (e % 64) (p + BitVec.ofNat 96 x.used) else lanes) (x :: acc)

/-! ### SAMPLE (R204-R207) -/

/-- Insert by a key, after its equals: the list stays in descending order with the lower index first among equals. -/
def insertDesc (x : Nat × FVal) : List (Nat × FVal) → List (Nat × FVal)
  | [] => [x]
  | y :: r => if FVal.lt y.2 x.2 then x :: y :: r else y :: insertDesc x r

/-- R205: the total order, descending. -/
def sortDesc (xs : List (Nat × FVal)) : List (Nat × FVal) := xs.foldl (fun acc x => insertDesc x acc) []

/-- R207: the outcome of one row. -/
structure SampleOut where
  index : Nat
  kept : Nat := 0
  prob : Nat := 0
  greedy : Bool := false
  infTie : Bool := false
  nanSeen : Bool := false
  empty : Bool := false
  fl : AFlags := {}
  deriving DecidableEq, Repr

/-- The index with the largest score, lowest first. -/
def argMaxScore (xs : List (Nat × FVal)) : Nat := (argBest (fun y x => FVal.lt x y) xs).elim 0 Prod.fst

/-- The running integer sums of R205: each entry with its cumulative sum, and whether window bits were lost. -/
def cumSums (xs : List FVal) : List Int × Bool :=
  let r := xs.foldl (fun (st : List Int × ASum) x => let a := st.2.term win128 1 x; (st.1 ++ [a.s], a)) (([], {}) : List Int × ASum)
  (r.1, r.2.wl)

/-- The first position of a list that a test picks. -/
def firstIdx {α : Type} (p : α → Bool) : List α → Option Nat
  | [] => none
  | x :: r => if p x then some 0 else (firstIdx p r).map (· + 1)

/-- R205: sample_row; `r` is the 24-bit draw of the slot. Each score stands beside what R56 makes of it as the operand of a
division. A score whose quotient is NaN, as 0 over a temperature flushed to 0, is left out without NAN_SEEN (DESIGN CHOICE, log entry 16). -/
def sampleRow (flush : Bool) (xs : List (FVal × (FVal × Bool))) (mask : List Bool) (t : FVal) (k : Nat) (p : FVal) (r : Nat) : SampleOut :=
  let all := List.zip (upTo xs.length) (List.zip mask xs)
  let nanSeen := all.any (fun q => !q.2.1 && q.2.2.1.isNan)
  let valid := (all.filter (fun q => !q.2.1 && !q.2.2.1.isNan)).map (fun q => (q.1, q.2.2))
  let notNinf (q : Nat × FVal) : Bool := !(q.2.isInf && q.2.neg)
  let none_ (fl : AFlags) : SampleOut := { index := 0xFFFFFFFF, nanSeen, empty := true, fl }
  if t.isZero then
    let act := (valid.map (fun q => (q.1, q.2.1))).filter notNinf
    if act.isEmpty then none_ {} else { index := argMaxScore act, nanSeen, greedy := true }
  else
    let tv := if flush ∧ t.expo.any (fun e => decide (e < -126)) then (FVal.zero, true) else (t, false)
    let zs := valid.map (fun q => let z := fp32.encodeX .rne flush (xDiv q.2.2.1 tv.1); ((q.1, fp32.decode z.1), z.2.or { flushed := q.2.2.2 }))
    let keepFl (fl : AFlags) : AFlags := { inexact := fl.inexact, windowLoss := fl.windowLoss, flushed := fl.flushed }
    let fz := keepFl ((AFlags.all (zs.map Prod.snd)).or { flushed := tv.2 && !valid.isEmpty })
    let act := (zs.map Prod.fst).filter (fun q => notNinf q && !q.2.isNan)
    if act.isEmpty then none_ fz
    else
      let sorted := sortDesc act
      let kept := if k > 0 then sorted.take k else sorted
      let infs := (kept.filter (fun q => q.2.isInf)).map Prod.fst
      match infs with
      | [i] => { index := i, nanSeen, fl := fz }
      | _ :: _ :: _ =>
        let asc := (upTo xs.length).filter (fun i => infs.contains i)
        { index := asc.getD (r * asc.length / 2 ^ 24) 0, nanSeen, infTie := true, fl := fz }
      | [] =>
        let m := (kept.headD (0, .zero)).2
        let es := kept.map (fun q =>
          let d := fp32.encodeX .rne flush (xAdd false q.2 m.negate)
          let dv := fp32.decodeFlush flush d.1
          let e := transOp .exp fp32 flush dv.1
          let ev := fp32.decodeFlush flush e.1
          (q.1, ev.1, (d.2.or e.2).or { flushed := dv.2 || ev.2 }))
        let acc := ASum.terms win128 1 {} (es.map (fun e => e.2.1))
        let qs := es.map (fun e =>
          let q := fp32.encode .rne flush ((divSticky e.2.1 acc.s.toNat).scale 127)
          ((e.1, fp32.decode q.1), q.2))
        let order := sortDesc ((upTo xs.length).filterMap (fun i => (qs.find? (fun q => q.1.1 == i)).map Prod.fst))
        let cum := cumSums (order.map Prod.snd)
        let n := order.length
        let mm := if FVal.eqv p (ofI 1) then n
          else match firstIdx (fun (c : Int) => FVal.le p (FVal.ofInt false c (-127))) cum.1 with
            | some j => j + 1
            | none => n
        let top := cum.1.getD (mm - 1) 0
        let j := (firstIdx (fun (c : Int) => decide (c * 2 ^ 24 > (r : Int) * top)) cum.1).getD 0
        let pick := order.getD j (0, .zero)
        { index := pick.1, kept := mm, prob := (fp32.encode .rne false pick.2).1, nanSeen
          fl := fz.or (keepFl ((AFlags.all (es.map (fun e => e.2.2))).or
            ((AFlags.all (qs.map Prod.snd)).or { windowLoss := acc.wl || cum.2 }))) }

/-- R207: a sample record. -/
def sampleRecord (o : SampleOut) (pos : BitVec 64) : List Byte :=
  leBytes 4 o.index ++ leBytes 4 o.kept ++ leBytes 8 pos.toNat ++ leBytes 4 o.prob ++
  leBytes 2 (8 * bit01 o.greedy + 4 * bit01 o.infTie + 2 * bit01 o.nanSeen + bit01 o.empty) ++ leBytes 10 0

/-- R204: the sample of slot `k`. -/
def State.sampleSlot (i : Nat) (d : ShfDesc) (k : Nat) (s : State) : State :=
  let e := s.engine .shf i
  let m := e.head.snap
  let flush := e.headFlush
  let sl := s.shfSlot i k
  let size := d.fmt.bits / 8
  let xs := (upTo d.len).map (fun j =>
    let a := d.score + k * d.rowStride + j * size
    ((s.elemAt m d.fmt false a).1, s.elemAt m d.fmt flush a))
  let mask := if d.mask = noAddr then List.replicate d.len false
    else (s.readIn m (d.mask + k * d.rowStride) d.len).map (fun b => b != 0)
  let o := sampleRow flush xs mask (fp32.decode d.paramA) d.topK (fp32.decode d.paramB)
    (draw24 s.eng.key sl.stream.toNat sl.pos.toNat 0)
  let s := s.writeMem (d.out + 32 * k) (sampleRecord o sl.pos)
  s.onHead .shf i (fun h => { h with empty := h.empty || o.empty, flags := h.flags.or o.fl })

/-- Change a unit's Shuffle state. -/
def State.onShf (i : Nat) (f : ShfState → ShfState) (s : State) : State :=
  s.onEng (fun x => { x with shfState := vmod x.shfState i f })

/-! ### Start and commit -/

/-- Memory of the head's descriptor is held (R247, R384). -/
def State.shfWaits (s : State) (i : Nat) : Bool :=
  let d := shfDesc (s.engine .shf i).headDesc
  s.engWaits .shf i (d.ins ++ d.outs)

/-- What a Shuffle unit does when arithmetic begins: a NOP commits at once; poison among the rows ends it (R111). -/
def State.shfStart (i : Nat) (s : State) : State :=
  let e := s.engine .shf i
  if descOp e.headDesc = 0 then s.finish .shf i stOk
  else if s.shfWaits i then s
  else
    let xs := (shfDesc e.headDesc).ins
    let s := s.settleAll xs
    if s.readsPoison xs then s.finishPoison .shf i else s.beginRun .shf i

/-- SHF_COMMIT (R199, R200, R204, R208): the outputs are written and the completion record follows; slot positions and lanes
advance. A full ring holds the commit. -/
def execShfCommit (i : Fin 16) (s : State) : Host.Outcome State Fault Refusal :=
  inService s (fun s =>
    let e := s.engine .shf i
    let d := shfDesc e.headDesc
    if e.head.phase ≠ .running ∨ !s.pwr.slotOn ∨ s.shfWaits i then s
    else if e.cq.full then s.onHead .shf i (fun h => { h with held := true })
    else if d.op = 1 then
      let lanes := (vget s.eng.shfState i ShfState.reset).lanes.toList
      let r := fillAll s.eng.key d d.count 0 lanes []
      let els := r.1.reverse
      let s := s.pulseRate (.shf i) 0x0401 (els.foldl (fun n x => n + x.used) 0) 64
      let s := s.writeMem d.out ((els.map (fun x => x.bytes)).flatten)
      let s := s.onHead .shf i (fun h => { h with
        flags := AFlags.all (els.map (fun x => x.fl)), truncCap := els.any (fun x => x.trunc) })
      let s := if d.jump then
          (s.onShf i (fun u => { u with lanes := Vector.ofFn (fun k => r.2.getD k.val 0) })).onJob (fun j => { j with outside := true })
        else s
      s.finish .shf i stOk
    else
      let s := s.pulseRate (.shf i) 0x0401 d.slots.length 64
      let s := d.slots.foldl (fun s k => s.sampleSlot i d k) s
      let s := d.slots.foldl (fun s k => s.onShf i (fun u => { u with slots := vmod u.slots k (fun x => { x with pos := x.pos + 1 }) })) s
      s.finish .shf i stOk)

/-! ### The state registers (R196, R208, R211) -/

/-- Write a register of the Shuffle state, unless the FIFO holds a descriptor. -/
def State.writeShfState (i : Nat) (off v : Nat) (s : State) : State :=
  let known := off = 0x0D0 ∨ off = 0x0D8 ∨ off = 0x0E0 ∨ off = 0x0E8 ∨ off = 0x0F0 ∨ (0x100 ≤ off ∧ off < 0x500 ∧ off % 8 = 0)
  if ¬known then s
  else if !(s.engine .shf i).fifo.isEmpty then s.engErr .shf i 16
  else if off = 0x0F0 then
    s.onShf i (fun u => { u with lanes := Vector.ofFn (fun k => BitVec.ofNat 96 ((64 * (v % 2 ^ 24) + k.val) * 2 ^ 64)) })
  else if off < 0x100 then
    let k := (off - 0x0D0) / 16
    s.onShf i (fun u => { u with slots := vmod u.slots k (fun x =>
      if off % 16 = 0 then { x with active := v.testBit 32, stream := BitVec.ofNat 32 v } else { x with pos := BitVec.ofNat 64 v }) })
  else
    let k := (off - 0x100) / 16
    s.onShf i (fun u => { u with lanes := vmod u.lanes k (fun p =>
      if off % 16 = 0 then BitVec.ofNat 96 (p.toNat / 2 ^ 64 * 2 ^ 64 + v % 2 ^ 64)
      else BitVec.ofNat 96 (v % 2 ^ 32 * 2 ^ 64 + p.toNat % 2 ^ 64)) })

/-- SHF_STATE_WRITE (R208). -/
def execShfStateWrite (i : Fin 16) (off : BitVec 12) (v : W64) (s : State) : Host.Outcome State Fault Refusal :=
  inService s (fun s => if off = 0x0F0 then s else (s.writeShfState i off.toNat v.toNat).noted (.eng .shf) i off.toNat 0 v.toNat)

/-- SHF_JA_BASE_WRITE (R196, R208). -/
def execShfJaBaseWrite (i : Fin 16) (v : W64) (s : State) : Host.Outcome State Fault Refusal :=
  inService s (fun s => (s.writeShfState i 0x0F0 v.toNat).noted (.eng .shf) i 0x0F0 0 v.toNat)

/-! ### PIP_WAIT_SATISFIED -/

/-- PIP_WAIT_SATISFIED (R90, R101): every pip of the wait set is up and the first effect is reached: arithmetic begins. -/
def execPipWaitSatisfied (k : EngKind) (i : Fin 64) (s : State) : Host.Outcome State Fault Refusal :=
  inService s (fun s =>
    if !(s.mayStart k i) then s
    else match k with
      | .tbl => s.tblStart i
      | .atm => s.atmStart i
      | .sol => s.solStart i
      | .shf => s.shfStart i)

end Sys2Proof.Machine
end

