-- ==== Sys2Proof/Machine/MemSide.lean ====
section
/-!
DEFINITION. MemSide.lean: memory-side operations at the controller that holds their target (R249-R257, R269): element checks, element
effects, anchored cells (R61, R62, R254), recipes. What becomes of an operation's outcome is Outcome's (R270, R274).
-/
namespace Sys2Proof.Machine

open Sys2Proof

/-! ### Outcome codes (R271) -/

/-- OK. -/
def ocOk : Nat := 0x00
/-- PENDING. -/
def ocPending : Nat := 0x01
/-- ATOMIC_UNKNOWN. -/
def ocAtomicUnknown : Nat := 0x02
/-- ATOM_BAD. -/
def ocAtomBad : Nat := 0x03
/-- ADDR. -/
def ocAddr : Nat := 0x04
/-- ALIGN. -/
def ocAlign : Nat := 0x05
/-- POISON. -/
def ocPoison : Nat := 0x06
/-- AREG_NONE. -/
def ocAregNone : Nat := 0x07
/-- RECIPE_FAULT. -/
def ocRecipeFault : Nat := 0x08
/-- STORE_UNKNOWN. -/
def ocStoreUnknown : Nat := 0x09
/-- INVAL_UNKNOWN. -/
def ocInvalUnknown : Nat := 0x0A
/-- HELD. -/
def ocHeld : Nat := 0x0D

/-! ### Codes and formats (R250, R254, R269) -/

/-- Does an operation code take an element format? RECIPE takes any. -/
def msTakes (code : Nat) (fmt : Nat) : Bool :=
  match fmtOfCode fmt with
  | none => false
  | some f =>
    match code with
    | 0x01 | 0x02 | 0x03 | 0x04 | 0x05 => f == .int32 || f == .int64
    | 0x06 | 0x07 => f == .b64 || f == .b32
    | 0x08 => f == .b64 || f == .b32 || f == .bf16
    | 0x09 => f == .b64 || f == .b32 || f == .bf16
    | 0x0A | 0x0B => f == .b64 || f == .b32
    | 0x0C => true
    | 0x10 | 0x11 => f == .int64
    | _ => false

/-- R250, R269: does an operation fetch? AREAD, SWAP and CAS always do, AADD, ACLEAR and RECIPE never, the others with FETCH. -/
def msFetches (code : Nat) (fetch : Bool) : Bool := code == 0x0B || code == 0x10 || code == 0x11 || (fetch && decide (code ≤ 0x08))

/-- Does the operation act on a cell of an anchored region? -/
def msAnchored (code : Nat) : Bool := code == 0x09 || code == 0x0A || code == 0x0B

/-- Bytes of one element in a format. -/
def fmtBytes (fmt : Nat) : Nat := ((fmtOfCode fmt).getD .b64).bits / 8

/-- s of R249: bytes of source that an element takes from the payload. -/
def msSource_ (code fmt : Nat) : Nat :=
  match code with
  | 0x0A | 0x0B => 0
  | 0x11 => 16
  | _ => fmtBytes fmt

/-- The valid anchored region that contains an address (R252). -/
def State.aregOf (s : State) (a : Nat) : Option (Nat × Areg) :=
  (List.zip (upTo 64) s.hbm.areg.toList).find? (fun xr =>
    xr.2.valid && decide (xr.2.base.toNat ≤ a) && decide (a < xr.2.base.toNat + xr.2.size.toNat))

/-- Bytes of a cell of a class. -/
def cellBytes (fp64 : Bool) : Nat := if fp64 then 32 else 16

/-- The window of a class (R46). -/
def cellWin (fp64 : Bool) : Window := if fp64 then winCell64 else winCell32

/-- R254: does a class accept a format for a code? -/
def classTakes (code fmt : Nat) (fp64 : Bool) : Bool :=
  match code, fmtOfCode fmt with
  | 0x09, some f => if fp64 then f == .b64 || f == .b32 else f == .b32 || f == .bf16
  | 0x0A, some f => if fp64 then f == .b64 else f == .b32
  | _, _ => true

/-! ### Cells (R62) -/

/-- A cell's bytes as a sum in progress. -/
def cellOf (fp64 : Bool) (bs : List Byte) : ASum :=
  let n := 8 * cellBytes fp64
  let v := toSigned n (leNat bs)
  let lo : Int := -(2 ^ (n - 1) : Int)
  let sp : Special := if v = lo then .nan else if v = lo + 1 then .pinf else if v = lo + 2 then .ninf else .finite
  { s := if sp = .finite then v else 0, sp, n := 1, negOnly := false }

/-- A sum's cell. -/
def cellBits (fp64 : Bool) (x : ASum) : List Byte :=
  let n := 8 * cellBytes fp64
  let lo : Int := -(2 ^ (n - 1) : Int)
  leBytes (cellBytes fp64) (ofSigned n (match x.sp with
    | .finite => x.s
    | .nan => lo
    | .pinf => lo + 1
    | .ninf => lo + 2))

/-! ### One element (R250, R252, R254, R269) -/

/-- An element operation: code, format, source bytes, target address, the issuer's FLUSH. -/
structure ElemOp where
  code : Nat
  fmt : Nat
  src : List Byte
  addr : Nat
  flush : Bool
  deriving DecidableEq, Repr

/-- Bytes of the target: the element, or the cell of the region that contains it. -/
def State.elemBytes (s : State) (e : ElemOp) : Nat :=
  if msAnchored e.code then (s.aregOf e.addr).elim 16 (fun xr => cellBytes xr.2.fp64Class) else fmtBytes e.fmt

/-- Is an extent wholly in the local HBM windows? -/
def State.inHbm (s : State) (a n : Nat) : Bool := decide (a < 2 ^ 40) && decide (a + n ≤ s.hbmEnd)

/-- R252: the checks of one element after those of the whole; OK where it passes. -/
def State.elemCheck (s : State) (region : Option (Nat × Areg)) (e : ElemOp) (z : Nat) : Nat :=
  if s.poisonedIn e.addr z then ocPoison
  else if msAnchored e.code then
    match region with
    | none => ocAregNone
    | some xr =>
      if e.addr + z ≤ xr.2.base.toNat + xr.2.size.toNat ∧ classTakes e.code e.fmt xr.2.fp64Class then ocOk else ocAregNone
  else ocOk

/-- The controller that holds an address. -/
def State.ctlOf (s : State) (a : Nat) : Nat := s.keyOf a / 2 ^ 36

/-- OR flags into MEM_AREG_STAT of region `x` at the controller of an address (R254). -/
def State.aregFlags (a x : Nat) (f : AFlags) (s : State) : State :=
  let b := bit01 f.windowLoss + 2 * bit01 f.flushed + 4 * bit01 f.inexact + 8 * bit01 f.resultOvf + 16 * bit01 f.anchorExceeded
  s.onCtl (s.ctlOf a) (fun c => { c with aregStat := vmod c.aregStat x (fun v => v ||| BitVec.ofNat 5 b) })

/-- R250: the new bits of a plain element from the old ones. -/
def msPlain (e : ElemOp) (old : Nat) : Nat :=
  let f := (fmtOfCode e.fmt).getD .b64
  let n := f.bits
  let src := leNat (e.src.take (n / 8))
  let sgn (x : Nat) : Int := toSigned n x
  let ff := (f.ff).getD fp64
  match e.code with
  | 0x01 => (old + src) % 2 ^ n
  | 0x02 => if sgn src < sgn old then src else old
  | 0x03 => if sgn old < sgn src then src else old
  | 0x04 => min old src
  | 0x05 => max old src
  | 0x06 => (ff.encode .rne e.flush (fMin (ff.decodeFlush e.flush old).1 (ff.decodeFlush e.flush src).1)).1
  | 0x07 => (ff.encode .rne e.flush (fMax (ff.decodeFlush e.flush old).1 (ff.decodeFlush e.flush src).1)).1
  | 0x08 => (ff.encodeX .rne e.flush (xAdd false (ff.decodeFlush e.flush old).1 (ff.decodeFlush e.flush src).1)).1
  | 0x10 => src
  | 0x11 => if old = src then leNat ((e.src.drop 8).take 8) else old
  | _ => old

/-- R251: a Plain FADD, whatever comes of it, puts the job outside the promise. -/
def State.notePlain (code : Nat) (s : State) : State :=
  if code = 0x08 ∧ s.job.attached then s.onJob (fun j => { j with outside := true }) else s

/-- An element is applied, once the P-die directory has given up its line (R250): the state, and the old value in the target's format. The
Scorecard counts it (R450). -/
def State.elemApply (region : Option (Nat × Areg)) (e : ElemOp) (z : Nat) (s : State) : State × List Byte :=
  let bs := s.readMem e.addr z
  let s := (s.pulse (.mem (Fin.ofNat 16 (s.ctlOf e.addr))) 0x0703 1).pdcDrop e.addr z
  if msAnchored e.code then
    match region with
    | none => (s, [])
    | some xr =>
      let r := xr.2
      let win := cellWin r.fp64Class
      let anchor := r.anchor.toInt
      let f := (fmtOfCode e.fmt).getD .b64
      match e.code with
      | 0x09 =>
        let t := f.decode r.flush (leNat (e.src.take (f.bits / 8)))
        let c := ASum.term win anchor (cellOf r.fp64Class bs) t.1
        ((s.writeMem e.addr (cellBits r.fp64Class c)).aregFlags e.addr xr.1 (c.flags.or { flushed := t.2 }), [])
      | 0x0A => (s.writeMem e.addr (List.replicate z 0), [])
      | _ =>
        let q := f.encode .rne r.flush ((cellOf r.fp64Class bs).value win anchor)
        (s.aregFlags e.addr xr.1 q.2, leBytes (f.bits / 8) q.1)
  else (s.writeMem e.addr (leBytes z (msPlain e (leNat bs))), bs)

/-! ### A whole operation (R249, R252) -/

/-- The outcome of an operation: its status and the old values of a fetching one. -/
structure MsOut where
  status : Nat
  fetched : List Byte
  deriving DecidableEq, Repr

/-- R252: the elements in turn, lowest first: each is read and decoded, checked and applied. -/
def State.msElems (region : Option (Nat × Areg)) (z fetchSize : Nat) : List ElemOp → State → State × MsOut
  | [], s => (s, ⟨ocOk, []⟩)
  | e :: r, s =>
    let s := s.settle e.addr z
    let st := s.elemCheck region e z
    let s := if st = ocPoison then s.memErr (s.ctlOf e.addr) 1 else s
    let p := if st = ocOk then s.elemApply region e z else (s, List.replicate fetchSize 0)
    let q := msElems region z fetchSize r p.1
    (q.1, ⟨if st = ocOk then q.2.status else st, p.2 ++ q.2.fetched⟩)

/-- R252: the checks of an operation as a whole. -/
def State.msWhole (s : State) (code target count z : Nat) (region : Option (Nat × Areg)) : Nat :=
  if !(s.inHbm target 1) then ocAddr
  else if msAnchored code && region.isNone then ocAregNone
  else if !(s.inHbm target (count * z)) then ocAddr
  else if target % z ≠ 0 then ocAlign
  else ocOk

/-! ### Recipes (R255-R257) -/

/-- A payload byte; the spec does not say what stands past the payload's end (log entry 6). -/
def payloadByte (p : List Byte) (k : Nat) : Byte := p.getD k (Config.unspecByte 0 k)

/-- Payload bytes. -/
def payloadAt (p : List Byte) (off n : Nat) : List Byte := (upTo n).map (fun k => payloadByte p (off + k))

/-- R256: run the operation words: the registers Q0-Q7, and the element operations gathered, in order. -/
def recipeRun (img payload : List Byte) (flush : Bool) : Nat → Nat → List Nat → List ElemOp → List ElemOp
  | 0, _, _, acc => acc
  | n + 1, k, q, acc =>
    let w := leAt img (64 + 8 * k) 8
    let opc := field w 63 56
    let d := field w 55 53
    let a := q.getD (field w 52 50) 0
    let b := q.getD (field w 49 47) 0
    let imm := w % 2 ^ 32
    let put (v : Nat) : List ElemOp := recipeRun img payload flush n (k + 1) (q.set d (v % 2 ^ 64)) acc
    match opc with
    | 0x00 => acc
    | 0x01 => put (leNat (payloadAt payload (imm % 512) (2 ^ (field imm 10 9))))
    | 0x02 => put (leAt img (8 + 8 * (imm % 4)) 8)
    | 0x03 => put (a + b)
    | 0x04 => put (a * b)
    | 0x05 => put (a * 2 ^ (imm % 64))
    | 0x06 => put (ofSigned 64 ((a : Int) + toSigned 32 imm))
    | 0x07 =>
      let code := field w 46 43
      let fmt := field w 42 38
      let sz := msSource_ code fmt
      let els := (upTo (field w 37 29)).map (fun e =>
        { code, fmt, src := payloadAt payload (imm % 512 + e * sz) sz, addr := (a + e * field w 28 20) % 2 ^ 64, flush : ElemOp })
      recipeRun img payload flush n (k + 1) q (acc ++ els)
    | _ => recipeRun img payload flush n (k + 1) q acc

/-- R252, R257: the checks of one element of a recipe. -/
def State.recipeElem (s : State) (e : ElemOp) : Nat :=
  let region := s.aregOf e.addr
  let z := s.elemBytes e
  let w := s.msWhole e.code e.addr 1 z region
  if w ≠ ocOk then w else s.elemCheck region e z

/-- R257: the element operations of a RECIPE. -/
def State.recipeElems (s : State) (r : MsReq) : List ElemOp :=
  let img := vget s.hbm.recipes r.recipe.toNat []
  if img.isEmpty then [] else recipeRun img r.payload r.flush 32 0 (List.replicate 8 0) []

/-- R257: a RECIPE operation. -/
def State.msRecipe (r : MsReq) (s : State) : State × MsOut :=
  let target := r.target.toNat
  if !(s.inHbm target 1) then (s, ⟨ocAddr, []⟩)
  else
    let fault (s : State) : State × MsOut := (s.memErr (s.ctlOf target) 16, ⟨ocRecipeFault, []⟩)
    if (vget s.hbm.recipes r.recipe.toNat []).isEmpty then fault s
    else
      let els := s.recipeElems r
      let s := els.foldl (fun s e => s.notePlain e.code) s
      let s := els.foldl (fun s e => if s.inHbm e.addr (s.elemBytes e) then s.settle e.addr (s.elemBytes e) else s) s
      let bad := els.filter (fun e => s.recipeElem e != ocOk)
      if bad.isEmpty then (els.foldl (fun s e => (s.elemApply (s.aregOf e.addr) e (s.elemBytes e)).1) s, ⟨ocOk, []⟩)
      else
        let s := bad.foldl (fun s e => if s.recipeElem e = ocPoison then s.memErr (s.ctlOf e.addr) 1 else s) s
        fault s

/-- R249-R252, R257, R269: a memory-side operation is applied. -/
def State.applyMs (r : MsReq) (s : State) : State × MsOut :=
  let code := r.code.toNat
  if code = 0x0C then s.msRecipe r
  else
    let s := s.notePlain code
    let fmt := r.fmt.toNat
    let target := r.target.toNat
    let region := s.aregOf target
    let z := if msAnchored code then region.elim 16 (fun xr => cellBytes xr.2.fp64Class) else fmtBytes fmt
    let w := s.msWhole code target r.count z region
    let fetches := msFetches code r.fetch
    if w ≠ ocOk then
      (s, ⟨w, List.replicate (if !fetches || (code == 0x0B && w == ocAregNone) then 0 else r.count * fmtBytes fmt) 0⟩)
    else
      let sz := msSource_ code fmt
      let els := (upTo r.count).map (fun e =>
        { code, fmt, src := payloadAt r.payload (e * sz) sz, addr := target + e * z, flush := r.flush : ElemOp })
      let p := s.msElems region z (fmtBytes fmt) els
      (p.1, { p.2 with fetched := if fetches then p.2.fetched else [] })

end Sys2Proof.Machine
end

