-- ==== Sys2Proof/Machine/MemCtl.lean ====
section
/-!
DEFINITION. MemCtl.lean: the HBM4 controllers' registers (R235, R238, R253, R258), the start of a retrain (R247), patrol scrubbing (R245),
retirement's geometry (R237, R246), and the pip boards' words (R333, R334).
-/
namespace Sys2Proof.Machine

open Sys2Proof

/-- The controllers. -/
def allCtls : List Nat := upTo 16

/-- Set MEM_ERR bits in every controller: all hold the same entries (R253). -/
def State.memErrAll (bits : Nat) (s : State) : State := allCtls.foldl (fun s k => s.memErr k bits) s

/-! ### Geometry (R237, R238) -/

/-- R238: the geometry changes: what every window holds is unspecified from now on. The Sachet keeps what it holds, and poison and symbol
errors stay where they stand (DEDUCED from R374, log entry 6). -/
def State.newGeometry (s : State) : State := { s.onMem (Memory.unspecify 0 (2 ^ 40) s.liveBytes) with pdc := [] }

/-- The HBM windows as (base, size): Decks 0 to 3, then the package-wide one. -/
def State.windows (s : State) : List (Nat × Nat) :=
  (upTo 4).map (fun d => (s.deckWinBase d, s.deckWinSize d)) ++ [(s.deckWinBase 4, s.pkgWinSize)]

/-! ### MEM_CTRL (R235, R258) -/

/-- A write of SACHET: before HBM training has completed, 0 to 4. It leaves WIN_SPLIT as it is, though P may then exceed L (R235; DESIGN
CHOICE, log entry 24). -/
def State.writeSachet (m : Nat) (s : State) : State :=
  if s.hbm.trainedOnce ∨ m > 4 ∨ m = s.hbm.sachet.toNat then s
  else (s.onHbm (fun h => { h with sachet := BitVec.ofNat 3 m, sachetNow := BitVec.ofNat 3 m })).newGeometry

/-- A write of WIN_SPLIT through controller `k`. -/
def State.writeWinSplit (k w : Nat) (s : State) : State :=
  if w = s.hbm.winSplit.toNat then s
  else if s.job.attached ∨ w * 2 ^ 20 > s.liveBytes then s.memErr k 64
  else (s.onHbm (fun h => { h with winSplit := BitVec.ofNat 11 w })).newGeometry

/-- A write of MEM_CTRL of controller `k`: SACHET first, since it bounds WIN_SPLIT. -/
def State.writeMemCtrl (k v : Nat) (s : State) : State :=
  let hours := v % 64
  let s := if 1 ≤ hours ∧ hours ≤ 48 then s.onCtl k (fun c => { c with scrubHours := BitVec.ofNat 6 hours }) else s
  (s.writeSachet (field v 10 8)).writeWinSplit k (field v 26 16)

/-- MEM_CTRL_WRITE (R258). -/
def execMemCtrlWrite (ctl : Fin 16) (v : W64) (s : State) : Host.Outcome State Fault Refusal :=
  inService s (fun s => (s.writeMemCtrl ctl v.toNat).noted .mem ctl 0x000 0 v.toNat)

/-! ### Anchored regions (R253) -/

/-- Does a region lie wholly in one window? -/
def State.inOneWindow (s : State) (base size : Nat) : Bool := s.windows.any (fun w => inside base size w.1 w.2)

/-- A write of MEM_AREG_CFG of region `x`: it is refused VALID where the range or another valid region forbids it. -/
def State.writeAregCfg (x v : Nat) (s : State) : State :=
  let r := vget s.hbm.areg x ⟨0, 0, 0, false, false, false⟩
  let base := r.base.toNat
  let size := r.size.toNat
  let ask := v.testBit 0
  let badRange := ask && (size == 0 || !(s.inOneWindow base size))
  let overlap := ask && (List.zip (upTo 64) s.hbm.areg.toList).any (fun yr =>
    yr.1 != x && yr.2.valid && overlaps (base, size) (yr.2.base.toNat, yr.2.size.toNat))
  let s := s.onHbm (fun h => { h with areg := vmod h.areg x (fun r =>
    { r with anchor := BitVec.ofNat 16 (field v 31 16), flush := v.testBit 2, fp64Class := v.testBit 1
             valid := ask && !badRange && !overlap }) })
  let bits := 32 * bit01 overlap + 128 * bit01 badRange
  if bits = 0 then s else s.memErrAll bits

/-- AREG_DECLARE (R253): a write of MEM_AREG_CFG through the MEM_ all window. -/
def execAregDeclare (x : Fin 64) (v : W64) (s : State) : Host.Outcome State Fault Refusal := inService s (State.writeAregCfg x v.toNat)

/-! ### Retraining (R246-R248) -/

/-- A write of MEM_RETRAIN: GO requests a retrain, unless the channel retrains. -/
def State.writeRetrain (k v : Nat) (s : State) : State :=
  let ch := v % 32
  if v.testBit 8 ∧ !((s.ctl k).retraining.getLsbD ch) then
    s.onCtl k (fun c => { c with retrainReq := c.retrainReq ||| BitVec.ofNat 32 (2 ^ ch) })
  else s

/-- MEM_RETRAIN (R247). -/
def execMemRetrain (ctl : Fin 16) (v : W64) (s : State) : Host.Outcome State Fault Refusal := 
  inService s (fun s => (s.writeRetrain ctl v.toNat).noted .mem ctl 0x048 0 v.toNat)

/-- R247: the reasons for a retrain: a temperature change; a request, or corrections within one cd. -/
def HbmCtl.wantsRetrain (c : HbmCtl) (ch : Nat) (temp : Int) : Bool :=
  c.retrainReq.getLsbD ch || decide ((temp - vget c.trainTemp ch 0).natAbs > 15)

/-- CHANNEL_RETRAIN (R247): a channel of a trained stack starts retraining, one channel of a stack at a time; not while
its Deck is in reset (R412). -/
def execChannelRetrain (ctl : Fin 16) (ch : Fin 32) (temp : BitVec 8) (s : State) : Host.Outcome State Fault Refusal :=
  inService s (fun s =>
    let c := s.ctl ctl
    if c.trained ∧ c.retraining = 0 ∧ !(s.deckResetting (ctl.val / 4)) ∧ !(c.fencedCh.getLsbD ch) ∧ !(s.pchOut (64 * ctl.val + 2 * ch.val)) ∧
        c.wantsRetrain ch temp.toInt then
      s.onCtl ctl (fun c => { c with
        retraining := BitVec.ofNat 32 (2 ^ ch.val), retrainReq := c.retrainReq &&& ~~~(BitVec.ofNat 32 (2 ^ ch.val)) })
    else s)

/-- R248: a second failed check fences a channel: its data are lost. -/
def State.fenceChannel (k ch : Nat) (s : State) : State :=
  let s := s.onCtl k (fun c => { c with fencedCh := c.fencedCh ||| BitVec.ofNat 32 (2 ^ ch), err := c.err ||| 8 })
  let s := (s.markFailing k (2 * ch)).markFailing k (2 * ch + 1)
  s.record { cls := .contained, block := .mem, unit := k, code := 3 }

/-! ### Patrol scrubbing (R245) -/

/-- Errors that have come to stand in a transfer. -/
def Memory.addNoise (m : Memory) (line : Nat) (p : Pattern) : Memory :=
  if p.isEmpty then m
  else match m.upset.find? (fun x => x.1 = line) with
    | some (_, q) => { m with upset := (line, q ++ p) :: m.upset.filter (fun x => x.1 ≠ line) }
    | none => { m with upset := (line, p) :: m.upset }

/-- R232: a report of the stack's own ECC or of its error check-and-scrub is logged and not acted on (its class and code: log entry 30). -/
def State.stackReport (k pch : Nat) (s : State) : State :=
  s.record { cls := .corrected, block := .mem, unit := k, code := 0x010C, detail := transferDetail (pch * 2 ^ 30) }

/-- PATROL_SCRUB (R242, R245): the scrubber of a pseudo-channel in service reads its next transfer, with the errors that stand in it, until
the pass of the period is complete; `report` where the stack reports an error of its own meanwhile. -/
def execPatrolScrub (ctl : Fin 16) (pch : Fin 64) (r : ScrubRead) (s : State) : Host.Outcome State Fault Refusal :=
  inService s (fun s =>
    let s := if r.report && (s.ctl ctl).trained then s.stackReport ctl pch else s
    let s := s.onCtl ctl (fun c => c.inPeriod s.cad.count)
    let c := s.ctl ctl
    let p := 64 * ctl.val + pch.val
    let ch := pch.val / 2
    if !c.trained ∨ s.pchOut p ∨ c.fencedCh.getLsbD ch ∨ c.retraining.getLsbD ch ∨ c.scrubbed.getLsbD pch ∨
        s.deckResetting (ctl.val / 4) then s
    else
      let off := vget c.scrubAt pch 0
      let line := pchKey p off / 64
      let s := s.onMem (fun m => m.addNoise line (r.noise.map (fun e => (e.1.val, e.2.toNat))))
      let s := s.decodeLine line
      let last := off + 64 ≥ 2 ^ 30
      s.onCtl ctl (fun c => { c with
        scrubAt := vput c.scrubAt pch (if last then 0 else off + 64)
        scrubbed := if last then c.scrubbed ||| BitVec.ofNat 64 (2 ^ pch.val) else c.scrubbed }))

/-- R246: the channels that hold a failing pseudo-channel retire, and the geometry follows; the inventory records them. -/
def State.retireFailing (s : State) : State :=
  let newCh (c : HbmCtl) : List Nat :=
    (upTo 32).filter (fun ch => (c.failing.getLsbD (2 * ch) || c.failing.getLsbD (2 * ch + 1)) && !(c.retired.getLsbD (2 * ch)))
  let all := (List.zip (List.finRange 16) s.hbm.ctl.toList).map (fun kc => (kc.1, newCh kc.2))
  if all.all (fun kc => kc.2.isEmpty) then s
  else
    let s := all.foldl (fun s kc => s.onCtl kc.1 (fun c => kc.2.foldl (fun c ch =>
      { c with retired := c.retired ||| BitVec.ofNat 64 (3 * 4 ^ ch), fencedCh := c.fencedCh &&& ~~~(BitVec.ofNat 32 (2 ^ ch)) }) c)) s
    let s := s.onFlash (fun f => f.putRecords (f.records ++ (all.map (fun kc => kc.2.map (fun ch => InvRecord.channel kc.1 (Fin.ofNat 32 ch)))).flatten))
    s.newGeometry

/-! ### Pip words (R333) -/

/-- PIP_RAISE: a store of `v` to the RAISE word of a Suit's board; of a Deck in reset the pip rises at re-entry (R375). -/
def execPipRaise (suit : Fin 16) (v : W64) (s : State) : Host.Outcome State Fault Refusal :=
  inService s (fun s => s.raiseHeld suit (v.toNat % 4096))

/-- PIP_LOWER: a store of `v` to the LOWER word. -/
def execPipLower (suit : Fin 16) (v : W64) (s : State) : Host.Outcome State Fault Refusal :=
  inService s (fun s => s.lowerPip suit (v.toNat % 4096))

end Sys2Proof.Machine
end

