-- ==== Sys2Proof/Machine/DealerOps.lean ====
section
/-!
DEFINITION. DealerOps.lean: the registers of a Dealer core (R214, R215), when it issues an instruction, traps (R218), and the checks of
an access to local memory (R218, R374, R432, R475).
-/
namespace Sys2Proof.Machine

open Sys2Proof

/-! ### Registers (R214, R215) -/

/-- Gn: G0 reads 0. -/
def Core.gr (x : Core) (n : Fin 32) : BitVec 64 := if n = 0 then 0 else x.g[n]

/-- Write Gn: G0 ignores writes. -/
def Core.setG (n : Fin 32) (v : BitVec 64) (x : Core) : Core := if n = 0 then x else { x with g := vput x.g n v }

/-- Fn is Vn[63:0]. -/
def Core.fr (x : Core) (n : Fin 32) : BitVec 64 := x.v[n].setWidth 64

/-- A scalar write of Fn clears Vn[127:64]. -/
def Core.setF (n : Fin 32) (v : BitVec 64) (x : Core) : Core := { x with v := vput x.v n (v.setWidth 128) }

/-- Km: K0 reads all ones. -/
def Core.kr (x : Core) (m : Fin 8) : BitVec 16 := if m = 0 then 0xFFFF else x.k[m]

/-- Write Km: K0 ignores writes. -/
def Core.setK (m : Fin 8) (v : BitVec 16) (x : Core) : Core := if m = 0 then x else { x with k := vput x.k m v }

/-! ### Issue -/

/-- A core issues an instruction: it is present, not halted and waits for nothing. A core that runs on to a safepoint does so for at most
65,536 dc (R231). -/
def State.coreIssues (s : State) (c : Fin 192) : Bool :=
  let x := s.core c
  vget s.inv.dlr c .own != .absent && !x.halted && x.stall.isNone && !(s.coreInReset c) &&
    (match x.haltingSince with
      | none => true
      | some t => decide ((x.cycle - t).toNat < 65536))

/-- An instruction of a core has its effect where the core issues. -/
def onIssue (c : Fin 192) (s : State) (f : State → State) : Host.Outcome State Fault Refusal :=
  inService s (onlyIf (s.coreIssues c) f)

/-! ### Traps (R218) -/

/-- ILLEGAL. -/
def causeIllegal : Nat := 1
/-- ALIGN. -/
def causeAlign : Nat := 2
/-- ADDR. -/
def causeAddr : Nat := 3
/-- PERM. -/
def causePerm : Nat := 4
/-- POISON. -/
def causePoison : Nat := 5
/-- SUBMIT_PORT. -/
def causeSubmitPort : Nat := 6
/-- BREAK. -/
def causeBreak : Nat := 7
/-- LOAD_LOST (R272). -/
def causeLoadLost : Nat := 0x10
/-- NOT_RACK (R272). -/
def causeNotRack : Nat := 0x11

/-- R117, R231: set bits of DLR_ERR, with their records. -/
def State.dlrErr (c : Fin 192) (bits : Nat) (s : State) : State :=
  let old := (s.core c).err.toNat
  (s.onCore c (fun x => { x with err := x.err ||| BitVec.ofNat 3 bits })).errRecords .dlr c old bits

/-- R218: EPC, CAUSE and PC of a trap; with TVEC 0 the core halts, and PC stays. -/
def Core.trapped_ (cause : Nat) (x : Core) : Core :=
  let y := { x with epc := x.pc, cause := BitVec.ofNat 16 cause, stall := none, faulted := false }
  if x.tvec = 0 then { y with halted := true, trapped := true } else ({ y with pc := x.tvec }).boundary

/-- R218: a core traps. -/
def State.trap (c : Fin 192) (cause : Nat) (s : State) : State :=
  let vec := (s.core c).tvec
  let s := if cause = causePoison then s.dlrErr c 2 else s
  let s := s.onCore c (Core.trapped_ cause)
  if vec = 0 then s.dlrErr c 1 else s

/-- R218, R227: an element fault also writes VFAULT and VFADDR. -/
def State.trapElem (c : Fin 192) (cause elem addr : Nat) (s : State) : State :=
  (s.onCore c (fun x => { x with vfault := BitVec.ofNat 16 elem, vfaddr := BitVec.ofNat 64 addr })).trap c cause

/-! ### Local memory (R374, R432, R474, R475) -/

/-- R474: an address with 0b10 in bits [63:62]. -/
def isRemote (a : Nat) : Bool := field a 63 62 == 2

/-- R475: an address of register space. -/
def isRegister (a : Nat) : Bool := decide (0x0F00_0000_0000 ≤ a) && decide (a < 0x1000_0000_0000)

/-- The cause, if any, for which an access of `n` bytes to local memory traps before it reads or writes, in the order of R218; register space
takes no access of such a width (R478). -/
def State.accessFault (s : State) (align a n : Nat) : Option Nat :=
  if a % align ≠ 0 ∨ isRegister a then some causeAlign
  else if (s.storeOfExtent a n).isNone then some causeAddr
  else if !(s.attachedExtent a n) then some causePerm
  else none

/-- The cause for which a read traps. -/
def State.readFault (s : State) (align a n : Nat) : Option Nat :=
  match s.accessFault align a n with
  | some x => some x
  | none => if s.poisonedIn a n then some causePoison else none

/-- R333: do the pip board's words hold the offset? -/
def pipWord (off : Nat) : Bool := decide (off < 0x10) || (decide (0x200 ≤ off) && decide (off < 0x400))

/-! ### Local bytes (R98, R160, R333) -/

/-- A store of a core to a local store (R98, R160, R333). A store to an accumulator store or a tile register is dropped, with the engine's
error bit; of a pip board, 64-bit stores to RAISE and LOWER act. -/
def State.storeTo (k : Store) (a : Nat) (bs : List Byte) (s : State) : State :=
  match k with
  | .acc i => s.engErr .tbl i 16
  | .tile i => s.engErr .atm i 16
  | .pip i =>
    if bs.length ≠ 8 then s
    else if a % 0x1000 = 0 then s.raisePip i (leNat bs)
    else if a % 0x1000 = 8 then s.lowerPip i (leNat bs)
    else s
  | .sbuf _ => s
  | _ => s.writeMem a bs

/-- Bytes that an operation of a core leaves in local memory, stored as its own store would be. -/
def State.putLocal (a : Nat) (bs : List Byte) (s : State) : State :=
  match s.storeOfExtent a bs.length with
  | some k => s.storeTo k a bs
  | none => s

end Sys2Proof.Machine
end

