-- ==== Sys2Proof/Machine/FabOps.lean ====
section
/-!
DEFINITION. FabOps.lean: what every remote operation shares (R264-R285, R299): translation, tags, sending, outcomes, unknown
operations, reports of suspects (R387-R389), the remote-read cache (R282-R284), and fencing (R379, R385).
-/
namespace Sys2Proof.Machine

open Sys2Proof

/-! ### Remote addresses and ranks (R264, R266, R299) -/

/-- SLOT. -/
def raSlot (a : Nat) : Nat := field a 61 56
/-- NC. -/
def raNc (a : Nat) : Bool := a.testBit 55
/-- LADDR. -/
def raLaddr (a : Nat) : Nat := a % 2 ^ 44

/-- R264: is a remote address well formed? -/
def raOk (a : Nat) : Bool := isRemote a && field a 54 44 == 0

/-- The logical rank mapped to a node. -/
def State.rankOfNode (s : State) (n : Node) : Option Nat := (s.fab.ranks.find? (fun e => e.node = n)).map (·.rank)

/-- The logical rank of a rack slot (R266). -/
def State.slotRank (s : State) (slot : Nat) : Nat := s.fab.rackBase.toNat + slot

/-- R266: the node of a slot; none where the slot is not in use or its node is not in this rack. -/
def State.translate (s : State) (slot : Nat) : Option Node :=
  match s.nodeOfRank (s.slotRank slot), s.myNode with
  | some n, some m => if n.rack = m.rack then some n else none
  | _, _ => none

/-- R303, R304: a rank whose partner is declared departed, whether or not it had been heard. -/
def State.departedRank (s : State) (r : Nat) : Bool :=
  s.fab.partners.any (fun p => p.departed && p.rank.toNat == r) || s.fab.gone.contains (r, none)

/-- R304: are frames of a rank under an epoch dropped: a departed partner's, also where its rank has since moved? -/
def State.goneRank (s : State) (r : Nat) (epoch : BitVec 32) : Bool :=
  s.departedRank r || s.fab.gone.any (fun x => x.1 == r && x.2.any (fun e => decide (epoch.toNat < e.toNat)))

/-- R277: the incarnation of a rank as known here: this node's own, or that of its partner's last heartbeat. -/
def State.incarnationOf (s : State) (r : Nat) : BitVec 16 :=
  if r = s.job.rank.toNat then s.fab.incarnation
  else (s.fab.partners.find? (fun p => p.rank.toNat = r)).elim 0 (·.incarnation)

/-! ### Keys and tags (R275, R298, R311) -/

/-- The key of a target node's tags. -/
def keyNode (n : Node) : Nat := n.num
/-- The key of a rank's tags and replay entries. -/
def keyRank (r : Nat) : Nat := 2 ^ 32 + r
/-- The key of an identity's tags and replay entries, for frames with job tag 0 (R311). -/
def keyId (id : BitVec 64) : Nat := 2 ^ 64 + id.toNat
/-- R275: the key of a source's replay entries: the node that stands at its slot, else the slot. -/
def State.srcKey (s : State) (p : Packet) : Nat := (s.nodeOfRank (s.slotRank p.hdr.srcSlot.toNat)).elim (2 ^ 31 + p.hdr.srcSlot.toNat) keyNode

/-- R311: the key of a ranked frame: by identity with job tag 0, by rank otherwise. -/
def rankedKey (p : Packet) (h : RankHdr) : Nat := if p.hdr.jobTag = 0 then keyId h.srcId else keyRank h.srcRank.toNat

/-- R275, R309: the key of a Trick frame's source: the node that its rank stands for, else the rank. -/
def State.trickKey (s : State) (h : TrkHdr) : Nat := (s.nodeOfRank h.srcRank.toNat).elim (keyRank h.srcRank.toNat) keyNode

/-- The key of a frame's source (R275, R298, R311). -/
def State.frameKey (s : State) (p : Packet) : Nat :=
  match p.kh with
  | .rank h => rankedKey p h
  | .trick h => s.trickKey h
  | _ => s.srcKey p

/-- The next tag toward a target. -/
def State.nextTagOf (s : State) (key : Nat) : BitVec 16 := (s.fab.nextTag.find? (fun x => x.1 = key)).elim 0 (·.2)

/-- Take the next tag toward a target. -/
def State.takeTag (key : Nat) (s : State) : BitVec 16 × State :=
  let t := s.nextTagOf key
  (t, s.onFab (fun f => { f with nextTag := (key, t + 1) :: f.nextTag.filter (fun x => x.1 ≠ key) }))

/-- The kinds whose tags run in sequence for each target node (R275, R309); those of the others run for each rank or identity. -/
def OpKind.nodeTagged : OpKind → Bool
  | .store | .rput | .atom | .hand | .trick => true
  | _ => false

/-- R275: 16 cd in ac. -/
def retention : Nat := 960000

/-- The kinds whose operations carry tags of a sequence. -/
def OpKind.sequenced (k : OpKind) : Bool := k.nodeTagged || k == .msg || k == .banker

/-- No write of a sequence is outstanding, and none has been sent again for 16 cd: every tag of it may be confirmed. -/
def State.quietTo (s : State) (key : Nat) : Bool :=
  s.fab.ops.all (fun o => !(o.key = key && o.kind.sequenced && o.st == .outstanding)) &&
    (s.fab.lastRetry.find? (fun x => x.1 = key)).elim true (fun x => decide (x.2 + retention ≤ s.now))

/-- The lowest tag of a sequence that is not confirmed. -/
def State.confirmedTo (s : State) (key : Nat) : BitVec 16 := (s.fab.confirmed.find? (fun x => x.1 = key)).elim 0 (·.2)

/-- R275: the unconfirmed tags of a sequence. -/
def State.unconfirmed (s : State) (key : Nat) : Nat := (s.nextTagOf key - s.confirmedTo key).toNat

/-- R275, R290: `k` more writes toward a node have free tags, beside the decisions of hands that wait for theirs. -/
def State.tagRoom (s : State) (n : Node) (k : Nat) : Bool :=
  decide (s.unconfirmed (keyNode n) + (s.hnd.out.filter (fun h => h.decided.isNone && h.nodes.contains n)).length + k ≤ 4096)

/-- An operation of a sequence has been sent again, or has become unknown. -/
def State.noteRetry (key : Nat) (s : State) : State :=
  s.onFab (fun f => { f with lastRetry := (key, s.now) :: f.lastRetry.filter (fun x => x.1 ≠ key) })

/-- R298: another message toward a rank may be sent: fewer than 64 are unconfirmed. -/
def State.msgRoom (s : State) (r : Nat) : Bool := decide ((s.fab.msgTags.filter (fun x => x.1 = keyRank r)).length < 64)

/-! ### Headers and frames (R285, R309) -/

/-- R285: the rack slot by which a frame names a rank's node: 0xFF beyond the rack. -/
def State.rackSlot (s : State) (node : Option Node) (rank : Nat) : Nat :=
  match node, s.myNode with
  | some n, some m => if n.rack = m.rack then (rank - s.fab.rackBase.toNat) % 64 else 0xFF
  | _, _ => 0xFF

/-- The header of a job frame from this node to a rack slot; 0xFF for both ends of a frame that leaves the rack (R285). -/
def State.hdrTo (s : State) (kind slot rank : Nat) (tag : BitVec 16) : Hdr where
  kind := BitVec.ofNat 8 kind
  jobTag := s.fab.jobTag
  incarnation := s.incarnationOf rank
  tag := tag
  srcSlot := if slot = 0xFF then 0xFF else s.fab.mySlot.setWidth 8
  dstSlot := BitVec.ofNat 8 slot
  epoch := s.fab.epoch

/-- First 8 bytes of this package's identity digest (R311). -/
def myId64 : BitVec 64 := BitVec.ofNat 64 (leNat ((digestBytes Config.identity).take 8))

/-- R311: a rank header from this node. -/
def State.rankHdr (s : State) (dst : BitVec 32) (node : Option Node) : RankHdr where
  srcRank := s.job.rank
  dstRank := dst
  dstRack := node.elim 0 (·.rack)
  dstPslot := node.elim 0 (fun n => n.pslot.setWidth 8)
  srcId := myId64

/-- The rank that a frame's kind header names as its sender (R309, R311, R312). -/
def Packet.srcRank (p : Packet) : Option Nat :=
  match p.kh with
  | .rank h => some h.srcRank.toNat
  | .trick h => some h.srcRank.toNat
  | _ => none

/-- Where the answer to a frame goes: the node of the rank that its kind header names, or of its source slot; else back on the port on
which it came. -/
def State.wayBack (s : State) (p : Packet) : Dest :=
  let node := match p.srcRank with
    | some r => s.nodeOfRank r
    | none => s.nodeOfRank (s.slotRank p.hdr.srcSlot.toNat)
  match node with
  | some n => .node n
  | none => p.dest

/-- A response to a packet (R274, R285): its header with the ends exchanged. -/
def State.respond (p : Packet) (kind : Nat) (status : Nat) (data : List Byte) (kh : KindHdr) (s : State) : State :=
  s.send { p with
    hdr := { p.hdr with
      kind := BitVec.ofNat 8 kind, retry := false, incarnation := s.fab.incarnation, srcSlot := p.hdr.dstSlot, dstSlot := p.hdr.srcSlot
      len := BitVec.ofNat 16 data.length, epoch := s.fab.epoch, status := BitVec.ofNat 8 status, rangeSlot := 0 }
    kh := kh, data := data, dest := s.wayBack p, off := 0, total := none }

/-! ### Operations in flight -/

/-- The operation with an id. -/
def State.op (s : State) (id : Nat) : Option OutOp := s.fab.ops.find? (fun o => o.id = id)

/-- Change the operation with an id. -/
def State.onOp (id : Nat) (f : OutOp → OutOp) (s : State) : State :=
  s.onFab (fun x => { x with ops := x.ops.map (fun o => if o.id = id then f o else o) })

/-- Forget the operation with an id. -/
def State.dropOp (id : Nat) (s : State) : State := s.onFab (fun x => { x with ops := x.ops.filter (fun o => o.id ≠ id) })

/-- An operation before it has its id, tag and packet. -/
def newOp (kind : OpKind) (core : Option (Fin 192)) (node : Node) (slot rank addr localAddr len : Nat) (pkt : Packet) : OutOp where
  id := 0
  kind := kind
  core := core
  node := node
  slot := slot
  rank := rank
  tag := pkt.hdr.tag
  key := if kind.nodeTagged then keyNode node else keyRank rank
  addr := BitVec.ofNat 64 addr
  localAddr := localAddr
  len := len
  pkt := pkt
  sentAt := 0
  retries := 0
  stamp := 0
  port := none
  st := .outstanding
  want := []
  got := []
  noInstall := []
  held := false
  req := none

/-- Record an operation as issued now; its id. The Scorecard counts a remote operation (R267, R450). -/
def State.addOp (o : OutOp) (s : State) : Nat × State :=
  let s := if o.kind = .localAtom ∨ o.kind = .banker then s else s.pulse .fdie 0x0601 1
  let id := s.fab.nextId
  (id, s.onFab (fun f => { f with ops := f.ops ++ [{ o with id, sentAt := s.now, stamp := s.stamp, port := s.portFor o.pkt none }], nextId := id + 1 }))

/-- R282, R285: the LOAD packets of a read: one a missing line, or one for the bytes themselves. -/
def OutOp.loads (o : OutOp) : List Packet :=
  let mk (a n : Nat) : Packet := { o.pkt with hdr := { o.pkt.hdr with laddr := BitVec.ofNat 44 a, len := BitVec.ofNat 16 n } }
  if o.want.isEmpty then [mk (raLaddr o.addr.toNat) o.len] else o.want.map (fun l => mk (l * 256) 256)

/-- The packets of an operation. -/
def OutOp.frames (o : OutOp) : List Packet :=
  match o.kind with
  | .load | .rget => o.loads
  | .localAtom => []
  | _ => [o.pkt]

/-- Send an operation's packets, under the epoch of the moment (R300). -/
def State.sendOp (o : OutOp) (retry : Bool) (s : State) : State :=
  o.frames.foldl (fun s p => s.send { p with hdr := { p.hdr with retry, epoch := s.fab.epoch } } o.port) s

/-! ### Error bits and records (R272, R286, R391) -/

/-- Set bits of FAB_ERR without records of their own. -/
def State.fabErr (bits : Nat) (s : State) : State := s.onFab (fun f => { f with err := f.err ||| BitVec.ofNat 5 bits })

/-- R391: the record of an operation's outcome. -/
def State.fabRecord (bit : Nat) (o : OutOp) (status : Nat) (s : State) : State :=
  s.record { cls := .corrected, block := .fab, code := bit, status, addr := o.addr.toNat, peer := BitVec.ofNat 32 (satTo 0xFFFFFFFF o.rank), tag := o.tag }

/-- R272: an operation is answered with an error code. -/
def State.remoteStatus (o : OutOp) (status : Nat) (s : State) : State := (s.fabErr 1).fabRecord 0 o status

/-! ### Frames outside the rack: service frames and reports (R309, R311, R388, R424) -/

/-- The port or node that leads to a partner. -/
def State.destOf (s : State) (p : Partner) : Dest :=
  match s.nodeOfRank p.rank.toNat with
  | some n => .node n
  | none => .port p.port

/-- R285: SRC_SLOT and DST_SLOT of a frame to the partner of a port: the rack slots, 0xFF on an EXT port, and 0xFF for a partner that stands
at no slot known here (log entry 13). -/
def State.portSlots (s : State) (q : Fin 32) : BitVec 8 × BitVec 8 :=
  if (s.fab.ports[q].role == (3 : BitVec 2)) = true then (0xFF, 0xFF)
  else
    let rank := (s.fab.partners.find? (fun p => p.port = q)).elim 0xFFFFFFFF (·.rank.toNat)
    (s.fab.mySlot.setWidth 8, BitVec.ofNat 8 (s.rackSlot (s.nodeOfRank rank) rank))

/-- R309, R311: send a tagged frame that carries a rank header, outside any job where `jobTag` is 0. -/
def State.sendRanked (kind : OpKind) (code : Nat) (jobTag : BitVec 16) (dst : BitVec 32) (key rank : Nat) (dest : Dest) (hdr : RankHdr)
    (data : List Byte) (s : State) : State :=
  let (tag, s) := s.takeTag key
  let node := dest.target
  let h : Hdr := { s.hdrTo code (s.rackSlot node rank) rank tag with jobTag := jobTag }
  let h : Hdr := match dest with
    | .port q => { h with srcSlot := (s.portSlots q).1, dstSlot := (s.portSlots q).2 }
    | _ => h
  let p : Packet := { hdr := h, kh := .rank { hdr with dstRank := dst }, data := data, dest := dest }
  let o := { newOp kind none (node.getD ⟨0, 0⟩) 0xFF rank 0 0 data.length p with key := key }
  let (_, s) := s.addOp o
  s.send p

/-- JM_ID0 to JM_ID3 of the stored configuration in force (R434). -/
def State.configField (s : State) (id : Nat) : Option (BitVec 256) :=
  match s.flash.config with
  | some c => if c.tagGood then (c.fields.find? (fun x => x.1.toNat = id)).map (·.2) else none
  | none => none

/-- R424: is an identity a configured job manager's? -/
def State.isJobManager (s : State) (id : BitVec 256) : Bool :=
  (upTo 4).any (fun i => s.configField (0x10 + i) == some id && id != 0)

/-- R424: an error record is forwarded to every configured job manager that is reachable. -/
def State.forwardRecord (r : ErrRec) (s : State) : State :=
  (s.fab.partners.filter (fun p => s.isJobManager p.identity && !p.departed)).foldl (fun s p =>
    let id := leNat ((digestBytes p.identity).take 8)
    s.sendRanked .banker 0x28 0 p.rank (keyId (BitVec.ofNat 64 id)) (if p.rank = 0xFFFFFFFF then 2 ^ 32 else p.rank.toNat) (s.destOf p)
      (s.rankHdr p.rank (s.nodeOfRank p.rank.toNat)) r.bytes) s

/-- The record last put into the log. -/
def State.lastRecord (s : State) : Option ErrRec := s.flt.log.getLast?

/-- R387: the witness of a tray: the lowest rank mapped into it that is not declared departed, this node only with WITNESS_EN. -/
def State.witnessOf (s : State) (tray : Nat) : Option Nat :=
  (s.fab.ranks.filter (fun e => e.node.tray = tray && !s.departedRank e.rank &&
    (e.rank != s.job.rank.toNat || s.flt.witnessEn))).foldl (fun m e => match m with
      | none => some e.rank
      | some r => some (min r e.rank)) none

/-- R387: does this node serve as its tray's witness? -/
def State.isWitness (s : State) : Bool :=
  match s.myNode with
  | some n => s.witnessOf n.tray == some s.job.rank.toNat
  | none => false

/-- R390: DETAIL of a SUSPECT record. -/
def suspectDetail (w reasons : Nat) : Nat := w + reasons * 2 ^ 48

/-- R389: the Notice record of a suspect. -/
def suspectRecord (suspect : BitVec 32) (w reasons count : Nat) : ErrRec :=
  { cls := .notice, block := .flt, code := 0x010B, peer := suspect, count, detail := suspectDetail w reasons }

/-- R389: forward a report upward: to the log and to the job manager. -/
def State.forwardSuspect (suspect : BitVec 32) (w reasons : Nat) (s : State) : State :=
  let r := suspectRecord suspect w reasons 1
  let s := s.record { r with stamp := s.stamp }
  let s := s.onFlt (fun f => { f with forwarded := satAdd f.forwarded 1 })
  s.forwardRecord (s.lastRecord.getD r)

/-- R389: the witness handles a report. -/
def State.witnessReport (suspect : BitVec 32) (c reasons : Nat) (s : State) : State :=
  let w := c / 16
  match s.flt.entries.find? (fun e => e.suspect = suspect ∧ e.w = w) with
  | some _ =>
    s.onFlt (fun f => { f with
      counted := satAdd f.counted 1
      entries := f.entries.map (fun e => if e.suspect = suspect ∧ e.w = w then
        { e with count := e.count + 1, reasons := e.reasons ||| BitVec.ofNat 5 reasons } else e) })
  | none =>
    if s.flt.entries.length < 256 then
      (s.onFlt (fun f => { f with entries := f.entries ++ [⟨suspect, w, 1, BitVec.ofNat 5 reasons⟩] })).forwardSuspect suspect w reasons
    else
      let old := s.flt.err.toNat
      let s := (s.onFlt (fun f => { f with err := f.err ||| 4 })).errRecords .flt 0 old 4
      s.forwardSuspect suspect w reasons

/-- R313: a suspect record. -/
def suspectBytes (count : Nat) (suspect : BitVec 32) (reasons : Nat) : List Byte :=
  leBytes 8 count ++ leBytes 4 suspect.toNat ++ leBytes 1 reasons ++ leBytes 3 0

/-- Send a SUSPECT frame to a witness, or handle the report where this node is the witness. -/
def State.suspectTo (w : Option Nat) (bytes : List Byte) (s : State) : State :=
  match w with
  | none => s
  | some r =>
    if r = s.job.rank.toNat then s.witnessReport (BitVec.ofNat 32 (leAt bytes 8 4)) (leAt bytes 0 8) (leAt bytes 12 1)
    else
      let n := s.nodeOfRank r
      s.sendRanked .banker 0x23 s.fab.jobTag (BitVec.ofNat 32 r) (keyRank r) r (.node (n.getD ⟨0, 0⟩)) (s.rankHdr 0 n) bytes

/-- R388: report a suspect rank to the witness of its tray. -/
def State.reportSuspect (rank reasons : Nat) (s : State) : State :=
  if s.flt.fenced then s
  else match s.nodeOfRank rank with
    | none => s
    | some n => s.suspectTo (s.witnessOf n.tray) (suspectBytes s.cad.count.toNat (BitVec.ofNat 32 rank) reasons)

/-! ### The remote-read cache (R282-R284) -/

/-- The lines that an extent meets. -/
def rrcLines (a n : Nat) : List Nat := if n = 0 then [] else (upTo ((a + n - 1) / 256 - a / 256 + 1)).map (fun i => a / 256 + i)

/-- Does an extent meet a line? -/
def meetsLine (a n line : Nat) : Bool := decide (n ≠ 0) && decide (a / 256 ≤ line) && decide (line ≤ (a + n - 1) / 256)

/-- Drop the lines of a node that an extent meets. -/
def State.rrcDrop (n : Node) (a len : Nat) (s : State) : State :=
  s.onFab (fun f => { f with rrc := f.rrc.filter (fun l => !(l.node = n && meetsLine a len l.line)) })

/-- R284: an invalidation passes: lines are dropped, and reads in flight of those lines are not installed. -/
def State.rrcInvalidate (n : Node) (a len : Nat) (s : State) : State :=
  (s.rrcDrop n a len).onFab (fun f => { f with
    ops := f.ops.map (fun o => if o.node = n then { o with noInstall := o.noInstall ++ o.want.filter (meetsLine a len) } else o) })

/-- Drop every line of a node. -/
def State.rrcDropNode (n : Node) (s : State) : State := s.onFab (fun f => { f with rrc := f.rrc.filter (fun l => l.node ≠ n) })

/-- A line in the cache. -/
def State.rrcGet (s : State) (n : Node) (line : Nat) : Option (List Byte) :=
  (s.fab.rrc.find? (fun l => l.node = n ∧ l.line = line)).map (·.data)

/-- R282: lines that the cache holds. -/
def rrcCapacity : Nat := 262144

/-- Install a line; the oldest makes room. -/
def State.rrcInstall (n : Node) (line : Nat) (data : List Byte) (s : State) : State :=
  s.onFab (fun f =>
    let r := f.rrc.filter (fun l => !(l.node = n && l.line = line))
    { f with rrc := (if r.length < rrcCapacity then r else r.drop 1) ++ [⟨n, line, data⟩] })

/-! ### Unknown operations (R278) -/

/-- R278: the outcome code of an unknown operation; none where the spec gives none. -/
def OpKind.unknownCode : OpKind → Option Nat
  | .store | .rput | .msg | .hand | .banker | .trick => some ocStoreUnknown
  | .atom | .localAtom => some ocAtomicUnknown
  | .invalSend => some ocInvalUnknown
  | .load | .rget => none

/-- R280: REASON. -/
def UnkReason.code : UnkReason → Nat
  | .timeout => 0
  | .replayLost => 1
  | .departed => 2

/-- R278: an operation becomes unknown: it is counted, recorded and reported (R388). -/
def State.noteUnknown (o : OutOp) (why : UnkReason) (s : State) : State :=
  let p := match o.kind.unknownCode with
    | some x => (x, s)
    | none => let f := s.free; (f.1.toNat % 256, f.2)
  let s := p.2
  let s := (s.onOp o.id (fun x => { x with st := .unknown (BitVec.ofNat 8 p.1) why })).noteRetry o.key
  let s := (s.fabErr 2).onFab (fun f => { f with unknown := satAdd f.unknown 1 })
  let s := s.fabRecord 1 o (o.kind.unknownCode.getD 0)
  if o.rank < 2 ^ 32 ∧ o.kind ≠ .banker then s.reportSuspect o.rank 8 else s

/-! ### Confirmation (R275) -/

/-- R275, R298: every tag of a sequence is confirmed, cumulatively, by one CONFIRM, when it may be. -/
def State.confirmSeq (key slot rank : Nat) (jobTag : BitVec 16) (kh : KindHdr) (dest : Dest) (s : State) : State :=
  let next := s.nextTagOf key
  if s.quietTo key ∧ next ≠ s.confirmedTo key then
    (s.send { hdr := { s.hdrTo 0x06 slot rank (next - 1) with jobTag := jobTag }, kh, dest }).onFab (fun f => { f with
      confirmed := (key, next) :: f.confirmed.filter (fun x => x.1 ≠ key), msgTags := f.msgTags.filter (fun x => x.1 ≠ key) })
  else s

/-- A Trick header that names this node. -/
def State.trickHdr (s : State) : TrkHdr :=
  { srcRank := s.job.rank, inst := 0, progSlot := 0, frame := 0, level := 0, deck := 0, step := 0, count := 0, index := 0 }

/-- The kind header of a confirmation, which names its sender beyond the rack: the rank header of tags that run for a rank, the Trick header of
tags that run for a node (log entry 31). -/
def State.confirmKh (s : State) (nodeTagged : Bool) (slot rank : Nat) : KindHdr :=
  if !nodeTagged then .rank (s.rankHdr (BitVec.ofNat 32 rank) (s.nodeOfRank rank)) else if slot = 0xFF then .trick s.trickHdr else .none

/-- R275, R298: the issuer confirms the sequence of an operation. -/
def State.confirmTo (o : OutOp) (s : State) : State :=
  let slot := o.pkt.hdr.dstSlot.toNat
  s.confirmSeq o.key slot o.rank o.pkt.hdr.jobTag (s.confirmKh o.kind.nodeTagged slot o.rank) o.pkt.dest

/-- R275, R298: the issuer confirms the sequence of a key toward a node or a rank. -/
def State.confirmKey (key : Nat) (s : State) : State :=
  if key < 2 ^ 31 then
    let n : Node := ⟨BitVec.ofNat 16 (key / 64), BitVec.ofNat 6 key⟩
    let rank := (s.rankOfNode n).getD (2 ^ 32)
    let slot := s.rackSlot (some n) rank
    s.confirmSeq key slot rank s.fab.jobTag (s.confirmKh true slot rank) (.node n)
  else if 2 ^ 32 ≤ key ∧ key < 2 ^ 64 then
    let rank := key - 2 ^ 32
    let n := s.nodeOfRank rank
    let slot := s.rackSlot n rank
    s.confirmSeq key slot rank s.fab.jobTag (s.confirmKh false slot rank) (.node (n.getD ⟨0, 0⟩))
  else s

/-- R275, R298: the sequences that an earlier resend or unknown operation kept unconfirmed for 16 cd are confirmed. -/
def State.confirmQuiet (s : State) : State :=
  (s.fab.lastRetry.filter (fun x => decide (x.2 + retention ≤ s.now))).foldl (fun s x => s.confirmKey x.1) s

/-! ### Hand packets (R275, R290) -/

/-- Send a hand packet, tagged, to a slot's node (R290); it waits for a free tag. -/
def State.sendHand (kind slot : Nat) (node : Node) (h : HandHdr) (data : List Byte) (s : State) : State :=
  if s.unconfirmed (keyNode node) ≥ 4096 ∨ s.hnd.unsent.any (fun x => x.node = node) then
    s.onHnd (fun u => { u with unsent := u.unsent ++ [⟨kind, slot, node, h, data⟩] })
  else
    let (tag, s) := s.takeTag (keyNode node)
    let rank := (s.rankOfNode node).getD (s.slotRank slot)
    let p : Packet := { hdr := { s.hdrTo kind slot rank tag with len := BitVec.ofNat 16 (32 + data.length) }, kh := .hand h, data := data,
                        dest := .node node }
    let (_, s) := s.addOp (newOp .hand none node slot rank 0 0 data.length p)
    s.send p

/-- The hand packets that waited for tags go out as far as tags are free. -/
def State.flushHands (s : State) : State :=
  s.hnd.unsent.foldl (fun s x => s.sendHand x.kind x.slot x.node x.hdr x.data) (s.onHnd (fun u => { u with unsent := [] }))

/-! ### Trick frames (R309) -/

/-- R309, R275: a Trick frame takes the next tag toward its node and goes out. -/
def State.postTrk (x : TrkSend) (s : State) : State :=
  let (tag, s) := s.takeTag (keyNode x.node)
  let p : Packet := { x.pkt with hdr := { x.pkt.hdr with tag } }
  let (_, s) := s.addOp (newOp .trick none x.node (x.rank % 64) x.rank 0 0 p.data.length p)
  s.send p

/-- A Trick frame goes out, or waits for a free tag behind those that wait for one. -/
def State.offerTrk (x : TrkSend) (s : State) : State :=
  if s.tagRoom x.node 1 ∧ s.trk.unsent.all (fun y => y.node ≠ x.node) then s.postTrk x
  else s.onTrk (fun t => { t with unsent := t.unsent ++ [x] })

/-- The hand packets and Trick frames that waited for tags go out as far as tags are free. -/
def State.flushSends (s : State) : State :=
  let s := s.flushHands
  s.trk.unsent.foldl (fun s x => s.offerTrk x) (s.onTrk (fun t => { t with unsent := [] }))

/-! ### Fencing the node (R379, R385, R386) -/

/-- R313: a service record of this node. -/
def State.serviceRecord (s : State) (clean aux : Nat) : List Byte :=
  leBytes 8 s.cad.count.toNat ++ leBytes 4 s.job.rank.toNat ++ leBytes 1 1 ++ leBytes 1 clean ++ leBytes 2 aux ++ digestBytes Config.identity

/-- A service frame on every up port (R303, R305, R379). -/
def State.sendService (kind : Nat) (jobTag : BitVec 16) (clean aux : Nat) (s : State) : State :=
  let data := s.serviceRecord clean aux
  s.upPorts.foldl (fun s q => s.sendRaw {
    hdr := { kind := BitVec.ofNat 8 kind, jobTag := jobTag, incarnation := s.fab.incarnation, epoch := s.fab.epoch, len := 48,
             srcSlot := (s.portSlots q).1, dstSlot := (s.portSlots q).2 }
    data := data, dest := .port q }) s

/-- R379: the FENCED frame. -/
def State.sendFenced (code : Nat) (s : State) : State := s.sendService 0x22 s.fab.jobTag 0 code

/-- R385: the node fences itself; its record says why. -/
def State.fenceNode (r : ErrRec) (s : State) : State :=
  if s.flt.fenced then s
  else
    let s := s.sendFenced r.code
    let s := s.record r
    s.onFlt (fun f => { f with fenced := true })

end Sys2Proof.Machine
end

