-- ==== Sys2Proof/Machine/FabDone.lean ====
section
/-!
DEFINITION. FabDone.lean: how an operation that this node issued ends (R270, R272, R274, R278, R280): acknowledged, answered with data, or
unknown; what its core gets; and the FENCE that waits for it.
-/
namespace Sys2Proof.Machine

open Sys2Proof

/-! ### Loads and RGETs (R272) -/

/-- A loaded value in a register: sign- or zero-extended to 64 bits. -/
def loadValue (size : Nat) (signed : Bool) (bs : List Byte) : BitVec 64 :=
  if signed then BitVec.ofInt 64 (toSigned (8 * size) (leNat bs)) else BitVec.ofNat 64 (leNat (bs.take size))

/-- The register that a scalar load writes. -/
def Core.setLoaded (d : Nat) (toF : Bool) (v : BitVec 64) (x : Core) : Core :=
  if toF then x.setF (Fin.ofNat 32 d) v else x.setG (Fin.ofNat 32 d) v

/-- A core no longer waits. -/
def State.resume (c : Fin 192) (s : State) : State := s.onCore c (fun x => { x with stall := none })

/-- R272: the core that waits for a load traps. -/
def State.loadTrap (o : OutOp) (cause : Nat) (s : State) : State :=
  match o.core with
  | none => s
  | some c =>
    match (s.core c).stall with
    | some (.load id _ _ _ _) => if id = o.id then s.trap c cause else s
    | some (.vec id _ e _) => if id = o.id then s.trapElem c cause e o.addr.toNat else s
    | _ => s

/-- The data of a scalar load arrives: the register is written and the instruction retires. -/
def State.loadDone (o : OutOp) (bs : List Byte) (s : State) : State :=
  match o.core with
  | none => s
  | some c =>
    match (s.core c).stall with
    | some (.load id d size signed toF) =>
      if id = o.id then
        ((s.onCore c (fun x => ({ x with stall := none }).setLoaded d toF (loadValue size signed bs))).retire4 c o.addr.toNat)
      else s
    | _ => s

/-- Poison the lines that an extent meets. -/
def State.poisonExtent (a n : Nat) (s : State) : State :=
  (extentLines a n).foldl (fun s l => s.onMem (fun m => m.poisonLine (s.lineOf l))) s

/-- R272: an RGET is answered: its data, or the status of its target. The outcome of one whose core's work is lost is discarded (R375). -/
def State.rgetDone (o : OutOp) (status : Nat) (bs : List Byte) (s : State) : State :=
  if o.core.isNone then s
  else if status = ocOk then (s.putLocal o.localAddr bs).arrive o.localAddr bs.length
  else
    let s := if status = ocPoison then s.poisonExtent o.localAddr o.len else s
    s.remoteStatus o status

/-! ### Atomics (R270) -/

/-- R268, R270: a fetching ATOM has its outcome: FETCHED, then the status in G[D]. -/
def State.atomDone (o : OutOp) (status : Nat) (fetched : List Byte) (s : State) : State :=
  match o.core with
  | none => s
  | some c =>
    match (s.core c).stall with
    | some (.atom id d) =>
      if id = o.id then
        let s := s.putLocal (o.localAddr + 320) (fetched.take 16)
        (s.onCore c (fun x => ({ x with stall := none }).setG (Fin.ofNat 32 d) (BitVec.ofNat 64 status))).retire4 c
      else s
    | _ => s

/-- Does the operation's core wait for its outcome? -/
def State.waitsFor (s : State) (o : OutOp) : Bool :=
  match o.core with
  | none => false
  | some c =>
    match (s.core c).stall with
    | some (.load id _ _ _ _) | some (.vec id _ _ _) | some (.atom id _) => id == o.id
    | _ => false

/-! ### Acknowledgements (R272, R274) -/

/-- R14, R384: the outcome of an operation cannot reach its core now: their way retrains, or the memory of an ATOM's FETCHED waits. -/
def State.outcomeShut (s : State) (o : OutOp) : Bool :=
  o.core.any s.fabricShut || (o.kind == .atom && s.waitsFor o && s.busyAt .fdie (o.localAddr + 320) 16)

/-- An answer waits at the F-die (R384). -/
def State.holdAnswer (id : Nat) (p : Packet) (s : State) : State := s.onFab (fun f => { f with answers := f.answers ++ [(id, p)] })

/-- The operation has its outcome at the F-die, whose record of it is confirmed in time (R275). -/
def State.ackedAs (o : OutOp) (status : Nat) (s : State) : State := s.onOp o.id (fun x => { x with st := .acked (BitVec.ofNat 8 status) })

/-- A store, RPUT, ATOM, INVAL_SEND or message of a core is acknowledged with a final outcome. -/
def State.coreAck (o : OutOp) (status : Nat) (data : List Byte) (s : State) : State :=
  let waits := s.waitsFor o
  let s := s.ackedAs o status
  let s := if waits then (s.atomDone o status data).dropOp o.id
    else if status ≠ ocOk then s.remoteStatus o status else s
  if o.kind.sequenced then (s.confirmTo o).flushSends else s

/-- A fetching ATOM is acknowledged while its outcome cannot reach its core. -/
def State.coreAckLater (o : OutOp) (status : Nat) (p : Packet) (s : State) : State :=
  (((s.ackedAs o status).holdAnswer o.id p).confirmTo o).flushSends

/-! ### Unknown outcomes (R278) -/

/-- R278: what a core learns of its unknown operation: a load traps LOAD_LOST, a fetching ATOM ends ATOMIC_UNKNOWN. -/
def State.tellUnknown (o : OutOp) (s : State) : State :=
  match o.kind with
  | .load => s.loadTrap o causeLoadLost
  | .atom | .localAtom => s.atomDone o ocAtomicUnknown []
  | _ => s

/-- R278: an operation of a core becomes unknown. The core learns it where its way is open (R384). -/
def State.coreUnknown (o : OutOp) (why : UnkReason) (s : State) : State :=
  let s := s.noteUnknown o why
  if s.outcomeShut o then s else s.tellUnknown o

/-! ### FENCE (R280) -/

/-- The operations that a core's FENCE covers. -/
def State.fenceOps (s : State) (c : Fin 192) : List OutOp := s.fab.ops.filter (fun o => o.core == some c)

/-- Is an operation unknown? -/
def OutOp.isUnknown (o : OutOp) : Bool :=
  match o.st with
  | .unknown _ _ => true
  | _ => false

/-- R280, R296: KIND of an unknown-list entry. -/
def OpKind.listKind : OpKind → Nat
  | .load | .rget => 1
  | .store => 2
  | .rput => 3
  | .atom | .localAtom => 4
  | .invalSend => 5
  | _ => 6

/-- R280: an entry of the unknown list. -/
def OutOp.listEntry (o : OutOp) : List Byte :=
  let (code, why) := match o.st with
    | .unknown code why => (code.toNat, why.code)
    | _ => (0, 0)
  leBytes 1 o.kind.listKind ++ leBytes 1 code ++ leBytes 1 why ++ leBytes 1 o.slot ++ leBytes 2 o.tag.toNat ++ leBytes 2 0 ++
  leBytes 8 o.addr.toNat ++ leBytes 8 o.stamp.toNat ++ leBytes 8 0

/-- Insert in increasing target, then increasing tag. -/
def opInsert (o : OutOp) : List OutOp → List OutOp
  | [] => [o]
  | x :: r => if o.slot < x.slot ∨ (o.slot = x.slot ∧ o.tag.toNat < x.tag.toNat) then o :: x :: r else x :: opInsert o r

/-- R280: the unknown list. -/
def unknownList (ops : List OutOp) : List Byte :=
  let sorted := ops.foldl (fun acc o => opInsert o acc) []
  leBytes 4 ops.length ++ leBytes 1 (bit01 (decide (ops.length > 64))) ++ List.replicate 59 0 ++
    joinBytes ((sorted.take 64).map OutOp.listEntry)

/-- R384: the outcome of a FENCE cannot reach its core, or its list the memory, now. -/
def State.fenceShut (s : State) (c : Fin 192) (list : Option Nat) : Bool :=
  s.fabricShut c || ((s.fenceOps c).any OutOp.isUnknown &&
    list.any (fun a => s.busyAt .fdie a (unknownList ((s.fenceOps c).filter OutOp.isUnknown)).length))

/-- R280: the FENCE of a core completes: its outcome, the list, and what it covered is settled. The unknown operations stay known to the
F-die, for a later acknowledgement (R278). -/
def State.fenceDone (c : Fin 192) (d : Nat) (list : Option Nat) (s : State) : State :=
  let ops := s.fenceOps c
  let unk := ops.filter OutOp.isUnknown
  let bytes := unknownList unk
  let wanted := !unk.isEmpty && list.isSome
  let listAddr := list.getD 0
  match (if wanted then s.accessFault 64 listAddr bytes.length else none) with
  | some cause => s.trap c cause
  | none =>
    let s := if wanted then s.putLocal listAddr bytes else s
    let s := s.onFab (fun f => { f with ops :=
      (f.ops.filter (fun o => !(o.core == some c && !o.isUnknown))).map (fun o => if o.core = some c then { o with core := none } else o) })
    (s.onCore c (fun x => ({ x with stall := none }).setG (Fin.ofNat 32 d) (BitVec.ofNat 64 (bit01 (!unk.isEmpty))))).retire4 c

end Sys2Proof.Machine
end

