-- ==== Sys2Proof/Machine/MsRows.lean ====
section
/-!
DEFINITION. MsRows.lean: the memory-side operations as commands (R249-R257, R269): an operation that a core has issued to its own node's
controllers, or one that reaches a controller otherwise; and the bytes that staged hands hold (R291).
-/
namespace Sys2Proof.Machine

open Sys2Proof

/-! ### Staged bytes (R291) -/

/-- The bytes that a memory-side request reads and writes; of a RECIPE the byte that names its controller (R257). -/
def State.msExtent (s : State) (r : MsReq) : Nat × Nat :=
  let code := r.code.toNat
  let a := r.target.toNat
  let z := if msAnchored code then (s.aregOf a).elim 16 (fun xr => cellBytes xr.2.fp64Class) else fmtBytes r.fmt.toNat
  (a, if code = 0x0C then 1 else r.count * z)

/-- The extents that an operation reads and writes: of a RECIPE those of its elements (R257). -/
def State.msReach (s : State) (r : MsReq) : List (Nat × Nat) :=
  if r.code = 0x0C then (s.recipeElems r).map (fun e => (e.addr, s.elemBytes e)) else [s.msExtent r]

/-- R377: an extent of an operation, or the controller of a RECIPE, that a Deck in reset holds. -/
def State.msHeld (s : State) (r : MsReq) : Option (Nat × Nat) := (s.msExtent r :: s.msReach r).find? (fun x => s.heldAt x.1 x.2)

/-- R14, R247, R257, R384: does an operation wait for a channel or a die link that retrains? A RECIPE goes to its controller, and its elements
from there to theirs. -/
def State.msShut (s : State) (who : Accessor) (r : MsReq) : Bool :=
  let x := s.msExtent r
  if r.code ≠ 0x0C then s.shutAt who x.1 x.2
  else s.retrains && (s.deckOf x.1).any (fun d => (who.links d).any s.linkShut || (s.msReach r).any (fun y => s.shutAt (.engine d) y.1 y.2))

/-- R249, R268: the request of an ATOM entry of a hand. -/
def HandEntry.req (e : HandEntry) (flush : Bool := false) : MsReq where
  code := e.code
  fmt := e.fmt
  target := BitVec.ofNat 64 e.laddr
  count := e.count
  fetch := e.fetch
  payload := e.payload
  flush := flush

/-- The bytes that an entry of a hand reads or writes. -/
def State.entryReach (s : State) (e : HandEntry) : Nat × Nat := if e.kind = 2 then (e.laddr, e.payload.length) else s.msExtent e.req

/-- The bytes that an entry of a hand writes: none for an AREAD (R254). -/
def State.entryExtent (s : State) (e : HandEntry) : Nat × Nat :=
  if e.kind ≠ 2 ∧ e.code = 0x0B then (e.laddr, 0) else s.entryReach e

/-- Is a hand held here with its bytes staged? -/
def HandIn.holds (h : HandIn) : Bool := h.st == .staged || h.st == .voted

/-- The bytes that a hand stages at this node. -/
def State.handExtents (s : State) (h : HandIn) : List (Nat × Nat) := h.entries.map s.entryExtent

/-- Does an extent meet bytes that a hand stages? -/
def State.stagedHit (s : State) (a n : Nat) : Bool :=
  s.hnd.inn.any (fun h => h.holds && (s.handExtents h).any (fun x => overlaps x (a, n)))

/-! ### The commands -/

/-- May an operation be applied now? One on staged bytes (R291), on the memory of a Deck in reset (R377), or over a channel or die link that
retrains (R247, R384) waits. -/
def State.msFree (s : State) (who : Accessor) (q : MsReq) : Bool :=
  (s.msHeld q).isNone && !(s.msReach q).any (fun x => s.stagedHit x.1 x.2) && !(s.msShut who q)

/-- Who makes the access of an operation in flight. -/
def OutOp.accessor (o : OutOp) : Accessor := o.core.elim .fdie (fun c => .dealer c.val)

/-- A memory-side operation is applied: the one that a core has issued and that is outstanding, with what its core gets, or one given
as it reaches the controller. -/
def State.msRow (code : Nat) (r : MsSource) (s : State) : State :=
  match r with
  | .given q => if q.code.toNat = code ∧ s.msFree .controller q then (s.applyMs q).1 else s
  | .issued id =>
    match s.op id with
    | some o =>
      match o.req with
      | some q =>
        if o.st = .outstanding ∧ q.code.toNat = code ∧ s.msFree o.accessor q then
          let p := s.applyMs q
          p.1.coreAck o p.2.status p.2.fetched
        else s
      | none => s
    | none => s

/-- IADD (R250). -/
def execIadd (r : MsSource) (s : State) : Host.Outcome State Fault Refusal := inService s (State.msRow 0x01 r)
/-- SMIN (R250). -/
def execSmin (r : MsSource) (s : State) : Host.Outcome State Fault Refusal := inService s (State.msRow 0x02 r)
/-- SMAX (R250). -/
def execSmax (r : MsSource) (s : State) : Host.Outcome State Fault Refusal := inService s (State.msRow 0x03 r)
/-- UMIN (R250). -/
def execUmin (r : MsSource) (s : State) : Host.Outcome State Fault Refusal := inService s (State.msRow 0x04 r)
/-- UMAX (R250). -/
def execUmax (r : MsSource) (s : State) : Host.Outcome State Fault Refusal := inService s (State.msRow 0x05 r)
/-- MSIDE_FMIN (R250). -/
def execMsideFmin (r : MsSource) (s : State) : Host.Outcome State Fault Refusal := inService s (State.msRow 0x06 r)
/-- MSIDE_FMAX (R250). -/
def execMsideFmax (r : MsSource) (s : State) : Host.Outcome State Fault Refusal := inService s (State.msRow 0x07 r)
/-- PLAIN_FADD (R251). -/
def execPlainFadd (r : MsSource) (s : State) : Host.Outcome State Fault Refusal := inService s (State.msRow 0x08 r)
/-- AADD (R254). -/
def execAadd (r : MsSource) (s : State) : Host.Outcome State Fault Refusal := inService s (State.msRow 0x09 r)
/-- ACLEAR (R254). -/
def execAclear (r : MsSource) (s : State) : Host.Outcome State Fault Refusal := inService s (State.msRow 0x0A r)
/-- AREAD (R254). -/
def execAread (r : MsSource) (s : State) : Host.Outcome State Fault Refusal := inService s (State.msRow 0x0B r)
/-- RECIPE (R257). -/
def execRecipe (r : MsSource) (s : State) : Host.Outcome State Fault Refusal := inService s (State.msRow 0x0C r)
/-- SWAP (R269). -/
def execSwap (r : MsSource) (s : State) : Host.Outcome State Fault Refusal := inService s (State.msRow 0x10 r)
/-- CAS (R269). -/
def execCas (r : MsSource) (s : State) : Host.Outcome State Fault Refusal := inService s (State.msRow 0x11 r)

end Sys2Proof.Machine
end

