-- ==== Sys2Proof/Machine/FabTarget.lean ====
section
/-!
DEFINITION. FabTarget.lean: this node as the target of remote operations (R265, R271-R278, R301, R304, R307, R377): which frames it takes,
segments (R309), exactly-once writes, loads, invalidations.
-/
namespace Sys2Proof.Machine

open Sys2Proof

/-! ### Frames taken and dropped (R301, R304, R307, R385) -/

/-- A dropped job frame is counted (R304, R307). -/
def State.dropForeign (s : State) : State := s.onFab (fun f => { f with foreignTag := satAdd f.foreignTag 1 })

/-- A job frame from a rank is taken, or dropped: a fenced node drops every one (R385), a foreign tag or a departed sender is counted. -/
def State.onJobFrame (p : Packet) (srcRank : Nat) (f : State → State) (s : State) : State :=
  if s.flt.fenced then s
  else if p.hdr.jobTag ≠ s.fab.jobTag ∨ s.goneRank srcRank p.hdr.epoch then s.dropForeign
  else if !s.fab.enable then s
  else f s

/-- R301: a request is taken with this node's epoch or the one before. While a Package reset waits for voted hands, every other request is
discarded (R375): HSHOW, HFOLD and HQUERY are taken. -/
def State.onRequest (p : Packet) (srcRank : Nat) (f : State → State) (s : State) : State :=
  s.onJobFrame p srcRank (fun s =>
    if s.packageResetting && p.hdr.kind != 0x0A && p.hdr.kind != 0x0B && p.hdr.kind != 0x0D then s
    else if p.hdr.epoch = s.fab.epoch ∨ p.hdr.epoch + 1 = s.fab.epoch then f s
    else if p.hdr.epoch.toNat < s.fab.epoch.toNat then s.onFab (fun x => { x with staleEpoch := satAdd x.staleEpoch 1 })
    else s)

/-- The rank of a packet's source slot. -/
def State.srcRank (s : State) (p : Packet) : Nat := s.slotRank p.hdr.srcSlot.toNat

/-! ### Exactly once (R275, R277) -/

/-- The status that says REPLAY_LOST: the outcome that the operation has from then on (R271, R278). -/
def lostCode (kind : Nat) : Nat := if kind = 4 then ocAtomicUnknown else ocStoreUnknown

/-- R309: the data of a frame whose pieces cover it; none while a byte is missing. -/
def joinPieces (total : Nat) (ps : List (Nat × List Byte)) : Option (List Byte) :=
  (upTo total).mapM (fun i => (ps.find? (fun x => decide (x.1 ≤ i) && decide (i < x.1 + x.2.length))).bind (fun x => x.2[i - x.1]?))

/-- R309: the receiver acts on a frame when every segment of it has come. -/
def State.whole (p : Packet) (f : Packet → State → State) (s : State) : State :=
  match p.total with
  | none => f p s
  | some n =>
    let key := s.frameKey p
    let same (x : Partial) : Bool := x.key == key && x.kind == p.hdr.kind && x.tag == p.hdr.tag && x.total == n
    let old := (s.fab.parts.find? same).elim [] (·.pieces)
    let pieces := (p.off, p.data) :: old.filter (fun x => x.1 ≠ p.off)
    let rest := s.fab.parts.filter (fun x => !(same x))
    match joinPieces n pieces with
    | some data => f { p with data, off := 0, total := none } (s.onFab (fun x => { x with parts := rest }))
    | none => s.onFab (fun x => { x with parts := rest ++ [⟨key, p.hdr.kind, p.hdr.tag, n, pieces⟩] })

/-- R275: put an entry into a source's replay table of `cap` entries; a full table loses its oldest. -/
def replayAdd (cap : Nat) (r : Replay) (rs : List Replay) : List Replay :=
  (if (rs.filter (fun x => x.key = r.key)).length < cap then rs else dropFirst (fun x => x.key == r.key) rs) ++ [r]

/-- R277: a tagged write from a source node: answered from the replay table, refused as lost, or applied once. -/
def State.onceOnly (p : Packet) (apply : State → State × Nat × List Byte) (s : State) : State :=
  let key := s.srcKey p
  match s.fab.replay.find? (fun r => r.key = key ∧ r.tag = p.hdr.tag) with
  | some r => s.respond p 0x82 r.code.toNat r.fetched p.kh
  | none =>
    if p.hdr.retry ∧ p.hdr.incarnation ≠ s.fab.incarnation then s.respond p 0x82 (lostCode p.hdr.kind.toNat) [] p.kh
    else
      let (s, code, fetched) := apply s
      let s := s.onFab (fun f => { f with replay := replayAdd 4096 ⟨key, p.hdr.tag, BitVec.ofNat 8 code, fetched, s.now⟩ f.replay })
      s.respond p 0x82 code fetched p.kh

/-- R377: has the write been taken already, applied or held? -/
def State.knownWrite (s : State) (p : Packet) : Bool :=
  let key := s.srcKey p
  s.fab.replay.any (fun r => r.key == key && r.tag == p.hdr.tag)

/-- R291: a packet for staged bytes waits, once. -/
def State.waitStaged (key : Nat) (p : Packet) (s : State) : State :=
  if s.hnd.waiting.any (fun x => x.1 == key && x.2.hdr.tag == p.hdr.tag && x.2.hdr.kind == p.hdr.kind && x.2.hdr.laddr == p.hdr.laddr) then s
  else s.onHnd (fun h => { h with waiting := h.waiting ++ [(key, p)] })

/-- R377: the Deck in reset that holds an extent. -/
def State.heldDeck (s : State) (a n : Nat) : Nat :=
  ((s.granules a n).findSome? (fun g => (s.deckOf g).filter s.deckResetting)).getD 0

/-- R377: hold a write for a Deck in reset, one copy under its tag, and answer HELD. -/
def State.holdWrite (d : Nat) (p : Packet) (s : State) : State :=
  let key := s.srcKey p
  let s := if s.fab.heldOps.any (fun h => h.key == key && h.pkt.hdr.tag == p.hdr.tag && h.pkt.hdr.kind == p.hdr.kind &&
      h.pkt.hdr.laddr == p.hdr.laddr) then s
    else s.onFab (fun f => { f with heldOps := f.heldOps ++ [⟨key, p, Fin.ofNat 4 d⟩] })
  s.respond p (if p.hdr.kind = 1 then 0x81 else 0x82) ocHeld [] p.kh

/-- A request meets its extents as they now stand: one held by a Deck reset (R377), one for which it waits, or it is served. -/
def State.whenOpen (p : Packet) (held : Option (Nat × Nat)) (waits : Bool) (f : State → State) (s : State) : State :=
  match held with
  | some x => s.holdWrite (s.heldDeck x.1 x.2) p
  | none => if waits then s.waitStaged (s.srcKey p) p else f s

/-- The extent, where a Deck in reset holds it. -/
def State.heldOf (s : State) (a n : Nat) : Option (Nat × Nat) := if s.heldAt a n then some (a, n) else none

/-- Does a request for an extent wait for staged bytes (R291), or for a channel or die link that retrains (R247, R384)? -/
def State.waitsAt (s : State) (a n : Nat) : Bool := s.stagedHit a n || s.shutAt .fdie a n

/-- A tagged write for its extents. -/
def State.taggedWrite (p : Packet) (held : Option (Nat × Nat)) (waits : Bool) (apply : State → State × Nat × List Byte) (s : State) : State :=
  if s.knownWrite p ∨ (p.hdr.retry ∧ p.hdr.incarnation ≠ s.fab.incarnation ∧
      !(s.fab.heldOps.any (fun h => h.key == s.srcKey p && h.pkt.hdr.tag == p.hdr.tag))) then s.onceOnly p apply
  else s.whenOpen p held waits (State.onceOnly p apply)

/-! ### The operations (R265, R268, R274, R283) -/

/-- R265: the extent lies in an HBM window or a Suit buffer. -/
def State.remoteReach (s : State) (a n : Nat) : Bool := (s.storeOfExtent a (max n 1)).any Store.shared

/-- The data of a packet: LEN bytes. -/
def Packet.payload (p : Packet) : List Byte := p.data.take p.hdr.len.toNat

/-- R265, R271: the bytes of a STORE or RPUT are written. -/
def State.applyStore (p : Packet) (s : State) : State × Nat × List Byte :=
  if s.remoteReach p.hdr.laddr.toNat p.payload.length then
    ((s.writeMem p.hdr.laddr.toNat p.payload).arrive p.hdr.laddr.toNat p.payload.length, ocOk, []) else (s, ocAddr, [])

/-- R268: the memory-side request of an ATOM packet. The header carries no FLUSH of the issuer: for FMIN, FMAX, a Plain FADD and a RECIPE
it is a free value (R250 gives none; DESIGN CHOICE, log entry 6). -/
def State.packetReq (p : Packet) (s : State) : MsReq × State :=
  let f := s.free
  let q (flush : Bool) : MsReq :=
    { code := p.hdr.code, fmt := p.hdr.fmt, target := p.hdr.laddr.setWidth 64, count := p.hdr.count.toNat, fetch := p.hdr.fetch
      recipe := p.hdr.slot, payload := p.payload, flush := flush }
  if (6 ≤ p.hdr.code.toNat ∧ p.hdr.code.toNat ≤ 8) ∨ p.hdr.code = 12 then (q (f.1.getLsbD 0), f.2) else (q false, s)

/-- R268: an ATOM is applied by the controller. -/
def State.applyAtom (p : Packet) (s : State) : State × Nat × List Byte :=
  let q := s.packetReq p
  let r := q.2.applyMs q.1
  (r.1, r.2.status, r.2.fetched.take 16)

/-- A STORE or RPUT packet arrives (R277). -/
def State.onStore (p : Packet) (s : State) : State :=
  let a := p.hdr.laddr.toNat
  let n := p.payload.length
  s.onRequest p (s.srcRank p) (State.taggedWrite p (s.heldOf a n) (s.waitsAt a n) (State.applyStore p))

/-- An ATOM packet arrives (R277). -/
def State.onAtom (p : Packet) (s : State) : State :=
  let q := (s.packetReq p).1
  let waits := (s.msReach q).any (fun x => s.stagedHit x.1 x.2) || s.msShut .fdie q
  s.onRequest p (s.srcRank p) (State.taggedWrite p (s.msHeld q) waits (State.applyAtom p))

/-- R272, R285: a LOAD is read and answered with DATA. -/
def State.answerLoad (p : Packet) (s : State) : State :=
  let a := p.hdr.laddr.toNat
  let n := p.hdr.len.toNat
  if !(s.remoteReach a n) then s.respond p 0x81 ocAddr [] .none
  else
    let s := s.settle a n
    if s.poisonedIn a n then s.respond p 0x81 ocPoison [] .none else s.respond p 0x81 ocOk (s.readMem a n) .none

/-- A LOAD packet arrives. -/
def State.onLoad (p : Packet) (s : State) : State :=
  s.onRequest p (s.srcRank p) (State.whenOpen p (s.heldOf p.hdr.laddr.toNat p.hdr.len.toNat) (s.waitsAt p.hdr.laddr.toNat p.hdr.len.toNat) (State.answerLoad p))

/-- R283: an INVAL packet arrives: this node drops its copies of the range, by its own rank table, and acknowledges. -/
def State.onInval (p : Packet) (s : State) : State :=
  s.onRequest p (s.srcRank p) (fun s =>
    let s := match s.nodeOfRank (s.slotRank p.hdr.rangeSlot.toNat) with
      | some n => s.rrcInvalidate n (p.hdr.laddr.toNat / 256 * 256) (p.hdr.count.toNat * 256)
      | none => s
    s.respond p 0x82 ocOk [] .none)

/-- R275, R298: a confirmation frees the entries that it covers. -/
def State.onConfirm (p : Packet) (s : State) : State :=
  let act (s : State) : State :=
    let key := s.frameKey p
    let keep (r : Replay) : Bool := !(r.key = key && decide ((p.hdr.tag - r.tag).toNat < 32768))
    s.onFab (fun f => { f with replay := f.replay.filter keep, msgReplay := f.msgReplay.filter keep })
  if p.hdr.jobTag = 0 ∧ p.srcRank.isSome then act s else s.onRequest p (p.srcRank.getD (s.srcRank p)) act

end Sys2Proof.Machine
end

