-- ==== Sys2Proof/Machine/CkpMem.lean ====
section
/-!
DEFINITION. CkpMem.lean: the bytes of a checkpoint (R348, R349): sets, shards and digests; and the pieces of a shard that arrive for a
restore (R361) or a shard read (R364).
-/
namespace Sys2Proof.Machine

open Sys2Proof

/-! ### Sets and shards (R348, R349) -/

/-- 1 MiB. -/
def mib : Nat := 2 ^ 20

/-- R348: entry `i` of a set table. -/
def setEntryOf (tab : List Byte) (i : Nat) : SetEntry := ⟨leAt tab (16 * i) 8, leAt tab (16 * i + 8) 5, leAt tab (16 * i + 14) 2⟩

/-- R348: the entries of a set table. -/
def setOf (tab : List Byte) (n : Nat) : List SetEntry := (upTo n).map (setEntryOf tab)

/-- R348: the 16 bytes of an entry. -/
def SetEntry.bytes (e : SetEntry) : List Byte := leBytes 8 e.base ++ leBytes 5 e.len ++ leBytes 1 0 ++ leBytes 2 e.region

/-- Bytes of a shard. -/
def shardLen (set : List SetEntry) : Nat := set.foldl (fun n e => n + e.len) 0

/-- R349: the extents (address, bytes) of `n` bytes of the shard from offset `off`. -/
def shardSpans : List SetEntry → Nat → Nat → List (Nat × Nat)
  | [], _, _ => []
  | e :: r, off, n =>
    if n = 0 then []
    else if off ≥ e.len then shardSpans r (off - e.len) n
    else
      let k := min n (e.len - off)
      (e.base + off, k) :: shardSpans r 0 (n - k)

/-- The key of the twin of the byte at a local address (its own key where it has none). -/
def State.twinOf (s : State) (a : Nat) : Nat := let k := s.keyOf a; (s.twinKey k).getD k

/-- R239: has every byte of an entry a twin? -/
def State.twinned (s : State) (e : SetEntry) : Bool :=
  (upTo (e.len / 256)).all (fun i => (s.twinKey (s.keyOf (e.base + 256 * i))).isSome)

/-- Bytes of the shard as the Sachet holds them. -/
def State.sachetRead (s : State) (set : List SetEntry) (off n : Nat) : List Byte :=
  ((shardSpans set off n).map (fun x => (upTo x.2).map (fun i => s.mem.get (s.twinOf (x.1 + i))))).flatten

/-- R242, R365: are any of these bytes of the Sachet poisoned, or in a fenced channel? -/
def State.sachetPoison (s : State) (set : List SetEntry) (off n : Nat) : Bool :=
  (shardSpans set off n).any (fun x => (extentLines x.1 x.2).any (fun l =>
    let k := s.twinOf l
    s.mem.isPoison (k / 64) || s.fencedKey k))

/-- R247: do bytes of the shard lie in the Sachet behind a channel that retrains? -/
def State.sachetShut (s : State) (set : List SetEntry) (off n : Nat) : Bool :=
  s.retrains && (shardSpans set off n).any (fun x => (extentLines x.1 x.2).any (fun l => s.keyShut (s.twinOf l)))

/-- R242: the reads of bytes of the Sachet decode the transfers that they meet. -/
def State.settleSachet (set : List SetEntry) (off n : Nat) (s : State) : State :=
  if s.mem.upset.isEmpty then s
  else (shardSpans set off n).foldl (fun s x => (extentLines x.1 x.2).foldl (fun s l => s.decodeLine (s.twinOf l / 64)) s) s

/-- Write bytes of the shard into the Sachet; lines written whole lose their poison (R243). -/
def State.sachetWrite (set : List SetEntry) (off : Nat) (bs : List Byte) (s : State) : State :=
  (shardSpans set off bs.length).foldl (fun (acc : State × List Byte) x =>
    let s := acc.1
    let kbs := ((List.zip (upTo x.2) acc.2).map (fun ib => (s.twinOf (x.1 + ib.1), ib.2))).filter (fun kb => !s.fencedKey kb.1)
    let whole := (extentLines x.1 x.2).filter (fun l => decide (x.1 ≤ l) && decide (l + 64 ≤ x.1 + x.2))
    let lines := whole.map (fun l => s.twinOf l / 64)
    (s.onMem (fun m =>
      let m := m.putAll kbs
      { lines.foldl Memory.cleanLine m with upset := m.upset.filter (fun u => !lines.contains u.1) }),
     acc.2.drop x.2)) (s, bs) |>.1

/-- Number of 1 MiB chunks of a shard. -/
def shardChunks (total : Nat) : Nat := ceilDiv total mib

/-- R349: the digest of chunk `i` of the Sachet's bytes. -/
def State.chunkDigest (s : State) (set : List SetEntry) (i : Nat) : List Byte :=
  shake256 32 (s.sachetRead set (i * mib) (min mib (shardLen set - i * mib)))

/-- R349: the shard index of the Sachet's bytes as they stand: the digest of each chunk. -/
def State.shardIndex (s : State) (set : List SetEntry) : List Byte :=
  joinBytes ((upTo (shardChunks (shardLen set))).map (s.chunkDigest set))

/-- R349: the shard digest of an index. -/
def shardDigest (index : List Byte) : BitVec 256 := digest256 index

/-- R349: the set digest, 16 bytes. -/
def setDigest (set : List SetEntry) : List Byte := (shake256 32 (joinBytes (set.map SetEntry.bytes))).take 16

/-! ### Errors and answers (R366, R368) -/

/-- R117, R366, R368: set a bit of CKP_ERR, with its record: each of DECANT_ABANDONED (0), CKP_POISON (1), DRY_LOST (2) is Contained; SHARD_BAD
(3) has a record where its bit becomes 1. -/
def State.ckpErr (bit status : Nat) (s : State) : State :=
  let stood := s.ckp.err.getLsbD bit
  let s := s.onCkp (fun k => { k with err := k.err ||| BitVec.ofNat 4 (2 ^ bit) })
  if bit = 3 ∧ stood then s else s.record { cls := if bit = 3 then .corrected else .contained, block := .ckp, code := bit, status }

/-- A command of a mailbox that waited for the checkpoint unit has ended. -/
def State.ckpAnswer (mbx status : Nat) (s : State) : State :=
  s.onCkp (fun k => { k with answers := (mbx, status) :: k.answers.filter (fun a => a.1 ≠ mbx) })

/-! ### Pieces (R356) -/

/-- The fields of a piece header. -/
structure PieceHdr where
  kind : Nat
  step : BitVec 64
  rank : BitVec 32
  len : Nat
  off : Nat
  deriving DecidableEq, Repr

/-- R356: the header of a piece. -/
def pieceHdr (bs : List Byte) : PieceHdr :=
  ⟨leAt bs 0 1, BitVec.ofNat 64 (leAt bs 8 8), BitVec.ofNat 32 (leAt bs 16 4), leAt bs 20 4, leAt bs 24 8⟩

/-- R356: the bytes of a piece header. -/
def pieceBytes (kind : Nat) (step : BitVec 64) (rank : BitVec 32) (len off : Nat) (dig : BitVec 256) : List Byte :=
  leBytes 1 kind ++ leBytes 7 0 ++ leBytes 8 step.toNat ++ leBytes 4 rank.toNat ++ leBytes 4 len ++ leBytes 8 off ++ digestBytes dig

/-- Does a range of bytes lie in the ranges that have come (`fuel` steps at most)? -/
def covered (xs : List (Nat × Nat)) : Nat → Nat → Nat → Bool
  | 0, lo, hi => decide (lo ≥ hi)
  | n + 1, lo, hi =>
    if lo ≥ hi then true
    else match xs.find? (fun x => x.1 ≤ lo ∧ lo < x.1 + x.2) with
      | some x => covered xs n (x.1 + x.2) hi
      | none => false

/-- The chunks that `n` bytes of the shard from offset `off` meet. -/
def chunksMet (off n : Nat) : List Nat := if n = 0 then [] else (upTo ((off + n - 1) / mib - off / mib + 1)).map (fun i => off / mib + i)

/-- R349: the digests of the chunks that a piece has completed, or changed. -/
def State.stageDigests (g : Staging) (off n : Nat) (s : State) : State × Staging :=
  let total := shardLen g.set
  ((chunksMet off n).filter (fun i => covered g.placed (g.placed.length + 1) (i * mib) (min total (i * mib + mib)))).foldl (fun acc i =>
    let s := acc.1.settleSachet g.set (i * mib) (min mib (total - i * mib))
    (s, { acc.2 with digests := (i, s.chunkDigest g.set i) :: acc.2.digests.filter (fun x => x.1 ≠ i) })) (s, g)

/-- R361: a piece for the staging is placed, and the step verified when its last chunk is present. -/
def State.stagePiece (g : Staging) (src : Nat) (h : PieceHdr) (bs : List Byte) (s : State) : State :=
  if h.step ≠ g.step ∨ h.rank ≠ g.rank then s.onCkp (fun k => { k with foreignPieces := satAdd k.foreignPieces 1 })
  else if h.kind ≠ 0 ∨ h.off + h.len > shardLen g.set then s
  else
    let s := s.sachetWrite g.set h.off (slice bs 64 h.len)
    let g := { g with placed := (h.off, h.len) :: g.placed.filter (fun x => x.1 ≠ h.off), sources := insertNat src g.sources }
    let (s, g) := s.stageDigests g h.off h.len
    let s := s.onCkp (fun k => { k with staging := some g })
    if !(covered g.placed (g.placed.length + 1) 0 (shardLen g.set)) then s
    else
      let index := joinBytes ((upTo (shardChunks (shardLen g.set))).map (fun i => (g.digests.find? (fun x => x.1 = i)).elim [] (·.2)))
      let good := !(s.sachetPoison g.set 0 (shardLen g.set)) && shardDigest index == g.shardDigest
      let s := s.onCkp (fun k => { k with staging := none, index, st := if good then .verified else .incomplete })
      if good then s.ckpAnswer g.mbx 0x39 else (s.ckpErr 3 0x36).ckpAnswer g.mbx 0x36

/-- Bytes [off, off + n) of pieces that have come (`fuel` pieces at most). -/
def piecesAt (xs : List (Nat × List Byte)) : Nat → Nat → Nat → Option (List Byte)
  | 0, _, n => if n = 0 then some [] else none
  | f + 1, off, n =>
    if n = 0 then some []
    else match xs.find? (fun x => x.1 ≤ off ∧ off < x.1 + x.2.length) with
      | none => none
      | some x =>
        let t := (x.2.drop (off - x.1)).take n
        (piecesAt xs f (off + t.length) (n - t.length)).map (fun r => t ++ r)

/-- R364: the chunks of the range wanted. -/
def ShardRead.chunks (r : ShardRead) : List Nat := chunksMet r.off r.len

/-- R364: one chunk of the range that has come is verified against the index, and its bytes of the range written. -/
def State.readChunk (index : List Byte) (x : State × ShardRead) (c : Nat) : State × ShardRead :=
  let r := x.2
  let lo := c * mib
  match piecesAt r.data (r.data.length + 1) lo (min mib (r.total - lo)) with
  | none => x
  | some bs =>
    let good := shake256 32 bs == slice index (32 * c) 32
    let a := max lo r.off
    let b := min (lo + bs.length) (r.off + r.len)
    let at_ := r.dest + (a - r.off)
    (if good then (x.1.writeMem at_ ((bs.drop (a - lo)).take (b - a))).arrive at_ (b - a) else x.1,
     { r with finished := c :: r.finished, bad := r.bad || !good })

/-- Does a piece belong to a shard read? -/
def ShardRead.takes (h : PieceHdr) (r : ShardRead) : Bool := h.step == r.step && h.rank == r.rank

/-- R364: a shard read ends, with its digests good or not. -/
def State.readEnds (r : ShardRead) (good : Bool) (s : State) : State :=
  let s := s.onCkp (fun k => { k with reads := k.reads.filter (fun x => x.mbx ≠ r.mbx) })
  if good then s.ckpAnswer r.mbx 0 else (s.ckpErr 3 0x36).ckpAnswer r.mbx 0x36

/-- R364: a piece for a shard read has come: index and chunks are verified as they become complete. -/
def State.readPiece (r : ShardRead) (h : PieceHdr) (bs : List Byte) (s : State) : State :=
  let x := (h.off, slice bs 64 h.len)
  let r := if h.kind = 0 then { r with data := x :: r.data } else { r with index := x :: r.index }
  let keep (r : ShardRead) (s : State) : State := s.onCkp (fun k => { k with reads := k.reads.map (fun x => if x.mbx = r.mbx then r else x) })
  match piecesAt r.index (r.index.length + 1) 0 (32 * shardChunks r.total) with
  | none => keep r s
  | some index =>
    if shardDigest index ≠ r.shardDigest then s.readEnds r false
    else
      let y := (r.chunks.filter (fun c => !r.finished.contains c)).foldl (State.readChunk index) (s, r)
      if y.2.chunks.all (fun c => y.2.finished.contains c) then y.1.readEnds y.2 (!y.2.bad) else keep y.2 y.1

/-- R361, R364: does a queue take pieces now? -/
def State.pieceQueue (s : State) (q : Nat) : Bool := s.ckp.staging.any (fun g => g.queue == q) || s.ckp.reads.any (fun r => r.queue == q)

/-- R247, R377: a piece for bytes of the Sachet, or of a shard read's destination, behind a channel or link that retrains or in a Deck in reset
waits. -/
def State.pieceWaits (s : State) (q : Nat) (h : PieceHdr) : Bool :=
  s.ckp.staging.any (fun g => g.queue == q && h.kind == 0 && s.sachetShut g.set h.off h.len) ||
  s.ckp.reads.any (fun r => r.queue == q && r.takes h && s.busyAt .fdie r.dest r.len)

/-- R361, R364: a message to a queue that takes pieces is handled as a piece: of the staging there, and of the shard reads whose shard it
belongs to; one of no step or rank in hand is counted. -/
def State.takePiece (q src : Nat) (bs : List Byte) (s : State) : State :=
  let h := pieceHdr bs
  let rs := s.ckp.reads.filter (fun r => r.queue = q && r.takes h)
  let staged := s.ckp.staging.filter (fun g => g.queue = q && (h.step = g.step && h.rank = g.rank || rs.isEmpty))
  let s := rs.foldl (fun s r => s.readPiece r h bs) s
  match staged with
  | some g => s.stagePiece g src h bs
  | none => if rs.isEmpty then s.onCkp (fun k => { k with foreignPieces := satAdd k.foreignPieces 1 }) else s

end Sys2Proof.Machine
end

