-- ==== Sys2Proof/Machine/MsgOps.lean ====
section
/-!
DEFINITION. MsgOps.lean: tagged frames keyed by rank (R298, R311), messages at their sender and receiver (R296-R298), and the packets that
waited for staged bytes or a Deck reset (R291, R377).
-/
namespace Sys2Proof.Machine

open Sys2Proof

/-! ### Acknowledging ranked frames (R298, R309, R311) -/

/-- The kind header of an acknowledgement: the rank header toward the frame's sender (R311), or the Trick header under this node's own rank. -/
def Packet.ackKh (p : Packet) (s : State) : KindHdr :=
  match p.kh with
  | .rank h => .rank (s.rankHdr h.srcRank (s.nodeOfRank h.srcRank.toNat))
  | .trick h => .trick { h with srcRank := s.job.rank }
  | k => k

/-- A tagged frame keyed by rank or identity is acknowledged with a status. -/
def State.ackRanked (p : Packet) (status : Nat) (s : State) : State := s.respond p 0x82 status [] (p.ackKh s)

/-- The replay entry of a key and tag. -/
def replayOf (rs : List Replay) (key : Nat) (tag : BitVec 16) : Option Replay := rs.find? (fun r => r.key = key ∧ r.tag = tag)

/-- Record that a tagged frame has been acted on, and acknowledge it. -/
def State.tookRanked (key : Nat) (p : Packet) (s : State) : State :=
  (s.onFab (fun f => { f with replay := replayAdd 4096 ⟨key, p.hdr.tag, BitVec.ofNat 8 ocOk, [], s.now⟩ f.replay })).ackRanked p ocOk

/-- R275-R277: a tagged frame keyed by rank or identity: answered from the table, refused as lost, or acted on and then acknowledged, where
`act` says that it is taken. -/
def State.onceRanked (key : Nat) (p : Packet) (act : State → State × Bool) (s : State) : State :=
  match replayOf s.fab.replay key p.hdr.tag with
  | some r => s.ackRanked p r.code.toNat
  | none =>
    if p.hdr.retry ∧ p.hdr.incarnation ≠ s.fab.incarnation then s.ackRanked p ocStoreUnknown
    else
      let r := act s
      if r.2 then r.1.tookRanked key p else r.1

/-! ### Errors of the hand and message unit -/

/-- R117, R314: set bits of HND_ERR, with their records. -/
def State.hndErr (bits : Nat) (s : State) : State :=
  let old := s.hnd.err.toNat
  (s.onHnd (fun h => { h with err := h.err ||| BitVec.ofNat 4 bits })).errRecords .hnd 0 old bits

/-! ### Messages at the receiver (R297, R298) -/

/-- MSG_BUSY. -/
def ocMsgBusy : Nat := 0x0B
/-- MSG_BAD. -/
def ocMsgBad : Nat := 0x0C
/-- MSG_FULL. -/
def ocMsgFull : Nat := 0x0E

/-- R298: entries of the message replay table. -/
def msgTable : Nat := 16384

/-- R297: where slot `i` of a queue begins. -/
def RxQueue.slotAddr (q : RxQueue) (i : Nat) : Nat := q.base.toNat + i * 2 ^ q.slotLog2.toNat

/-- R297: is a slot of a queue busy for a message: filled, or taken by another that has begun to arrive? -/
def State.slotBusy (s : State) (key : Nat) (tag : BitVec 16) (q i : Nat) : Bool :=
  (vget s.hnd.rxq q ⟨0, 0, 0, 12, 0, false, []⟩).busy.contains i ||
    s.hnd.claims.any (fun c => c.queue == q && c.slot == i && !(c.key == key && c.tag == tag))

/-- R297: a message whose first bytes arrive takes its slot, where the slot exists and is free. -/
def State.claimSlot (key : Nat) (p : Packet) (s : State) : State :=
  match p.kh with
  | .rank h =>
    let q := h.queue.toNat % 64
    let i := h.slot.toNat
    let x := vget s.hnd.rxq q ⟨0, 0, 0, 12, 0, false, []⟩
    if p.hdr.kind ≠ 0x10 ∨ !x.valid ∨ i ≥ x.slots.toNat ∨ p.total.getD p.data.length > 2 ^ x.slotLog2.toNat ∨ s.slotBusy key p.hdr.tag q i then s
    else s.onHnd (fun u => { u with claims := u.claims ++ [⟨key, p.hdr.tag, q, i⟩] })
  | _ => s

/-- R297: a message is refused, or written with its slot's pip raised: the outcome code. A queue that does not stand in an HBM window or a
Suit buffer is answered ADDR, as R265 has it for every remote write. -/
def State.deliver (key : Nat) (tag : BitVec 16) (h : RankHdr) (bs : List Byte) (s : State) : State × Nat :=
  let qi := h.queue.toNat % 64
  let q := vget s.hnd.rxq qi ⟨0, 0, 0, 12, 0, false, []⟩
  let i := h.slot.toNat
  if !q.valid ∨ i ≥ q.slots.toNat ∨ bs.length > 2 ^ q.slotLog2.toNat then (s.hndErr 4, ocMsgBad)
  else if s.slotBusy key tag qi i then (s.hndErr 4, ocMsgBusy)
  else if !(s.remoteReach (q.slotAddr i) bs.length) then (s, ocAddr)
  else
    let s := s.onHnd (fun u => { u with rxq := vmod u.rxq qi (fun q => { q with busy := i :: q.busy }) })
    let s := ((s.writeMem (q.slotAddr i) bs).arrive (q.slotAddr i) bs.length).raiseHeld q.suit.toNat (q.pipBase.toNat + i)
    -- the slot stays busy and its pip up until a LOWER store, whoever has used the bytes (R297, R334)
    (if s.pieceQueue qi then s.takePiece qi h.srcRank.toNat bs else s, ocOk)

/-- The frames of the message table that have begun to come and have not been acted on. -/
def State.msgBegun (s : State) : List (Nat × BitVec 8 × BitVec 16) :=
  s.fab.parts.map (fun x => (x.key, x.kind, x.tag)) ++ s.fab.heldOps.map (fun x => (x.key, x.pkt.hdr.kind, x.pkt.hdr.tag)) ++
    s.hnd.waiting.map (fun x => (x.1, x.2.hdr.kind, x.2.hdr.tag))

/-- R298, R309: a segment of a frame of the message table (MSG, SUSPECT): its message goes on to `act` when all of it has come; one that
finds the table full when it begins is answered MSG_FULL. -/
def State.onMessage (key : Nat) (p : Packet) (act : Packet → State → State) (s : State) : State :=
  let mine (x : Nat × BitVec 8 × BitVec 16) : Bool := x.2.1 == 0x10 || x.2.1 == 0x23
  let known := (replayOf s.fab.msgReplay key p.hdr.tag).isSome || s.msgBegun.contains (key, p.hdr.kind, p.hdr.tag)
  if !known && decide (s.fab.msgReplay.length + (s.msgBegun.filter mine).length ≥ msgTable) then
    if p.off = 0 then (s.hndErr 4).ackRanked p ocMsgFull else s
  else (if known then s else s.claimSlot key p).whole p act

/-- R275, R298: the outcome of a frame of the message table is recorded and acknowledged. -/
def State.tookMsg (key : Nat) (p : Packet) (code : Nat) (s : State) : State :=
  ((s.onFab (fun f => { f with msgReplay := f.msgReplay ++ [⟨key, p.hdr.tag, BitVec.ofNat 8 code, [], s.now⟩] })).onHnd (fun u => { u with
    claims := u.claims.filter (fun c => !(c.key = key && c.tag = p.hdr.tag)) })).ackRanked p code

/-- R277, R298: a whole frame of the message table: answered from the table, refused as lost, or handed on. -/
def State.onceMsg (key : Nat) (p : Packet) (act : State → State) (s : State) : State :=
  match replayOf s.fab.msgReplay key p.hdr.tag with
  | some r => s.ackRanked p r.code.toNat
  | none =>
    if p.hdr.retry ∧ p.hdr.incarnation ≠ s.fab.incarnation ∧ !(s.msgBegun.contains (key, p.hdr.kind, p.hdr.tag)) then
      s.ackRanked p ocStoreUnknown
    else act s

/-- R298, R377: a message is delivered once, and acknowledged; it waits for its slot's memory as a write does. -/
def State.takeMsg (key : Nat) (h : RankHdr) (p : Packet) (s : State) : State :=
  s.onceMsg key p (fun s =>
    let q := vget s.hnd.rxq (h.queue.toNat % 64) ⟨0, 0, 0, 12, 0, false, []⟩
    let a := q.slotAddr h.slot.toNat
    let n := p.data.length
    if q.valid && s.heldAt a n then
      let kept := s.fab.heldOps.any (fun x => x.key == key && x.pkt.hdr.tag == p.hdr.tag)
      let s := if kept then s else s.onFab (fun f => { f with heldOps := f.heldOps ++ [⟨key, p, Fin.ofNat 4 (s.heldDeck a n)⟩] })
      s.ackRanked p ocHeld
    else if q.valid && (s.stagedHit a n || s.shutAt .fdie a n || (s.pieceQueue (h.queue.toNat % 64) && s.pieceWaits (h.queue.toNat % 64) (pieceHdr p.data))) then
      s.waitStaged key p
    else
      let r := s.deliver key p.hdr.tag h p.data
      r.1.tookMsg key p r.2)

/-- A MSG frame arrives (R297, R301). -/
def State.onMsg (p : Packet) (s : State) : State :=
  match p.kh with
  | .rank h =>
    let key := keyRank h.srcRank.toNat
    if p.hdr.kind = 0x10 then s.onRequest p h.srcRank.toNat (State.onMessage key p (State.takeMsg key h)) else s
  | _ => s

/-! ### Messages at the sender (R296, R298) -/

/-- A message goes to a rank's queue and slot; the id of its operation. -/
def State.sendMsg (core : Option (Fin 192)) (rank queue slot : Nat) (bs : List Byte) (addr : Nat) (s : State) : Nat × State :=
  let node := s.nodeOfRank rank
  let (tag, s) := s.takeTag (keyRank rank)
  let hd : Hdr := s.hdrTo 0x10 (s.rackSlot node rank) rank tag
  let kh : RankHdr := { s.rankHdr (BitVec.ofNat 32 rank) node with queue := BitVec.ofNat 8 queue, slot := BitVec.ofNat 16 slot }
  let n := node.getD ⟨0, 0⟩
  let p : Packet := { hdr := hd, kh := .rank kh, data := bs, dest := .node n }
  let (id, s) := s.addOp (newOp .msg core n (rank % 64) rank addr 0 bs.length p)
  (id, (s.onFab (fun f => { f with msgTags := f.msgTags ++ [(keyRank rank, tag)] })).send p)

/-! ### Packets that waited (R291) -/

/-- A packet that waited is handled again; a hand's or a Trick engine's waits on for what it waits for. -/
def State.retryPacket (key : Nat) (p : Packet) (s : State) : State :=
  match p.hdr.kind.toNat with
  | 1 => s.onLoad p
  | 2 | 3 => s.onStore p
  | 4 => s.onAtom p
  | 0x10 => s.onMsg p
  | _ => s.waitStaged key p

/-- R291: the packets that waited run in arrival order; those that still must wait do. -/
def State.releaseWaiting (s : State) : State :=
  let ps := s.hnd.waiting
  ps.foldl (fun s x => s.retryPacket x.1 x.2) (s.onHnd (fun h => { h with waiting := [] }))

end Sys2Proof.Machine
end

