-- ==== Sys2Proof/Machine/HandOps.lean ====
section
/-!
DEFINITION. HandOps.lean: hands (R287-R295, R310): at the issuer, at a target, and when the issuer departs.
-/
namespace Sys2Proof.Machine

open Sys2Proof

/-! ### Wire forms (R288, R310) -/

/-- R310: entries and payloads of an HSTAGE. -/
def stageData (es : List HandEntry) : List Byte :=
  let heads := es.foldl (fun (acc : List Byte × Nat) e =>
    (acc.1 ++ leBytes 1 e.kind.toNat ++ leBytes 1 e.code.toNat ++ leBytes 1 e.fmt.toNat ++ leBytes 1 (bit01 e.fetch) ++ leBytes 2 e.count ++
      leBytes 2 e.payload.length ++ leBytes 8 e.target.toNat ++ leBytes 8 acc.2 ++ leBytes 8 0,
     acc.2 + (pad16 e.payload).length)) ([], 32 * es.length)
  heads.1 ++ joinBytes (es.map (fun e => pad16 e.payload))

/-- R288, R310: entry `i` of a table of entries; its payload stands in `src` at SOURCE. -/
def entryOf (tab : List Byte) (i : Nat) (payload : Nat → Nat → List Byte) : HandEntry :=
  let off := 32 * i
  let target := leAt tab (off + 8) 8
  { idx := i, kind := BitVec.ofNat 8 (leAt tab off 1), code := BitVec.ofNat 8 (leAt tab (off + 1) 1)
    fmt := BitVec.ofNat 5 (leAt tab (off + 2) 1), fetch := (leAt tab (off + 3) 1).testBit 0, count := leAt tab (off + 4) 2
    slot := raSlot target, laddr := raLaddr target, payload := payload (leAt tab (off + 16) 8) (leAt tab (off + 6) 2)
    target := BitVec.ofNat 64 target }

/-! ### The issuer (R290, R292, R295) -/

/-- HAND fold reasons (R292). -/
def foldOverlap : Nat := 1
/-- UNREACHABLE. -/
def foldUnreachable : Nat := 2
/-- CHECK. -/
def foldCheck : Nat := 3
/-- CAPACITY. -/
def foldCapacity : Nat := 4
/-- RESET. -/
def foldReset : Nat := 5

/-- The hand that this node issued under a number. -/
def State.handOut (s : State) (num : BitVec 32) : Option HandOut := s.hnd.out.find? (fun h => h.num = num)

/-- Change a hand that this node issued. -/
def State.onHandOut (num : BitVec 32) (f : HandOut → HandOut) (s : State) : State :=
  s.onHnd (fun x => { x with out := x.out.map (fun h => if h.num = num then f h else h) })

/-- The header that names a hand of this node. -/
def State.myHandHdr (s : State) (num : BitVec 32) : HandHdr := { hand := num, issuer := s.fab.mySlot.setWidth 8 }

/-- R290 step 1: each target gets its entries. -/
def State.stageHand (h : HandOut) (s : State) : State :=
  (List.zip h.slots h.nodes).foldl (fun s sn =>
    let es := h.entries.filter (fun e => e.slot = sn.1)
    s.sendHand 0x08 sn.1 sn.2
      { s.myHandHdr h.num with nent := BitVec.ofNat 8 es.length, slots := h.slots.map (fun x => BitVec.ofNat 8 x) } (stageData es)) s

/-- R290 step 4: the decision goes to every target. -/
def State.decideHand (num : BitVec 32) (showIt : Bool) (reason foldSlot : Nat) (s : State) : State :=
  match s.handOut num with
  | none => s
  | some h =>
    if h.decided.isSome then s
    else
      let s := s.onHandOut num (fun h => { h with decided := some showIt, reason, foldSlot })
      let s := if showIt then s else s.pulse .fdie 0x0606 1
      (List.zip h.slots h.nodes).foldl (fun s sn =>
        if showIt then s.sendHand 0x0A sn.1 sn.2 (s.myHandHdr num) []
        else s.sendHand 0x0B sn.1 sn.2 { s.myHandHdr num with code := 1, reason := BitVec.ofNat 8 reason } []) s

/-- R288: OUTCOME, REASON and FOLD_SLOT in the block's header, and the outcome in G[D]. -/
def State.handOutcome (c : Fin 192) (dreg : Nat) (block outcome reason foldSlot : Nat) (s : State) : State :=
  let s := s.putLocal (block + 1) (leBytes 1 outcome ++ leBytes 1 reason ++ leBytes 1 foldSlot)
  (s.onCore c (fun x => ({ x with stall := none }).setG (Fin.ofNat 32 dreg) (BitVec.ofNat 64 outcome))).retire4 c

/-- R384: the outcome of a hand cannot reach its core or its block now. -/
def State.handShut (s : State) (h : HandOut) : Bool := !h.absorbed && (s.fabricShut h.core || s.busyAt .fdie h.block (2112 + 16 * h.entries.length))

/-- R290 step 6, R295: the hand completes when every target has acknowledged the decision or its acknowledgement is unknown. -/
def State.completeHand (num : BitVec 32) (s : State) : State :=
  match s.handOut num with
  | none => s
  | some h =>
    match h.decided with
    | none => s
    | some shown =>
      if h.slots.all (fun x => h.acks.contains x || h.silent.contains x) && !(s.handShut h) then
        let s := s.onHnd (fun x => { x with out := x.out.filter (fun y => y.num ≠ num) })
        let unknown := shown && !h.silent.isEmpty
        let s := if unknown then s.hndErr 1 else s
        let s := if shown && !unknown && !h.absorbed then
            h.fetched.foldl (fun s ef => s.putLocal (h.block + 2112 + 16 * ef.1) ef.2) s
          else s
        if h.absorbed then s else s.handOutcome h.core h.dreg h.block (if unknown then 2 else if shown then 0 else 1) (if shown then 0 else h.reason)
          (if shown then 0xFF else h.foldSlot)
      else s

/-- R290 step 4: a vote of a slot arrives. -/
def State.voteHand (num : BitVec 32) (slot : Nat) (fold : Bool) (reason : Nat) (s : State) : State :=
  match s.handOut num with
  | none => s
  | some h =>
    if h.decided.isSome then s
    else if fold then s.decideHand num false reason slot
    else
      let votes := if h.votes.contains slot then h.votes else slot :: h.votes
      let s := s.onHandOut num (fun h => { h with votes })
      if h.slots.all (fun x => votes.contains x) then s.decideHand num true 0 0xFF else s

/-- The old values in an HSHOW's acknowledgement: 16 bytes for each fetching entry, in entry order. -/
def fetchedOf (es : List HandEntry) (data : List Byte) : List (Nat × List Byte) :=
  let fs := es.filter (fun e => e.kind = 4 && msFetches e.code.toNat e.fetch)
  (List.zip (upTo fs.length) fs).map (fun ie => (ie.2.idx, slice data (16 * ie.1) 16))

/-! ### A target (R290-R293) -/

/-- The hand held here for an issuer's slot and a number. -/
def State.handIn (s : State) (issuer : Nat) (num : BitVec 32) : Option HandIn := s.hnd.inn.find? (fun h => h.issuer = issuer ∧ h.num = num)

/-- Change a hand held here. -/
def State.onHandIn (issuer : Nat) (num : BitVec 32) (f : HandIn → HandIn) (s : State) : State :=
  s.onHnd (fun x => { x with inn := x.inn.map (fun h => if h.issuer = issuer ∧ h.num = num then f h else h) })

/-- R290 step 2: the check of one entry: an outcome code of R271. -/
def State.entryCheck (s : State) (e : HandEntry) : Nat :=
  let x := s.entryReach e
  if e.kind = 2 then
    if !(s.remoteReach x.1 x.2) then ocAddr else if s.poisonedIn x.1 x.2 then ocPoison else ocOk
  else
    let code := e.code.toNat
    let region := s.aregOf e.laddr
    let z := if msAnchored code then region.elim 16 (fun xr => cellBytes xr.2.fp64Class) else fmtBytes e.fmt.toNat
    let w := s.msWhole code e.laddr e.count z region
    if w ≠ ocOk then w
    else
      ((upTo e.count).map (fun i =>
        s.elemCheck region { code, fmt := e.fmt.toNat, src := [], addr := e.laddr + i * z, flush := false } z)).foldl
          (fun acc st => if st = ocOk then acc else st) ocOk

/-- Payload bytes held for hands here. -/
def State.stagedBytes (s : State) : Nat :=
  (s.hnd.inn.filter HandIn.holds).foldl (fun n h => h.entries.foldl (fun n e => n + e.payload.length) n) 0

/-- Hands held here. -/
def State.stagedHands (s : State) : Nat := (s.hnd.inn.filter HandIn.holds).length

/-- A target votes. -/
def State.sendVote (h : HandIn) (fold : Bool) (reason : Nat) (s : State) : State :=
  s.sendHand 0x09 h.issuer h.issuerNode
    { hand := h.num, issuer := BitVec.ofNat 8 h.issuer, code := BitVec.ofNat 8 (bit01 fold), reason := BitVec.ofNat 8 reason } []

/-- A target stops holding a hand. -/
def State.letGo (h : HandIn) (st : HandState) (s : State) : State :=
  (s.onHandIn h.issuer h.num (fun x => { x with st, asking := [], stuck := false })).releaseWaiting

/-- R290 step 3: a target votes FOLD, and holds the hand no longer. -/
def State.foldVote (h : HandIn) (reason : Nat) (s : State) : State := (s.sendVote h true reason).letGo h .discarded

/-- R292: the other hands held here whose staged bytes meet those of `h`. -/
def State.rivals (s : State) (h : HandIn) : List HandIn :=
  let xs := s.handExtents h
  s.hnd.inn.filter (fun g => g.holds && !(g.issuer = h.issuer && g.num = h.num) && anyOverlap xs (s.handExtents g))

/-- R290 step 2 and 3, R292: a staged hand is checked and the target votes; the outcome of a check that fails is in a record. -/
def State.checkAndVote (h : HandIn) (s : State) : State :=
  let s := h.entries.foldl (fun s e => let x := s.entryReach e; if (s.storeOfExtent x.1 x.2).isSome then s.settle x.1 x.2 else s) s
  let bad := h.entries.filter (fun e => s.entryCheck e != ocOk)
  match bad with
  | e :: _ =>
    let s := s.record { cls := .corrected, block := .fab, code := 0, status := s.entryCheck e, addr := e.laddr,
                        peer := BitVec.ofNat 32 (s.slotRank h.issuer) }
    s.foldVote h foldCheck
  | [] =>
    let rs := s.rivals h
    if rs.isEmpty then (s.onHandIn h.issuer h.num (fun x => { x with st := .voted })).sendVote h false 0
    else
      let s := rs.foldl (fun s g =>
        if g.st = .voted then
          s.sendHand 0x0C g.issuer g.issuerNode
            { hand := g.num, issuer := BitVec.ofNat 8 g.issuer, code := 1, reason := BitVec.ofNat 8 foldOverlap } []
        else s.foldVote g foldOverlap) s
      s.foldVote h foldOverlap

/-- R377, R247, R384: may the target read and write the bytes of a hand now? -/
def State.mayVote (s : State) (h : HandIn) : Bool := !(s.busyAny .fdie (h.entries.map s.entryReach))

/-- R290 step 1: an HSTAGE is taken in. -/
def State.takeStage (p : Packet) (hh : HandHdr) (s : State) : State :=
  let issuer := p.hdr.srcSlot.toNat
  let data := p.data
  let es := (upTo hh.nent.toNat).map (fun i => entryOf data i (fun off n => slice data off n))
  let node := (s.translate issuer).getD ⟨0, 0⟩
  let h : HandIn := { num := hh.hand, issuer := issuer, issuerNode := node, slots := hh.slots.map BitVec.toNat, entries := es, st := .staged
                      asking := [], stuck := false }
  let size := es.foldl (fun n e => n + e.payload.length) 0
  let room := decide (s.stagedHands < 256) && decide (s.stagedBytes + size ≤ 2 ^ 20)
  let s := s.onHnd (fun x => { x with inn := x.inn.filter (fun g => !(g.issuer = issuer && g.num = hh.hand && !g.holds)) ++ [h] })
  if !room then s.foldVote h foldCapacity
  else if s.mayVote h then s.checkAndVote h
  else s

/-- R290 step 5: the entries of a hand are applied in entry order as one step; the old values of the fetching ones. -/
def State.applyHand (h : HandIn) (s : State) : State × List Byte :=
  h.entries.foldl (fun (acc : State × List Byte) (e : HandEntry) =>
    if e.kind = 2 then ((acc.1.writeMem e.laddr e.payload).arrive e.laddr e.payload.length, acc.2)
    else
      let f := acc.1.free
      let (flush, s) := if 6 ≤ e.code.toNat ∧ e.code.toNat ≤ 8 then (f.1.getLsbD 0, f.2) else (false, acc.1)
      let r := s.applyMs (e.req flush)
      (r.1, acc.2 ++ (if msFetches e.code.toNat e.fetch then slice r.2.fetched 0 16 else []))) (s, [])

/-- R290 step 5, R294: a held hand is applied. -/
def State.showHere (h : HandIn) (s : State) : State × List Byte :=
  let r := s.applyHand h
  (r.1.letGo h .applied, r.2)

/-! ### Departed issuers (R294) -/

/-- R310: STATE of an HQUERY answer. -/
def State.handStateCode (s : State) (issuer : Nat) (num : BitVec 32) : Nat :=
  match s.handIn issuer num with
  | none => 0
  | some h => match h.st with
    | .staged => 1
    | .voted => 2
    | .applied => 3
    | .discarded => 4

/-- R294: the answer of a slot to a holder's query. -/
def State.queryAnswer (issuer : Nat) (num : BitVec 32) (slot state : Nat) (s : State) : State :=
  match s.handIn issuer num with
  | none => s
  | some h =>
    if h.st ≠ .voted ∨ !(h.asking.contains slot || h.stuck) then s
    else if state = 3 then (s.showHere h).1
    else if state ≠ 2 then s.letGo h .discarded
    else
      let asking := h.asking.filter (fun x => x ≠ slot)
      if asking.isEmpty ∧ !h.stuck then s.letGo h .discarded
      else s.onHandIn issuer num (fun x => { x with asking })

/-- R294: a holder cannot obtain a target's answer: the bytes stay held. -/
def State.queryLost (issuer : Nat) (num : BitVec 32) (slot : Nat) (s : State) : State :=
  match s.handIn issuer num with
  | none => s
  | some h =>
    if h.st ≠ .voted then s
    else (s.onHandIn issuer num (fun x => { x with asking := x.asking.filter (fun y => y ≠ slot), stuck := true })).hndErr 2

/-- R294: has the decision to show a hand arrived, and does it wait for a channel or link that retrains? -/
def State.showWaits (s : State) (issuer : Nat) (num : BitVec 32) : Bool :=
  s.hnd.waiting.any (fun x => x.2.hdr.kind == 0x0A && (match x.2.kh with
    | .hand hh => hh.hand == num && hh.issuer.toNat == issuer
    | _ => false))

/-- R294: the issuer of a hand held here has departed: a voted hand is asked about at its other targets, unless its decision has arrived, an
unvoted one discarded. -/
def State.orphan (h : HandIn) (s : State) : State :=
  if h.st = .staged then s.letGo h .discarded
  else if h.st = .voted ∧ !(s.showWaits h.issuer h.num) then
    let others := h.slots.filter (fun x => x ≠ s.fab.mySlot.toNat)
    if others.isEmpty then s.letGo h .discarded
    else
      let s := s.onHandIn h.issuer h.num (fun x => { x with asking := others })
      others.foldl (fun s slot => match s.translate slot with
        | some n => s.sendHand 0x0D slot n { hand := h.num, issuer := BitVec.ofNat 8 h.issuer } []
        | none => s.queryLost h.issuer h.num slot) s
  else s

/-- R294: every hand held here whose issuer is a rank that departs. -/
def State.orphans (rank : Nat) (s : State) : State :=
  (s.hnd.inn.filter (fun h => s.slotRank h.issuer = rank)).foldl (fun s h => s.orphan h) s

/-! ### Outcomes of hand packets -/

/-- A hand packet that this node sent is acknowledged. -/
def State.handAck (o : OutOp) (status : Nat) (data : List Byte) (s : State) : State :=
  let s := ((s.dropOp o.id).confirmTo o).flushSends
  match o.pkt.kh with
  | .hand hh =>
    match o.pkt.hdr.kind.toNat with
    | 0x0A | 0x0B =>
      let s := s.onHandOut hh.hand (fun h => { h with
        acks := o.slot :: h.acks
        fetched := if o.pkt.hdr.kind = 0x0A then h.fetched ++ fetchedOf (h.entries.filter (fun e => e.slot = o.slot)) data else h.fetched })
      s.completeHand hh.hand
    | 0x0D => if status = ocOk then s.queryAnswer hh.issuer.toNat hh.hand o.slot (leAt data 5 1) else s
    | _ => s
  | _ => s

/-- A hand packet that this node sent becomes unknown (R290, R294, R295). -/
def State.handUnknown (o : OutOp) (why : UnkReason) (s : State) : State :=
  let s := s.noteUnknown o why
  match o.pkt.kh with
  | .hand hh =>
    match o.pkt.hdr.kind.toNat with
    | 0x08 => s.decideHand hh.hand false foldUnreachable 0xFF
    | 0x0A | 0x0B => (s.onHandOut hh.hand (fun h => { h with silent := o.slot :: h.silent })).completeHand hh.hand
    | 0x0D => s.queryLost hh.issuer.toNat hh.hand o.slot
    | _ => s
  | _ => s

end Sys2Proof.Machine
end

