-- ==== Sys2Proof/Machine/TrkOps.lean ====
section
/-!
DEFINITION. TrkOps.lean: the running of a collective at this member (R322-R345): anchor pass, sums, chunks, credits, rounding, landing,
completion and abort.
-/
namespace Sys2Proof.Machine

open Sys2Proof

/-! ### Collectives by slot and instance -/

/-- The collective of a slot and instance. -/
def State.col (s : State) (slot : Nat) (inst : BitVec 32) : Option Collective :=
  s.trk.running.find? (fun c => c.progSlot = slot ∧ c.inst = inst)

/-- Change a collective. -/
def State.onCol (slot : Nat) (inst : BitVec 32) (f : Collective → Collective) (s : State) : State :=
  s.onTrk (fun t => { t with running := t.running.map (fun c => if c.progSlot = slot ∧ c.inst = inst then f c else c) })

/-- The rank of a member position. -/
def Collective.rankOf (c : Collective) (pos : Nat) : Nat := (c.members[pos]?).elim 0 (·.rank)

/-- The position of a rank. -/
def Collective.posOf (c : Collective) (rank : Nat) : Option Nat := (upTo c.members.length).find? (fun p => c.rankOf p = rank)

/-! ### The memory of a collective (R317, R323) -/

/-- R340: the input extents of this member. -/
def inputExtents (m : List Byte) (me : Nat) : List (Nat × Nat) :=
  if tReduce m then (tDecks m).map (fun d => ((tDeck m d).inAddr, tCount m * tInBytes m))
  else
    let a := (tDeck m (tDeck0 m)).inAddr
    match tKind m with
    | 0x11 | 0x14 => [(a, tCount m)]
    | 0x12 => if me = tRoot m then [(a, tCount m)] else []
    | 0x13 => if me = tRoot m then [(a, tRanks m * tCount m)] else []
    | _ => [(a, tRanks m * tCount m)]

/-- The levels that a program uses: those whose ALG is not NONE (R317). -/
def usedLevels (m : List Byte) : List Nat := (upTo 4).filter (fun l => (tLevel m l).alg != 0)

/-- The staging extents of the levels in use. -/
def stageExtents (m : List Byte) : List (Nat × Nat) := (usedLevels m).map (fun l => ((tLevel m l).stageAddr, (tLevel m l).stageBytes))

/-- R323: bytes from the first to the last of an output of a member: of a placed contribution its last segment, or the whole one before it,
reaches furthest. -/
def outSpan (m : List Byte) (me : Nat) : Nat :=
  let n := tRanks m
  let segs := ceilDiv (tCount m) (tSeg m)
  let last := (segs - 1) * tStrideOut m + (tCount m - 1) % tSeg m + 1
  let one := if tSeg m = 0 then tCount m else if segs < 2 then last else max last ((segs - 2) * tStrideOut m + tSeg m)
  let gap := if tSeg m = 0 then tCount m else tSeg m
  match tKind m with
  | 1 | 2 | 3 => let o := tOwnOut m me; (o.2 - o.1) * tOutBytes m
  | 0x11 | 0x15 => (n - 1) * gap + one
  | 0x14 => if me = tRoot m then (n - 1) * gap + one else 0
  | _ => one

/-- The output extents of a member. -/
def outExtents (m : List Byte) (me : Nat) : List (Nat × Nat) := (tDecks m).map (fun d => ((tDeck m d).outAddr, outSpan m me))

/-- The memory that a collective reads and writes here. -/
def Collective.extents (c : Collective) : List (Nat × Nat) := inputExtents c.image c.me ++ outExtents c.image c.me ++ stageExtents c.image

/-- R14: the Deck-to-Deck links that the L0 traffic of a program uses. -/
def levelLinks (m : List Byte) : List Nat := (pairsAll (tDecks m)).map (fun x => deckLink x.1 x.2)

/-- R14, R247, R377, R384: does the memory of a collective wait for a reset or a retrain, or its L0 traffic for a link that retrains? -/
def State.trkBusy (s : State) (c : Collective) : Bool :=
  (!s.resets.isEmpty || s.retrains) && (s.busyAny .fdie c.extents || (levelLinks c.image).any s.linkShut)

/-! ### Frames (R312) -/

/-- Send a frame of a collective to a member, or by a detour (R336). Beyond the rack a frame names its ends by rank only (R285, R309). -/
def State.sendTrk (c : Collective) (h : TrkHdr) (pos code : Nat) (data : List Byte) (s : State) (detour : Bool := false) : State :=
  let rank := c.rankOf pos
  let node := s.nodeOfRank rank
  let hd : Hdr := { s.hdrTo 0x18 (s.rackSlot node rank) rank 0 with code := BitVec.ofNat 8 code }
  let kh : TrkHdr := { h with srcRank := s.job.rank, inst := c.inst, progSlot := BitVec.ofNat 8 c.progSlot }
  let n := node.getD ⟨0, 0⟩
  s.offerTrk ⟨{ hdr := hd, kh := .trick kh, data := data, dest := if detour then .detour n else .node n }, n, rank⟩

/-- A Trick header: frame, level, Deck, step, count and index. -/
def trkHdr (frame level deck step count index : Nat) : TrkHdr :=
  { srcRank := 0, inst := 0, progSlot := 0, frame := BitVec.ofNat 8 frame, level := BitVec.ofNat 8 level, deck := BitVec.ofNat 8 deck
    step := BitVec.ofNat 16 step, count := BitVec.ofNat 16 count, index := BitVec.ofNat 64 index }

/-- The header that names a chunk (CHUNK and RESEND frames). -/
def TrkChunk.hdr (frame : Nat) (x : TrkChunk) : TrkHdr := trkHdr frame x.level x.deck x.step 0 x.idx

/-- Does an operation carry a frame of a collective? -/
def OutOp.ofCol (c : Collective) (o : OutOp) : Bool :=
  match o.kind, o.pkt.kh with
  | .trick, .trick h => h.progSlot.toNat == c.progSlot && h.inst == c.inst
  | _, _ => false

/-- Does an operation carry a chunk? -/
def OutOp.isChunk (x : TrkChunk) (rank : Nat) (o : OutOp) : Bool :=
  match o.pkt.kh with
  | .trick h => h.frame == 0 && h.deck.toNat == x.deck && h.step.toNat == x.step && h.index.toNat == x.idx && o.rank == rank
  | _ => false

/-! ### Completion (R339, R344, R345) -/

/-- TRK_ERR bits and classes of the failing statuses. -/
def trkErrOf (status : Nat) : Option (Nat × ErrClass) :=
  match status with
  | 0x20 => some (0, .corrected)
  | 0x21 => some (1, .corrected)
  | 0x23 => some (2, .contained)
  | 0x24 => some (3, .contained)
  | 0x12 => some (4, .corrected)
  | _ => none

/-- R327, R331, R340, R346: the error bit of a status, and its record. -/
def State.trkErr (status : Nat) (s : State) : State :=
  match trkErrOf status with
  | none => s
  | some (i, cls) =>
    let s := s.onTrk (fun t => { t with err := t.err ||| BitVec.ofNat 5 (2 ^ i) })
    s.record { cls, block := .trk, code := i, status }

/-- R344: the completion record. -/
def Collective.record_ (c : Collective) (now : BitVec 64) : List Byte :=
  leBytes 4 c.tag.toNat ++ leBytes 2 c.status.toNat ++
  leBytes 2 ((if c.status = 0 then AFlags.bits c.flags % 16 else 0) + 16 * bit01 c.late + 32 * bit01 c.detoured) ++
  leBytes 8 (c.start.getD now).toNat ++ leBytes 8 now.toNat ++ leBytes 4 c.namedRank.toNat ++ leBytes 4 c.inst.toNat

/-- Does a frame belong to an instance? -/
def Packet.ofInst (p : Packet) (slot : Nat) (inst : BitVec 32) : Bool :=
  match p.kh with
  | .trick h => h.progSlot.toNat == slot && h.inst == inst
  | _ => false

/-- R112, R344: the record of a finished collective is written, or held for ring space; then DONE_PIP. -/
def State.trkWriteDone (slot : Nat) (inst : BitVec 32) (s : State) : State :=
  match s.col slot inst with
  | none => s
  | some c =>
    if s.trk.cq.full then s.onCol slot inst (fun c => { c with held := true })
    else
      let a := s.trk.cq.slot
      let s := if (s.storeOfExtent a 32).any Store.shared then s.writeMem a (c.record_ s.stamp) else s
      let s := if c.status = 0 ∧ tCpip c.image then s.raiseHeld (tDoneSuit c.image) (tDonePip c.image) else s
      s.onTrk (fun t => { t with
        running := dropFirst (fun x => x.progSlot = slot && x.inst = inst) t.running
        done := (slot % 64, inst) :: t.done
        early := t.early.filter (fun p => !(p.ofInst (slot % 64) inst))
        stale := satAdd t.stale (t.early.filter (fun p => p.ofInst (slot % 64) inst)).length
        cq := { t.cq with tail := t.cq.tail + 1 } })

/-- A collective ends with a status and the rank it names: other members are told of a failure (R339), partners that fail are reported
(R388). -/
def State.trkFinish (slot : Nat) (inst : BitVec 32) (status : Nat) (named : BitVec 32) (s : State) : State :=
  match s.col slot inst with
  | none => s
  | some c =>
    if c.phase = .finished then s
    else
      let s := s.onFab (fun f => { f with ops := f.ops.filter (fun o => !(o.ofCol c && o.st == .outstanding)) })
      let s := s.onTrk (fun t => { t with unsent := t.unsent.filter (fun x => !(x.pkt.ofInst slot inst)) })
      let s := s.trkErr status
      let s := if status ≠ 0 then
          (upTo c.members.length).foldl (fun s p => if p = c.me then s else s.sendTrk c (trkHdr 4 (pairLevel c.members c.me p) 0 0 status 0) p 0 []) s
        else s
      let s := if status = 0x20 then s.reportSuspect named.toNat 2 else if status = 0x21 then s.reportSuspect named.toNat 4 else s
      let s := s.onCol slot inst (fun c => { c with phase := .finished, status := BitVec.ofNat 16 status, namedRank := named })
      s.trkWriteDone slot inst

/-- No rank is named. -/
def noRank : BitVec 32 := 0xFFFFFFFF

/-! ### Inputs and outputs (R323) -/

/-- The bits of an input element of Deck `d`. -/
def State.trkElem (s : State) (m : List Byte) (d e : Nat) : Nat := s.readNat ((tDeck m d).inAddr + tInBytes m * e) (tInBytes m)

/-- R56: an input element's value under the recorded FLUSH, and whether it was flushed. -/
def trkDecode (m : List Byte) (flush : Bool) (bits : Nat) : FVal × Bool := ((tFmtIn m).getD .b64).decode flush bits

/-- This member's own contributions to an element, Deck by Deck. -/
def State.trkOwn (s : State) (c : Collective) (e : Nat) : List (FVal × Bool) :=
  (tDecks c.image).map (fun d => trkDecode c.image c.flush (s.trkElem c.image d e))

/-- R325: the maxima of this member's own elements, block by block, over its Decks. -/
def State.trkMaxima (s : State) (c : Collective) : List (Option Int) :=
  let n := tCount c.image
  (upTo (ceilDiv n anchorBlock)).map (fun b =>
    maxE (((upTo (min anchorBlock (n - b * anchorBlock))).map (fun i => (s.trkOwn c (b * anchorBlock + i)).map (·.1))).flatten))

/-- R325: the anchor of an element's block. -/
def Collective.anchor (c : Collective) (e : Nat) : Int :=
  match c.maxima.getD (e / anchorBlock) none with
  | some x => x + 1
  | none => 0

/-- R332: bytes of a chunk in the wire form of its level, for the staging area. -/
def stageUnit (m : List Byte) (level : Nat) : Nat :=
  let n := (tLevel m level).chunk
  if !(tReduce m) then n + 8
  else if tOp m = 0 then n * sumBytes (tWide m)
  else n * tInBytes m + 8

/-- R317, R332: bytes and chunk places of a staging area; at L0 of the part of one Deck. -/
def stageArea (m : List Byte) (level : Nat) : Nat × Nat :=
  let n := (tLevel m level).stageBytes
  let n := if level = 0 then n / 4 else n
  (n, n / max (stageUnit m level) 1)

/-- R317, R332: an arriving chunk stands in a free place of its level's staging area, at L0 in the part of its Deck; which place is open,
a free value (log entry 6). -/
def State.stageAt (m : List Byte) (level deck : Nat) (bs : List Byte) (s : State) : State :=
  let (f, s) := s.free
  let a := stageArea m level
  s.writeMem ((tLevel m level).stageAddr + (if level = 0 then deck * a.1 else 0) + f.toNat % max a.2 1 * stageUnit m level) bs

/-- R315, R332: the reduce phase at L0 for elements [lo, hi): chunk by chunk, each Deck's partial results go into the staging part of the
Deck that adds them. -/
def State.deckPass {α : Type} (m : List Byte) (lo hi : Nat) (merge : α → α → α) (bytes : Nat → Nat → Nat → List α → List Byte)
    (own : List (Nat × List α)) (s : State) : State :=
  ((deckXfers m false).foldl (fun acc t =>
    let a := max lo t.lo
    (cutRange (tLevel m 0).chunk 0 (hi - a) a (min hi t.hi)).foldl (fun (acc : State × List (Nat × List α)) r =>
      let cut (xs : List α) : List α := (xs.drop (r.1 - lo)).take (r.2 - r.1)
      let v := cut ((acc.2.find? (fun x => x.1 = t.src)).elim [] (·.2))
      (acc.1.stageAt m 0 t.dst (bytes t.src r.1 r.2 v),
       acc.2.map (fun x => if x.1 = t.dst then
         (x.1, x.2.take (r.1 - lo) ++ List.zipWith merge (cut x.2) v ++ x.2.drop (r.2 - lo)) else x))) acc) (s, own)).1

/-- R332: the distribute phase at L0: each Deck that takes elements, or bytes, of [lo, hi) gets them by its staging part. -/
def State.deckSpread (m : List Byte) (lo hi : Nat) (bytes : Nat → Nat → List Byte) (s : State) : State :=
  (deckXfers m true).foldl (fun s t =>
    let a := max lo t.lo
    (cutRange (tLevel m 0).chunk 0 (hi - a) a (min hi t.hi)).foldl (fun s r => s.stageAt m 0 t.dst (withCrc (bytes r.1 r.2))) s) s

/-- The bytes of elements of a Deck's input. -/
def State.deckInput (s : State) (m : List Byte) (d lo hi : Nat) : List Byte := s.readMem ((tDeck m d).inAddr + tInBytes m * lo) (tInBytes m * (hi - lo))

/-- R327: do the limbs of the sums of two lists of integers, element by element, satisfy the residue identity? -/
def sumsGood (m : List Byte) (xs ys : List ASum) : Bool :=
  let k := sumLimbs (tWide m)
  (List.zip xs ys).all (fun xy => limbsGood k (ofSigned (64 * k) xy.1.s) (ofSigned (64 * k) xy.2.s))

/-- R327: the same of the addition of several lists, one after another. -/
def addsGood (m : List Byte) (parts : List (List ASum)) : Bool :=
  ((parts.drop 1).foldl (fun (acc : Bool × List ASum) p => (acc.1 && sumsGood m acc.2 p, List.zipWith (ASum.merge (tWindow m)) acc.2 p))
    (true, parts.headD [])).1

/-- R327: an addition fails the residue identity: it is recomputed twice, and the collective ends. -/
def State.trkAddFails (c : Collective) (s : State) : State :=
  (s.onTrk (fun t => { t with residueRetry := satAdd t.residueRetry 2 })).trkFinish c.progSlot c.inst 0x23 noRank

/-- R326: the sums of this member's own contributions to the elements of an anchor group, which its Decks add at L0; a poisoned transfer
among them ends the collective (R340). -/
def State.trkForm (c : Collective) (g : Nat) (s : State) : State :=
  let m := c.image
  let lo := g * anchorGroup
  let hi := min (tCount m) (lo + anchorGroup)
  let ins := (tDecks m).map (fun d => ((tDeck m d).inAddr + tInBytes m * lo, tInBytes m * (hi - lo)))
  let s := ins.foldl (fun s x => s.settle x.1 x.2) s
  if ins.any (fun x => s.poisonedIn x.1 x.2) then s.trkFinish c.progSlot c.inst 0x12 noRank
  else
    let own (d : Nat) : List ASum := (upTo (hi - lo)).map (fun i =>
      ASum.term (tWindow m) (c.anchor (lo + i)) {} (trkDecode m c.flush (s.trkElem m d (lo + i))).1)
    let merge := ASum.merge (tWindow m)
    let bytes (d a b : Nat) (v : List ASum) : List Byte :=
      if v.all (fun x => x.n ≤ 1) then withCrc (s.deckInput m d a b) else joinBytes (v.map (sumRecord (tWide m)))
    let parts := (tDecks m).map own
    let total := (parts.drop 1).foldl (List.zipWith merge) (parts.headD [])
    let held := (upTo (hi - lo)).map (fun i => c.sums.getD (lo + i) {})
    if !(addsGood m parts && sumsGood m held total) then s.trkAddFails c
    else (s.deckPass m lo hi merge bytes (List.zip (tDecks m) parts)).onCol c.progSlot c.inst (fun x => { x with
      formed := g :: x.formed
      sums := (List.zip (upTo x.sums.length) x.sums).map (fun ea => if lo ≤ ea.1 ∧ ea.1 < hi then merge ea.2 (total.getD (ea.1 - lo) {}) else ea.2)
      flushes := (List.zip (upTo x.flushes.length) x.flushes).map (fun ef =>
        ef.2 || (decide (lo ≤ ef.1) && decide (ef.1 < hi) && (s.trkOwn c ef.1).any (·.2))) })

/-- R329: combine two values of a MAX or MIN. -/
def trkCombine (m : List Byte) (a b : FVal) : FVal := if tOp m = 1 then fMax a b else fMin a b

/-- Values of a MAX or MIN in raw form (R329). -/
def rawVals (m : List Byte) (vs : List FVal) : List Byte :=
  joinBytes (vs.map (fun v => leBytes (tInBytes m) ((((tFmtIn m).getD .b64).encode .rne false v).1)))

/-- R329: the values of this member's own contributions, which its Decks combine at L0. -/
def State.trkVals (c : Collective) (s : State) : State :=
  let m := c.image
  let es := upTo (tCount m)
  let parts := (tDecks m).map (fun d => es.map (fun e => (trkDecode m c.flush (s.trkElem m d e)).1))
  let total := (parts.drop 1).foldl (List.zipWith (trkCombine m)) (parts.headD [])
  let flushes := es.map (fun e => (s.trkOwn c e).any (·.2))
  (s.deckPass m 0 (tCount m) (trkCombine m) (fun _ _ _ v => withCrc (rawVals m v)) (List.zip (tDecks m) parts)).onCol c.progSlot c.inst
    (fun x => { x with vals := total, flushes })

/-- R323: where byte `i` of the contribution placed for `k` stands, from OUT_ADDR. -/
def placeOff (m : List Byte) (k i : Nat) : Nat :=
  if tSeg m = 0 then k * tCount m + i else k * tSeg m + i / tSeg m * tStrideOut m + i % tSeg m

/-- R323: place bytes of a contribution at every Deck. -/
def State.placeBytes (m : List Byte) (k lo : Nat) (bs : List Byte) (s : State) : State :=
  (tDecks m).foldl (fun s d =>
    let a := (tDeck m d).outAddr
    if tSeg m = 0 then (s.writeMem (a + placeOff m k lo) bs).arrive (a + placeOff m k lo) bs.length
    else (List.zip (upTo bs.length) bs).foldl (fun s ib => (s.writeMem (a + placeOff m k (lo + ib.1)) [ib.2]).arrive (a + placeOff m k (lo + ib.1)) 1) s) s

/-- R323: write a rounded element of this member's output at every Deck. -/
def State.writeOut (c : Collective) (e bits : Nat) (s : State) : State :=
  let own := tOwnOut c.image c.me
  if own.1 ≤ e ∧ e < own.2 then
    (tDecks c.image).foldl (fun s d =>
      let a := (tDeck c.image d).outAddr + tOutBytes c.image * (e - own.1)
      (s.writeMem a (leBytes (tOutBytes c.image) bits)).arrive a (tOutBytes c.image)) s
  else s

/-- An element's rounded value is here: it is kept, written to this member's output, and its flags count there (R328). -/
def State.trkPut (slot : Nat) (inst : BitVec 32) (e bits : Nat) (fl : AFlags) (s : State) : State :=
  match s.col slot inst with
  | none => s
  | some c =>
    let own := tOwnOut c.image c.me
    let mine := decide (own.1 ≤ e) && decide (e < own.2)
    (s.writeOut c e bits).onCol slot inst (fun x => { x with
      rounded := x.rounded.set e (some (bits, fl)), flags := if mine then x.flags.or fl else x.flags })

/-- R328, R329: an element's complete sum or value in FMT_OUT, with its flags. -/
def State.trkRound (s : State) (c : Collective) (e : Nat) : Nat × AFlags :=
  let f := (tFmtOut c.image).getD .b64
  let rnd := rndFor s.eng.key (tRmode c.image == 1) (tStream c.image) e 0
  let operands : AFlags := { flushed := c.flushes.getD e false }
  if c.isSum then
    let x := c.sums.getD e {}
    let r := f.encode rnd c.flush (x.value (tWindow c.image) (c.anchor e))
    (r.1, (r.2.or { windowLoss := x.wl }).or operands)
  else
    let r := f.encode rnd c.flush (c.vals.getD e .zero)
    (r.1, r.2.or operands)

/-! ### The anchor pass (R325) -/

/-- R325: what a member sends next of a frame (2 MAXIMA, 3 READY) for an anchor group, once it may begin: (level, step, positions); and
whether it holds the frame from every member. -/
def Collective.exchange (c : Collective) (f g : Nat) (mayBegin : Bool) : List (Nat × Nat × List Nat) × Bool :=
  let racks := rackGroups c.members
  let rack := (racks.find? (fun ts => ts.any (fun t => t.contains c.me))).getD []
  let tray := (rack.find? (fun t => t.contains c.me)).getD []
  let lead := tray.headD 0
  let rackLead := (rack.headD []).headD 0
  let l2 := decide (rack.length > 1)
  let l3 := decide (racks.length > 1)
  let peers := tray.filter (fun p => p ≠ c.me)
  let others2 := (rack.map (fun t => t.headD 0)).filter (fun p => p ≠ c.me)
  let others3 := (racks.map (fun ts => (ts.headD []).headD 0)).filter (fun p => p ≠ c.me)
  let has (step level pos : Nat) : Bool := c.marks.contains ⟨f, step, level, g, pos⟩
  let all (step level : Nat) (ps : List Nat) : Bool := ps.all (has step level)
  let isLead := lead == c.me
  let isRackLead := rackLead == c.me
  let trayDone := mayBegin && all 0 1 peers
  let rackDone := trayDone && (!l2 || (isLead && all 0 2 others2))
  let top := rackDone && (!l3 || (isRackLead && all 0 3 others3))
  let final :=
    if !l2 && !l3 then trayDone
    else if isRackLead then top
    else if isLead then (if l3 then rackDone && has 1 2 rackLead else rackDone)
    else trayDone && has 1 1 lead
  let out (cond : Bool) (step level : Nat) (ps : List Nat) : List (Nat × Nat × List Nat) :=
    if cond && !has step level c.me then [(level, step, ps)] else []
  (out mayBegin 0 1 peers ++ out (trayDone && isLead && l2) 0 2 others2 ++ out (rackDone && isRackLead && l3) 0 3 others3 ++
    out (final && isRackLead && l3) 1 2 others2 ++ out (final && isLead && (l2 || l3)) 1 1 peers, final)

/-- R325: the data of a MAXIMA frame. -/
def Collective.maximaData (c : Collective) (g : Nat) : List Byte :=
  let per := anchorGroup / anchorBlock
  joinBytes (((c.maxima.drop (g * per)).take per).map (fun m => leBytes 2 (match m with
    | none => 0x8000
    | some x => ofSigned 16 x)))

/-- Send the marks that are due of a frame for a group. -/
def State.trkExchange (c : Collective) (f g : Nat) (mayBegin : Bool) (s : State) : State :=
  (c.exchange f g mayBegin).1.foldl (fun s x =>
    let data := if f = 2 then c.maximaData g else []
    let s := x.2.2.foldl (fun s p => s.sendTrk c (trkHdr f x.1 0 x.2.1 0 g) p 0 data) s
    s.onCol c.progSlot c.inst (fun y => { y with marks := ⟨f, x.2.1, x.1, g, c.me⟩ :: y.marks })) s

/-- R325: the anchor groups whose anchor pass may run: at most 8 ahead of the integer pass, which the groups have started whose terms are
formed. -/
def Collective.window (c : Collective) : Nat := min c.groups (((upTo c.groups).takeWhile c.formed.contains).length + 8)

/-- R325: the anchor pass of one group goes as far as it can, and its integer pass starts when every member is ready. -/
def State.trkAnchor (slot : Nat) (inst : BitVec 32) (g : Nat) (s : State) : State :=
  let step (s : State) : State :=
    match s.col slot inst with
    | none => s
    | some c =>
      let s := s.trkExchange c 2 g true
      match s.col slot inst with
      | none => s
      | some c => s.trkExchange c 3 g (c.exchange 2 g true).2
  let s := step (step (step s))
  match s.col slot inst with
  | none => s
  | some c => if s.pwr.slotOn && (c.exchange 3 g (c.exchange 2 g true).2).2 && !c.formed.contains g then s.trkForm c g else s

/-! ### Chunks (R326, R330-R332, R340) -/

/-- Does the chunk carry a single contribution (R326)? -/
def Collective.single (c : Collective) (x : TrkChunk) : Bool :=
  (tDecks c.image).length == 1 && c.plan.all (fun y => !(y.dst = c.me && !y.dist && meets y.lo y.hi x.lo x.hi &&
    (decide (y.level < x.level) || (y.level == x.level && decide (y.step < x.step)))))

/-- Flags in the order of R344. -/
def flagsOf (b : Nat) : AFlags :=
  { inexact := b.testBit 0, windowLoss := b.testBit 1, flushed := b.testBit 2, resultOvf := b.testBit 3 }

/-- R323: where the part of this member's contribution that a taker gets begins. -/
def partAddr (m : List Byte) (taker : Nat) : Nat :=
  (tDeck m (tDeck0 m)).inAddr + (if tKind m = 0x13 ∨ tKind m = 0x15 then taker * tCount m else 0)

/-- The memory that a chunk is read from at its sender. -/
def Collective.chunkReach (c : Collective) (x : TrkChunk) : Option (Nat × Nat) :=
  let m := c.image
  if !(tReduce m) then (if x.con = c.me then some (partAddr m (x.taker.getD 0) + x.lo, x.hi - x.lo) else none)
  else if !x.dist && c.isSum && c.single x then some ((tDeck m (tDeck0 m)).inAddr + tInBytes m * x.lo, tInBytes m * (x.hi - x.lo))
  else none

/-- R332: the bytes of a contribution that a chunk passes on. -/
def Collective.relayed (c : Collective) (x : TrkChunk) : List Byte :=
  let ps := (c.relay.filter (fun y => y.1.con = x.con && y.1.taker = x.taker)).map (fun y => (y.1.lo, y.2))
  (piecesAt ps (ps.length + 1) x.lo (x.hi - x.lo)).getD []

/-- The data of a chunk, and the flags that it carries (R326, R328, R330): of partial results whether an operand of one was flushed, which R63
has the member that rounds report (log entry 13). -/
def State.chunkData (s : State) (c : Collective) (x : TrkChunk) : List Byte × Nat :=
  let m := c.image
  match c.chunkReach x with
  | some r => (withCrc (s.readMem r.1 r.2), 0)
  | none =>
    if !(tReduce m) then (withCrc (c.relayed x), 0)
    else if x.dist then
      let es := (c.rounded.drop x.lo).take (x.hi - x.lo)
      (withCrc (joinBytes (es.map (fun e => leBytes (tOutBytes m) ((e.getD (0, {})).1)))),
        AFlags.bits (AFlags.all (es.map (fun e => (e.getD (0, {})).2))) % 16)
    else
      let flushed := AFlags.bits { flushed := ((c.flushes.drop x.lo).take (x.hi - x.lo)).any id } % 16
      if !c.isSum then (withCrc (rawVals m ((c.vals.drop x.lo).take (x.hi - x.lo))), flushed)
      else (joinBytes (((c.sums.drop x.lo).take (x.hi - x.lo)).map (sumRecord (tWide m))), flushed)

/-- Change a count of (level, position). -/
def countPut (level pos : Nat) (f : Nat → Nat) (xs : List (Nat × Nat × Nat)) : List (Nat × Nat × Nat) :=
  let old := (xs.find? (fun x => x.1 = level ∧ x.2.1 = pos)).elim 0 (·.2.2)
  (level, pos, f old) :: xs.filter (fun x => !(x.1 = level && x.2.1 = pos))

/-- Send a chunk, at the level whose transport carries it; one read from a poisoned transfer ends the collective (R340). -/
def State.sendChunk (c : Collective) (x : TrkChunk) (level : Nat) (s : State) : State :=
  let r := (c.chunkReach x).getD (0, 0)
  let s := if r.2 = 0 then s else s.settle r.1 r.2
  if r.2 ≠ 0 ∧ s.poisonedIn r.1 r.2 then s.trkFinish c.progSlot c.inst 0x12 noRank
  else
    let d := s.chunkData c x
    s.sendTrk c { x.hdr 0 with level := BitVec.ofNat 8 level } x.dst d.2 d.1 (level != x.level)

/-- R332: the chunks that are complete and hold credit are sent, in order (`fuel` of them at most). -/
def State.trkSend (slot : Nat) (inst : BitVec 32) : Nat → State → State
  | 0, s => s
  | n + 1, s =>
    match s.col slot inst with
    | none => s
    | some c =>
      match c.sendable.find? (fun x => c.credit x.level x.dst > 0) with
      | none => s
      | some x =>
        let s := s.onCol slot inst (fun y => { y with sent := x :: y.sent, credits := countPut x.level x.dst (fun n => n - 1) y.credits })
        trkSend slot inst n (s.sendChunk c x x.level)

/-! ### Credits (R332) -/

/-- Chunks still to come from a position at a level. -/
def Collective.toCome (c : Collective) (level pos : Nat) : Nat :=
  (c.plan.filter (fun x => x.dst = c.me && x.level = level && x.src = pos && !c.got.contains x)).length

/-- Credits granted and not used. -/
def Collective.grantedTo (c : Collective) (level pos : Nat) : Nat :=
  (c.granted.find? (fun x => x.1 = level ∧ x.2.1 = pos)).elim 0 (·.2.2)

/-- The next free place of a level goes to the member that has chunks to send beyond its credits and holds fewest credits. -/
def Collective.nextGrant (c : Collective) (level : Nat) : Option Nat :=
  ((upTo c.members.length).filter (fun p => c.toCome level p > c.grantedTo level p)).foldl (fun b p => match b with
    | none => some p
    | some q => if c.grantedTo level p < c.grantedTo level q then some p else some q) none

/-- R332: free chunk places of a level are granted (`fuel` of them at most). -/
def Collective.grantPlaces (level : Nat) : Nat → Collective → Collective
  | 0, c => c
  | n + 1, c =>
    let used := (c.granted.filter (fun x => x.1 = level)).foldl (fun n x => n + x.2.2) 0
    if used ≥ (stageArea c.image level).2 then c
    else match c.nextGrant level with
      | none => c
      | some p => grantPlaces level n { c with granted := countPut level p (· + 1) c.granted }

/-- R332: grant credits at a level and tell the senders. -/
def State.trkGrant (slot : Nat) (inst : BitVec 32) (level : Nat) (s : State) : State :=
  match s.col slot inst with
  | none => s
  | some c =>
    let c' := c.grantPlaces level c.plan.length
    let s := s.onCol slot inst (fun x => { x with granted := c'.granted })
    (upTo c.members.length).foldl (fun s p =>
      let n := c'.grantedTo level p - c.grantedTo level p
      if n = 0 then s else s.sendTrk c (trkHdr 1 level 0 0 n 0) p 0 []) s

/-! ### Landing (R335) -/

/-- R335: is every byte of a landing unit final at this member? -/
def Collective.unitFinal (c : Collective) (u : Nat) : Bool :=
  let m := c.image
  if tReduce m then
    let own := tOwnOut m c.me
    let lo := own.1 + u * tLand m
    let hi := min own.2 (lo + tLand m)
    decide (lo < hi) && c.roundedRange lo hi
  else if tPerK m then
    if !(moves m u c.me) then false
    else u == c.me || c.plan.all (fun x => !(x.dst = c.me && x.con = u && x.takenBy c.me) || c.got.contains x)
  else
    let root := tRoot m
    let lo := u * tLand m
    let hi := min (tCount m) (lo + tLand m)
    decide (lo < hi) && (root == c.me || c.plan.all (fun x => !(x.dst = c.me && x.takenBy c.me && meets x.lo x.hi lo hi) || c.got.contains x))

/-- R335: the landing pip of a unit rises on every selected board of every Deck. -/
def State.raiseLanding (m : List Byte) (u : Nat) (s : State) : State :=
  (tDecks m).foldl (fun s d =>
    (onesOf 4 (tDeck m d).suits).foldl (fun s q => s.raiseHeld (4 * d + q) ((tDeck m d).pipBase + u)) s) s

/-- R332: the bytes of a landing unit go to the Decks of the node at L0. -/
def State.spreadUnit (c : Collective) (u : Nat) (s : State) : State :=
  let m := c.image
  if tReduce m then
    let own := tOwnOut m c.me
    s.deckSpread m (own.1 + u * tLand m) (min own.2 (own.1 + u * tLand m + tLand m)) (fun a b =>
      joinBytes (((c.rounded.drop a).take (b - a)).map (fun e => leBytes (tOutBytes m) ((e.getD (0, {})).1))))
  else
    let k := if tPerK m then u else 0
    let lo := if tPerK m then 0 else u * tLand m
    let hi := if tPerK m then tCount m else min (tCount m) (lo + tLand m)
    let out := (tDeck m (tDeck0 m)).outAddr
    s.deckSpread m lo hi (fun a b => (upTo (b - a)).map (fun i => s.mem.get (s.keyOf (out + placeOff m k (a + i)))))

/-- R335: the pips of the landing units that have become final. -/
def State.trkLand (slot : Nat) (inst : BitVec 32) (s : State) : State :=
  match s.col slot inst with
  | none => s
  | some c =>
    let us := (upTo (tUnits c.image)).filter (fun u => !c.landed.contains u && c.unitFinal u)
    us.foldl (fun s u => ((s.spreadUnit c u).raiseLanding c.image u).onCol slot inst (fun x => { x with landed := u :: x.landed })) s

/-! ### Progress -/

/-- R328, R468: the elements whose sums are complete here are rounded, in an enabled duty slot. -/
def State.trkRoundAll (slot : Nat) (inst : BitVec 32) (s : State) : State :=
  match s.col slot inst with
  | none => s
  | some c =>
    if !(tReduce c.image) || !s.pwr.slotOn then s
    else
      let es := (c.owned.map (fun r => (upTo (r.2 - r.1)).map (fun i => r.1 + i))).flatten
      (es.filter (fun e => (c.rounded.getD e none).isNone && c.formedRange e (e + 1) && (c.missing e (e + 1) 4 0).isEmpty)).foldl (fun s e =>
        let r := s.trkRound c e
        s.trkPut slot inst e r.1 r.2) s

/-- Everything of a collective is done here: its chunks received, its chunks sent and acknowledged, its output final. -/
def State.trkComplete (s : State) (c : Collective) : Bool :=
  c.phase == .running && c.plan.all (fun x => if x.dst = c.me then c.got.contains x else c.sent.contains x) &&
    (!(tReduce c.image) || (c.roundedRange (tOwnOut c.image c.me).1 (tOwnOut c.image c.me).2 && c.formedRange 0 (tCount c.image))) &&
    s.fab.ops.all (fun o => !(o.ofCol c && o.st == .outstanding)) && s.trk.unsent.all (fun x => !(x.pkt.ofInst c.progSlot c.inst))

/-- R337: the stages of the anchor pass that wait, and the positions whose frame each waits for. -/
def Collective.markStages (c : Collective) : List (List Nat × List Nat) :=
  if !c.isSum then []
  else
    let racks := rackGroups c.members
    let rack := (racks.find? (fun ts => ts.any (fun t => t.contains c.me))).getD []
    let tray := (rack.find? (fun t => t.contains c.me)).getD []
    let lead := tray.headD 0
    let rackLead := (rack.headD []).headD 0
    let leads2 := rack.map (fun t => t.headD 0)
    let leads3 := racks.map (fun ts => (ts.headD []).headD 0)
    let lack (f step level g : Nat) (ps : List Nat) : List Nat × List Nat :=
      ([1, f, step, level, g], if c.marks.contains ⟨f, step, level, g, c.me⟩ then
        ps.filter (fun p => p ≠ c.me && !c.marks.contains ⟨f, step, level, g, p⟩) else [])
    ((upTo c.window).map (fun g => ([2, 3].map (fun f =>
      [lack f 0 1 g tray,
       if lead = c.me then lack f 0 2 g leads2 else ([], []),
       if rackLead = c.me then lack f 0 3 g leads3 else ([], []),
       ([1, f, 1, 1, g], if lead ≠ c.me ∧ rack.length > 1 ∧ (lack f 0 1 g tray).2.isEmpty ∧ !c.marks.contains ⟨f, 1, 1, g, lead⟩ then [lead] else []),
       ([1, f, 1, 2, g], if lead = c.me ∧ rackLead ≠ c.me ∧ racks.length > 1 ∧ !c.marks.contains ⟨f, 1, 2, g, rackLead⟩ then [rackLead]
          else [])])).flatten)).flatten

/-- R337: the steps that wait for data, by what they still lack, and the positions whose chunks each waits for. -/
def Collective.dataStages (c : Collective) : List (List Nat × List Nat) :=
  let left := c.plan.filter (fun x => x.dst = c.me && !c.got.contains x && (!(tReduce c.image) || c.formedRange x.lo x.hi))
  left.map (fun x =>
    let ys := left.filter (fun y => y.level = x.level ∧ y.dist = x.dist ∧ y.deck = x.deck ∧ y.step = x.step)
    ([2, x.level, bit01 x.dist, x.deck, x.step, ys.length], ys.map (·.src)))

/-- R337: the levels that wait for credit, by the chunks that wait, and the positions whose credit each waits for. -/
def Collective.creditStages (c : Collective) : List (List Nat × List Nat) :=
  [1, 2, 3].map (fun l =>
    let xs := c.sendable.filter (fun x => x.level = l && c.credit l x.dst == 0)
    ([3, l] ++ (xs.map (fun x => [x.deck, x.step, x.dst, x.idx])).flatten, xs.map (·.dst)))

/-- R337: the stages that wait for one member position alone. -/
def Collective.awaits (c : Collective) : List (List Nat × Nat) :=
  (c.markStages ++ c.dataStages ++ c.creditStages).filterMap (fun x => match x.2 with
    | [] => none
    | p :: r => if r.all (fun q => q = p) then some (x.1, p) else none)

/-- R336, R337: since when stages wait for one member alone, and move chunks for credit. -/
def Collective.watch (now : Nat) (c : Collective) : Collective := { c with
  alone := c.awaits.map (fun x => (x.1, x.2, ((c.alone.find? (fun y => y.1 = x.1 ∧ y.2.1 = x.2)).elim now (·.2.2))))
  waits := (c.sendable.filter (fun x => x.dist && c.credit x.level x.dst == 0)).map (fun x =>
    (x, (c.waits.find? (fun y => y.1 = x)).elim now (·.2))) }

/-- Act on a collective while it runs. -/
def State.whileRuns (slot : Nat) (inst : BitVec 32) (f : State → State) (s : State) : State :=
  match s.col slot inst with
  | some c => if c.phase = .running then f s else s
  | none => s

/-- R322-R344: a running collective goes as far as what it holds allows; not while its memory waits (R247, R377, R384). -/
def State.trkProgress (slot : Nat) (inst : BitVec 32) (s : State) : State :=
  match s.col slot inst with
  | none => s
  | some c =>
    if c.phase ≠ .running || s.trkBusy c then s
    else
      let s := if c.isSum then (upTo c.window).foldl (fun s g => s.whileRuns slot inst (State.trkAnchor slot inst g)) s else s
      let s := s.whileRuns slot inst (State.trkRoundAll slot inst)
      let s := s.trkSend slot inst c.plan.length
      let s := s.whileRuns slot inst (State.trkLand slot inst)
      match s.col slot inst with
      | some c => if s.trkComplete c then s.trkFinish slot inst 0 noRank else s.onCol slot inst (Collective.watch s.now)
      | none => s

/-- R323: a member's own contribution to its own output, for a move kind. -/
def State.trkOwnMove (c : Collective) (s : State) : State :=
  let m := c.image
  if tReduce m || !(moves m c.me c.me) then s
  else
    let part := if tKind m = 0x13 ∨ tKind m = 0x15 then c.me * tCount m else 0
    s.placeBytes m (if tPerK m then c.me else 0) 0 (s.readMem ((tDeck m (tDeck0 m)).inAddr + part) (tCount m))

/-- A stamp of R32 from a time in ac. -/
def stampAt (t : Nat) : BitVec 64 := BitVec.ofNat 64 (t / 60000 * 65536 + t % 60000)

/-- R322, R325: a collective has its first effect: its inputs are read, its credits granted. -/
def State.trkStart (slot : Nat) (inst : BitVec 32) (s : State) : State :=
  match s.col slot inst with
  | none => s
  | some c =>
    let s := s.onCol slot inst (fun x => { x with phase := .running, start := some (stampAt c.firstEffect) })
    let ins := inputExtents c.image c.me
    let s := ins.foldl (fun s x => s.settle x.1 x.2) s
    if ins.any (fun x => s.poisonedIn x.1 x.2) then s.trkFinish slot inst 0x12 noRank
    else
      let n := if tReduce c.image then tCount c.image else 0
      let s := s.onCol slot inst (fun x => { x with
        maxima := if c.isSum then s.trkMaxima c else []
        sums := if c.isSum then List.replicate n {} else []
        flushes := List.replicate n false
        rounded := List.replicate n none })
      let s := if tReduce c.image && !c.isSum then s.trkVals c else s
      let s := s.trkOwnMove c
      let s := [1, 2, 3].foldl (fun s l => s.trkGrant slot inst l) s
      s.trkProgress slot inst

end Sys2Proof.Machine
end

