-- ==== Sys2Proof/Machine/Trick.lean ====
section
/-!
DEFINITION. Trick.lean: the commands of the Trick engine (R319-R346): launches, their checks, frames that arrive, silent ranks and detours.
-/
namespace Sys2Proof.Machine

open Sys2Proof

/-! ### Starting collectives (R322) -/

/-- The frames of an instance that arrived before it started here. -/
def State.earlyOf (s : State) (slot : Nat) (inst : BitVec 32) : List Packet := s.trk.early.filter (fun p => p.ofInst slot inst)

/-! ### The effect of a frame (R325, R331, R332, R339) -/

/-- R332: credits arrive. -/
def State.trkCredits (c : Collective) (h : TrkHdr) (pos : Nat) (s : State) : State :=
  (s.onCol c.progSlot c.inst (fun x => { x with credits := countPut h.level.toNat pos (· + h.count.toNat) x.credits })).trkProgress c.progSlot c.inst

/-- R325: the larger of two maxima of a block. -/
def maxOfBlock (a b : Option Int) : Option Int :=
  match a, b with
  | none, y => y
  | x, none => x
  | some x, some y => some (max x y)

/-- R325: the maxima in a MAXIMA frame. -/
def maximaOf (bs : List Byte) : List (Option Int) :=
  (upTo (bs.length / 2)).map (fun i => let v := leAt bs (2 * i) 2; if v = 0x8000 then none else some (toSigned 16 v))

/-- R325: maxima or a ready mark arrive for an anchor group. -/
def State.trkMark (c : Collective) (h : TrkHdr) (pos : Nat) (p : Packet) (s : State) : State :=
  let g := h.index.toNat
  let lo := g * (anchorGroup / anchorBlock)
  let ms := if h.frame = 2 then maximaOf p.data else []
  let mark : TrkMark := ⟨h.frame.toNat, h.step.toNat, h.level.toNat, g, pos⟩
  (s.onCol c.progSlot c.inst (fun x => { x with
    marks := if x.marks.contains mark then x.marks else mark :: x.marks
    maxima := (List.zip (upTo x.maxima.length) x.maxima).map (fun bm =>
      if lo ≤ bm.1 ∧ bm.1 < lo + ms.length then maxOfBlock bm.2 (ms.getD (bm.1 - lo) none) else bm.2) })).trkProgress c.progSlot c.inst

/-- Does a frame name a chunk? A detoured one goes under another level (R336). -/
def TrkChunk.named (h : TrkHdr) (x : TrkChunk) : Bool :=
  x.deck == h.deck.toNat && x.step == h.step.toNat && x.idx == h.index.toNat && (x.level == h.level.toNat || (x.dist && x.level == 1 && h.level == 2))

/-- R327, R331: a chunk is asked for again: its source rereads it, or adds its addends again, which is counted, and sends it again. -/
def State.trkAgain (c : Collective) (h : TrkHdr) (pos : Nat) (s : State) : State :=
  match c.sent.find? (fun x => x.dst = pos && x.named h) with
  | none => s
  | some x =>
    let rank := c.rankOf pos
    let s := if c.isSum && !x.dist && !c.single x then s.onTrk (fun t => { t with residueRetry := satAdd t.residueRetry 1 }) else s
    (s.onFab (fun f => { f with ops := f.ops.filter (fun o => !(o.ofCol c && o.isChunk x rank && o.st == .outstanding)) })).sendChunk c x h.level.toNat

/-- The chunk of this member's plan that a CHUNK frame carries. -/
def Collective.chunkOf (c : Collective) (h : TrkHdr) (pos : Nat) : Option TrkChunk :=
  c.plan.find? (fun x => x.dst = c.me && x.src = pos && x.named h)

/-- What a chunk holds once its check has passed. -/
inductive ChunkBody where
  | bytes (bs : List Byte)
  | sums (xs : List ASum)
  deriving DecidableEq, Repr

/-- R327, R330: the check of a chunk's data: its body, or whether its residues (true) or its CRC (false) fail. -/
def Collective.chunkBody (c : Collective) (x : TrkChunk) (bs : List Byte) : Except Bool ChunkBody :=
  let n := x.hi - x.lo
  let z := sumBytes (tWide c.image)
  if tReduce c.image && !x.dist && c.isSum && bs.length == n * z then
    let rs := (upTo n).map (fun i => sumOf (tWide c.image) (slice bs (i * z) z))
    if rs.all Option.isSome then .ok (.sums (rs.filterMap id)) else .error true
  else match crcBody bs with
    | some b => .ok (.bytes b)
    | none => .error false

/-- R327, R331: a chunk fails its check: it is asked for again, or the collective ends. -/
def State.trkBadChunk (c : Collective) (x : TrkChunk) (pos : Nat) (sums : Bool) (level : Nat) (s : State) : State :=
  let n := (c.resends.find? (fun y => y.1 = x)).elim 0 (·.2)
  if sums && decide (n ≥ 2) then s.trkFinish c.progSlot c.inst 0x23 noRank
  else if !sums && decide (n ≥ 3) then s.trkFinish c.progSlot c.inst 0x24 noRank
  else
    let s := s.onCol c.progSlot c.inst (fun y => { y with resends := (x, n + 1) :: y.resends.filter (fun z => z.1 ≠ x) })
    let s := if sums then s else s.onTrk (fun t => { t with crcRetry := satAdd t.crcRetry 1 })
    s.sendTrk c { x.hdr 5 with level := BitVec.ofNat 8 level } pos 0 []

/-- R326, R327, R328, R329, R323: a chunk that has passed its check is added, placed or kept to be passed on. The adder checks the residue
identity of every limb; an addition that fails it is recomputed twice and ends the collective. What is added counts as flushed where its chunk
says so (R63). -/
def State.trkApply (c : Collective) (x : TrkChunk) (code : Nat) (b : ChunkBody) (s : State) : State :=
  let m := c.image
  let ib := tInBytes m
  let ob := tOutBytes m
  let inRange (e : Nat) : Bool := decide (x.lo ≤ e) && decide (e < x.hi)
  let each {α : Type} (f : Nat → α → α) (xs : List α) : List α :=
    (List.zip (upTo xs.length) xs).map (fun ea => if inRange ea.1 then f ea.1 ea.2 else ea.2)
  let flushed := (flagsOf code).flushed
  let held := (upTo (x.hi - x.lo)).map (fun i => c.sums.getD (x.lo + i) {})
  match b with
  | .sums xs =>
    if sumsGood m held xs then
      s.onCol c.progSlot c.inst (fun y => { y with
        flushes := each (fun _ f => f || flushed) y.flushes
        sums := each (fun e a => ASum.merge (tWindow m) a (xs.getD (e - x.lo) {})) y.sums })
    else s.trkAddFails c
  | .bytes bs =>
    let raw (e : Nat) : FVal × Bool := trkDecode m c.flush (leAt bs ((e - x.lo) * ib) ib)
    if !(tReduce m) then
      let s := if x.takenBy c.me then s.placeBytes m (if tPerK m then x.con else 0) x.lo bs else s
      s.onCol c.progSlot c.inst (fun y => if y.plan.any (fun z => z.src = y.me && z.con = x.con && z.taker = x.taker) then
        { y with relay := (x, bs) :: y.relay } else y)
    else if x.dist then
      (upTo (x.hi - x.lo)).foldl (fun s i => s.trkPut c.progSlot c.inst (x.lo + i) (leAt bs (i * ob) ob) (flagsOf code)) s
    else if c.isSum && !(sumsGood m held ((upTo (x.hi - x.lo)).map (fun i => ASum.term (tWindow m) (c.anchor (x.lo + i)) {} (raw (x.lo + i)).1))) then
      s.trkAddFails c
    else s.onCol c.progSlot c.inst (fun y => { y with
      flushes := each (fun e f => f || flushed || (raw e).2) y.flushes
      sums := each (fun e a => ASum.term (tWindow m) (c.anchor e) a (raw e).1) y.sums
      vals := each (fun e v => trkCombine m v (raw e).1) y.vals })

/-- A chunk arrives: its credit is used, it is checked, added or placed, and its place is granted again. Whether it is acknowledged: a
chunk that fails its check is answered by a RESEND instead. -/
def State.trkTakeChunk (c : Collective) (h : TrkHdr) (pos : Nat) (p : Packet) (s : State) : State × Bool :=
  match c.chunkOf h pos with
  | none => (s, true)
  | some x =>
    if c.got.contains x then (s, true)
    else
      let s := s.stageAt c.image x.level 0 p.data
      match c.chunkBody x p.data with
      | .error sums => (s.trkBadChunk c x pos sums h.level.toNat, false)
      | .ok b =>
        let s := s.trkApply c x p.hdr.code.toNat b
        let s := s.onCol c.progSlot c.inst (fun y => { y with
          got := x :: y.got, granted := countPut x.level pos (fun n => n - 1) y.granted })
        ((s.trkGrant c.progSlot c.inst x.level).trkProgress c.progSlot c.inst, true)

/-- R468: does a chunk wait for an enabled duty slot: does an adder add it? -/
def State.chunkWaits (s : State) (c : Collective) (h : TrkHdr) (pos : Nat) : Bool :=
  tReduce c.image && !s.pwr.slotOn && (c.chunkOf h pos).any (fun x => !x.dist && !c.got.contains x)

/-- R312: the effect of a frame on a running collective, and whether the frame is acknowledged. A chunk that waits for an enabled slot is kept. -/
def State.trkEffect (c : Collective) (h : TrkHdr) (p : Packet) (s : State) : State × Bool :=
  match c.posOf h.srcRank.toNat with
  | none => (s, true)
  | some pos =>
    match h.frame.toNat with
    | 0 => if s.chunkWaits c h pos then (s.onTrk (fun t => { t with early := t.early ++ [p] }), true) else s.trkTakeChunk c h pos p
    | 1 => (s.trkCredits c h pos, true)
    | 2 | 3 => (s.trkMark c h pos p, true)
    | 4 => (s.trkFinish c.progSlot c.inst 0x22 h.srcRank, true)
    | 5 => (s.trkAgain c h pos, true)
    | _ => (s, true)

/-- The effect of a frame kept from before the start. -/
def State.trkReplayEarly (slot : Nat) (inst : BitVec 32) (p : Packet) (s : State) : State :=
  match p.kh, s.col slot inst with
  | .trick h, some c => if c.phase = .running then (s.trkEffect c h p).1 else s
  | _, _ => s

/-- R322: a released collective has its first effect, and the frames that came before it take theirs. -/
def State.trkBegin (slot : Nat) (inst : BitVec 32) (s : State) : State :=
  let ps := s.earlyOf slot inst
  let s := s.onTrk (fun t => { t with early := t.early.filter (fun p => !(p.ofInst slot inst)) })
  ps.foldl (fun s p => s.trkReplayEarly slot inst p) (s.trkStart slot inst)

/-- R322: a head that its release found unable to start does so when it can, as one that reaches the head then. -/
def State.trkUnblock (s : State) : State :=
  s.onTrk (fun t => { t with running := t.running.map (fun c =>
    if c.phase = .blocked ∧ t.mayStart then { c with phase := .released, firstEffect := s.now + 16 } else c) })

/-- R468: in an enabled duty slot the chunks that waited for one are added, and the collectives go on. -/
def State.trkResume (s : State) : State :=
  if !s.pwr.slotOn then s
  else (s.trk.running.filter (fun c => c.phase == .running)).foldl (fun s c =>
    if s.trkBusy c then s
    else
      let ps := s.earlyOf c.progSlot c.inst
      let s := s.onTrk (fun t => { t with early := t.early.filter (fun p => !(p.ofInst c.progSlot c.inst)) })
      (ps.foldl (fun s p => s.trkReplayEarly c.progSlot c.inst p) s).trkProgress c.progSlot c.inst) s

/-- R322, R468: the collectives that run go on, and those whose first effect has come take it, in an enabled duty slot (R35), when their memory
does not wait. -/
def State.trkAdvance (s : State) : State :=
  let s := s.trkResume.trkUnblock
  (s.trk.running.filter (fun c => c.phase == .released && decide (c.firstEffect ≤ s.now))).foldl (fun s c =>
    if s.pwr.slotOn && !s.trkBusy c then s.trkBegin c.progSlot c.inst
    else s.onCol c.progSlot c.inst (fun c => { c with firstEffect := s.now + 1 })) s

/-- R320: a frame arrives for a slot and instance. -/
def State.trkTake (h : TrkHdr) (p : Packet) (s : State) : State × Bool :=
  let slot := h.progSlot.toNat
  if s.trk.done.contains (slot, h.inst) then (s.onTrk (fun t => { t with stale := satAdd t.stale 1 }), true)
  else match s.col slot h.inst with
    | none => (s.onTrk (fun t => { t with early := t.early ++ [p] }), true)
    | some c =>
      if c.phase = .finished then (s.onTrk (fun t => { t with stale := satAdd t.stale 1 }), true)
      else if c.phase = .running then s.trkEffect c h p
      else if h.frame = 4 then (s.trkFinish slot h.inst 0x22 h.srcRank, true)
      else (s.onTrk (fun t => { t with early := t.early ++ [p] }), true)

/-- R247, R377, R384: a chunk for memory that a Deck reset holds is kept and answered HELD; one for memory behind a channel or link that
retrains waits. -/
def State.trkWait (key : Nat) (h : TrkHdr) (p : Packet) (f : State → State) (s : State) : State :=
  match s.col h.progSlot.toNat h.inst with
  | none => f s
  | some c =>
    if h.frame ≠ 0 ∨ c.phase ≠ .running ∨ !s.trkBusy c ∨ (replayOf s.fab.replay key p.hdr.tag).isSome then f s
    else match c.extents.find? (fun x => s.heldAt x.1 x.2) with
      | none => s.waitStaged key p
      | some x =>
        let kept := s.fab.heldOps.any (fun y => y.key == key && y.pkt.hdr.tag == p.hdr.tag && y.pkt.hdr.kind == p.hdr.kind)
        let s := if kept then s else s.onFab (fun u => { u with heldOps := u.heldOps ++ [⟨key, p, Fin.ofNat 4 (s.heldDeck x.1 x.2)⟩] })
        s.ackRanked p ocHeld

/-- A Trick frame of any type is taken (R301, R309, R312, R320). -/
def State.takeTrk (p : Packet) (s : State) : State :=
  let s := s.trkAdvance
  match p.kh with
  | .trick h =>
    let key := s.trickKey h
    s.onRequest p h.srcRank.toNat (State.whole p (fun p => State.trkWait key h p (State.onceRanked key p (State.trkTake h p))))
  | _ => s

/-- A Trick frame of one type arrives (R312). -/
def State.onTrkFrame (frame : Nat) (p : Packet) (s : State) : State :=
  match p.kh with
  | .trick h => if h.frame.toNat ≠ frame ∨ p.hdr.kind ≠ 0x18 then s.trkAdvance else s.takeTrk p
  | _ => s.trkAdvance

/-- TRK_CHUNK (R326). -/
def execTrkChunk (p : Packet) (s : State) : Host.Outcome State Fault Refusal := inService s (State.onTrkFrame 0 p)
/-- TRK_CREDIT (R332). -/
def execTrkCredit (p : Packet) (s : State) : Host.Outcome State Fault Refusal := inService s (State.onTrkFrame 1 p)
/-- TRK_MAXIMA (R325). -/
def execTrkMaxima (p : Packet) (s : State) : Host.Outcome State Fault Refusal := inService s (State.onTrkFrame 2 p)
/-- TRK_READY (R325). -/
def execTrkReady (p : Packet) (s : State) : Host.Outcome State Fault Refusal := inService s (State.onTrkFrame 3 p)
/-- TRK_ABORT (R339). -/
def execTrkAbort (p : Packet) (s : State) : Host.Outcome State Fault Refusal := inService s (State.onTrkFrame 4 p)
/-- TRK_RESEND (R331). -/
def execTrkResend (p : Packet) (s : State) : Host.Outcome State Fault Refusal := inService s (State.onTrkFrame 5 p)

/-! ### Outcomes of this node's own frames (R338) -/

/-- The collective that an operation serves goes on, or ends. -/
def State.trkOf (o : OutOp) (f : Nat → BitVec 32 → State → State) (s : State) : State :=
  match o.pkt.kh with
  | .trick h => f h.progSlot.toNat h.inst s
  | _ => s

/-- A Trick frame of this node is acknowledged. -/
def State.trkAck (o : OutOp) (s : State) : State := (((s.dropOp o.id).confirmTo o).flushSends).trkOf o (fun slot inst s => s.trkProgress slot inst)

/-- R338: a Trick frame of this node becomes unknown. -/
def State.trkUnknown (o : OutOp) (why : UnkReason) (s : State) : State :=
  (s.noteUnknown o why).trkOf o (fun slot inst s => s.trkFinish slot inst 0x21 (BitVec.ofNat 32 o.rank))

/-- R338: a rank is declared departed: every unfinished collective of which it is a member ends. -/
def State.trkDeparted (rank : Nat) (s : State) : State :=
  (s.trk.running.filter (fun c => c.phase != .finished && (c.posOf rank).isSome)).foldl (fun s c =>
    s.trkFinish c.progSlot c.inst 0x21 (BitVec.ofNat 32 rank)) s

/-- R341: a reset of Decks ends every unfinished collective that uses them. -/
def State.trkReset (decks : List Nat) (s : State) : State :=
  (s.trk.running.filter (fun c => c.phase != .finished && decks.any (fun d => (tMask c.image).testBit d))).foldl (fun s c =>
    s.trkFinish c.progSlot c.inst 0x13 noRank) s

/-! ### Launches (R319, R321, R483) -/

/-- Length of the queue of launches (R319). -/
def trkQueueMax : Nat := 16

/-- R319, R346: launches queued and not started, the one read at the head among them. -/
def Trick.queued (t : Trick) : Nat := t.queue.length + (t.running.filter (fun c => c.phase == .waitRelease || c.phase == .blocked)).length

/-- R316, R319: a launch record's address is stored to TRK_LAUNCH; with the queue full the store waits. -/
def State.trkLaunch (flush : Bool) (v : W64) (s : State) : State :=
  if s.trk.queued ≥ trkQueueMax then s
  else s.onTrk (fun t => { t with queue := t.queue ++ [⟨v.toNat / 64 * 64, flush, s.fab.ranks⟩] })

/-- The launching context's ACR.FLUSH (R57); Banker firmware has none. -/
def State.flushOf (a : Agent) (s : State) : Bool :=
  match a with
  | .dealer c => (s.core c).acr.getLsbD 2
  | .banker => false

/-- TRICK_LAUNCH (R319). -/
def execTrickLaunch (agent : Agent) (v : W64) (s : State) : Host.Outcome State Fault Refusal :=
  inService s (fun s => s.trkLaunch (s.flushOf agent) v)

/-- The node of a rank in a rank table. -/
def nodeIn (ranks : List RankEntry) (r : Nat) : Option Node := (ranks.find? (fun e => e.rank = r)).map (·.node)

/-- The members that an image names, with their nodes in the rank table of the launch (R316, R317). -/
def trkMembers (ranks : List RankEntry) (m : List Byte) : List TrkMember :=
  (upTo (tRanks m)).map (fun p => ⟨tBase m + p * tStride m, (nodeIn ranks (tBase m + p * tStride m)).getD ⟨0, 0⟩⟩)

/-- R321: PROG_BAD, but for the members. -/
def progBad (m : List Byte) : Bool :=
  m.isEmpty || tMask m == 0 || (tDecks m).any (fun d => (tDeck m d).suits == 0) ||
  !([1, 2, 3, 0x11, 0x12, 0x13, 0x14, 0x15].contains (tKind m)) || (tReduce m && tOp m == 3) || decide (tRmode m ≥ 2) ||
  (upTo 4).any (fun l => decide ((tLevel m l).alg > 4)) || (tReduce m && tOp m != 0 && tRmode m == 1) || tStride m == 0

/-- R321: PROG_BAD by the members: their ranks in the rank table of the launch, and this node among them. -/
def State.membersBad (s : State) (ranks : List RankEntry) (m : List Byte) : Bool :=
  let last := tBase m + (tRanks m - 1) * tStride m
  tRanks m == 0 || decide (last > 65535) ||
  !((upTo (tRanks m)).all (fun p => (nodeIn ranks (tBase m + p * tStride m)).isSome)) ||
  !((upTo (tRanks m)).any (fun p => tBase m + p * tStride m == s.job.rank.toNat)) ||
  decide (tRoot m ≥ tRanks m)

/-- R321: PROG_BAD by the groups of a level. -/
def algBad (m : List Byte) (ms : List TrkMember) (l : Nat) : Bool :=
  let lv := tLevel m l
  let gs := levelSizes m ms l
  match lv.alg with
  | 0 => gs.any (fun g => g > 1)
  | 2 => gs.any (fun g => g != 2 ^ g.log2)
  | 3 => gs.any (fun g => g > 64)
  | 4 => decide (lv.fanout < 2) || decide (lv.fanout > 16)
  | _ => false

/-- R321: DESC_DIM. -/
def dimBad (m : List Byte) : Bool :=
  let red := tReduce m
  let n := tCount m
  n == 0 || (if red then decide (n > 2 ^ 32) else n % 64 != 0 || decide (n > 2 ^ 34)) || (tKind m == 2 && n % tRanks m != 0) ||
  (usedLevels m).any (fun l =>
    let c := (tLevel m l).chunk
    let st := (tLevel m l).stageBytes
    c == 0 || c % (if red then 256 else 64) != 0 || decide ((if l = 0 then st / 4 else st) / max (stageUnit m l) 1 < 2)) ||
  tLand m == 0 || (tDecks m).any (fun d => decide ((tDeck m d).pipBase + tUnits m > 4096))

/-- R321: DESC_ALIGN. -/
def alignBad (m : List Byte) : Bool :=
  (tDecks m).any (fun d => (tDeck m d).inAddr % 64 != 0 || (tDeck m d).outAddr % 64 != 0) ||
  (stageExtents m).any (fun x => x.1 % 64 != 0) || tSeg m % 64 != 0 || tStrideOut m % 64 != 0

/-- The image of a queued launch's program and its extents at this node. -/
def State.queuedExtents (s : State) (q : TrickLaunch) : List (Nat × Nat) :=
  let m := vget s.trk.progs (leAt (s.readMem q.rec_ 64) 0 1 % 64) []
  if progBad m || s.membersBad q.ranks m then []
  else
    let me := (s.job.rank.toNat - tBase m) / tStride m
    inputExtents m me ++ outExtents m me ++ stageExtents m

/-- The extents of the other collectives of this node, unfinished or queued. -/
def State.otherExtents (s : State) : List (Nat × Nat) :=
  ((s.trk.running.filter (fun c => c.phase != .finished)).map (fun c =>
    inputExtents c.image c.me ++ outExtents c.image c.me ++ stageExtents c.image)).flatten ++
  ((s.trk.queue.drop 1).map s.queuedExtents).flatten

/-- R321: DESC_ADDR. -/
def State.trkAddrBad (s : State) (m : List Byte) (me : Nat) : Bool :=
  let ins := inputExtents m me
  let outs := (outExtents m me).filter (fun x => x.2 ≠ 0)
  let stage := stageExtents m
  !((ins ++ outs ++ stage).all (fun x => s.sharedExtent x.1 x.2)) || anyOverlap outs (ins ++ stage) || anyOverlap outs s.otherExtents

/-- R321: PIP_STALE. -/
def State.trkPipsUp (s : State) (m : List Byte) : Bool :=
  (tDecks m).any (fun d => (onesOf 4 (tDeck m d).suits).any (fun q =>
    (upTo (tUnits m)).any (fun u => s.pipUp (4 * d + q) ((tDeck m d).pipBase + u)))) ||
  (tCpip m && s.pipUp (tDoneSuit m) (tDonePip m))

/-- R321: the checks of a launch in table order, each made only where those before it pass. A reserved FMT_OUT code is a DESC_FORMAT of every
program (R68). -/
def State.trkCheck (s : State) (ranks : List RankEntry) (m : List Byte) (release : Nat) : Nat :=
  if progBad m then stOp
  else if s.membersBad ranks m then stOp
  else
    let ms := trkMembers ranks m
    let me := (s.job.rank.toNat - tBase m) / tStride m
    if (upTo 4).any (algBad m ms) then stOp
    else if !(if tReduce m then (tFmtIn m).any Fmt.trickReduce && (tFmtOut m).any Fmt.trickReduce else (tFmtIn m).any Fmt.trickMove && (tFmtOut m).isSome) then stFormat
    else if dimBad m then stDim
    else if alignBad m then stAlign
    else if s.trkAddrBad m me then stAddr
    else if !(relValid s release) then stRelease
    else if s.trkPipsUp m then 7
    else stOk

/-- A collective that a launch brings, before it runs. -/
def newCollective (slot : Nat) (inst tag : BitVec 32) (release : BitVec 64) (flush : Bool) (image : List Byte) (ms : List TrkMember) (me : Nat) :
    Collective where
  progSlot := slot
  inst := inst
  tag := tag
  release := release
  flush := flush
  image := image
  members := ms
  me := me
  plan := if image.isEmpty then [] else if tReduce image then reducePlan image ms me else movePlan image ms me
  owned := if !image.isEmpty && tReduce image then reduceOwned image ms me else []
  phase := .waitRelease
  late := false
  start := none
  firstEffect := 0
  maxima := []
  marks := []
  formed := []
  sums := []
  vals := []
  flushes := []
  rounded := []
  got := []
  sent := []
  credits := []
  granted := []
  landed := []
  resends := []
  relay := []
  waits := []
  alone := []
  status := 0
  namedRank := noRank
  detoured := false
  flags := {}
  held := false

/-- R321, R344: a launch that fails completes at once. It stands under a number of its own, so that it meets no frame. -/
def State.trkFail (slot : Nat) (inst tag : BitVec 32) (status : Nat) (s : State) : State :=
  let c := { newCollective (64 + slot) inst tag 0 false [] [] 0 with phase := .finished, status := BitVec.ofNat 16 status }
  (s.onTrk (fun t => { t with running := t.running ++ [c] })).trkWriteDone (64 + slot) inst

/-- TRICK_LAUNCH_HEAD (R321, R322, R483): the launch at the head of the queue is read and checked; it fails at once, or waits for its
release. -/
def execTrickLaunchHead (s : State) : Host.Outcome State Fault Refusal :=
  inService s (fun s =>
    let s := s.trkAdvance
    match s.trk.queue with
    | [] => s
    | q :: rest =>
      if !s.trk.runBit || s.trk.running.any (fun c => c.phase == .waitRelease || c.phase == .blocked) then s
      else
        let pop (s : State) : State := s.onTrk (fun t => { t with queue := rest })
        match s.readBlock (s.sharedExtent q.rec_ 64) q.rec_ 64 with
        | .error st =>
          let (f, s) := (pop s).free
          let s := if st = stPoison then s.trkErr 0x12 else s
          s.trkFail (f.toNat % 64) (BitVec.ofNat 32 (f.toNat / 64)) (BitVec.ofNat 32 (f.toNat / 2 ^ 32)) st
        | .ok b =>
          let slot := leAt b 0 1 % 64
          let inst := BitVec.ofNat 32 (leAt b 4 4)
          let rel := leAt b 8 8
          let tag := BitVec.ofNat 32 (leAt b 16 4)
          let m := vget s.trk.progs slot []
          let st := s.trkCheck q.ranks m rel
          let s := pop s
          if st ≠ stOk then s.trkFail slot inst tag st
          else
            let c := newCollective slot inst tag (BitVec.ofNat 64 rel) q.flush m (trkMembers q.ranks m) ((s.job.rank.toNat - tBase m) / tStride m)
            s.onTrk (fun t => { t with running := t.running ++ [{ c with
              phase := if !(relReached s rel) then .waitRelease else if s.trk.mayStart then .released else .blocked
              late := relLate s rel
              firstEffect := firstEffect s rel 16 }] }))

/-! ### Silent ranks and detours (R336, R337) -/

/-- RANK_SILENT (R337). -/
def execRankSilent (progSlot : Fin 64) (inst rank : BitVec 32) (s : State) : Host.Outcome State Fault Refusal :=
  inService s (fun s =>
    match s.col progSlot inst with
    | none => s
    | some c =>
      match c.posOf rank.toNat with
      | none => s
      | some pos =>
        if c.phase = .running ∧ c.alone.any (fun x => x.2.1 = pos && decide (x.2.2 + tSilent c.image * 60000 ≤ s.now)) then
          s.trkFinish progSlot inst 0x20 rank
        else s)

/-- DETOUR (R336): a move chunk for a tray peer that has waited for L1 credit goes by the RACK ports, as L2 traffic. -/
def execDetour (progSlot : Fin 64) (inst rank : BitVec 32) (s : State) : Host.Outcome State Fault Refusal :=
  inService s (fun s =>
    match s.col progSlot inst with
    | none => s
    | some c =>
      match c.posOf rank.toNat with
      | none => s
      | some pos =>
        match c.sendable.find? (fun x => x.level = 1 && x.dst = pos && c.waits.any (fun y => y.1 = x && decide (y.2 + tDetourAc c.image ≤ s.now))) with
        | none => s
        | some x =>
          if tDetour c.image ∧ !s.trkBusy c then
            ((s.onCol progSlot inst (fun y => { y with sent := x :: y.sent, detoured := true })).sendChunk c x 2).trkProgress progSlot inst
          else s)

/-! ### Registers (R112, R346) -/

/-- R112: held completions are written, oldest first, while the ring has space. -/
def State.trkReleaseHeld (s : State) : State :=
  (s.trk.running.filter (fun c => c.held)).foldl (fun s c => if s.trk.cq.full then s else s.trkWriteDone c.progSlot c.inst) s

/-- TRK_CQ_HEAD is written. -/
def State.writeTrkHead (v : Nat) (s : State) : State := (s.onTrk (fun t => { t with cq := t.cq.writeHead v })).trkReleaseHeld

/-- R346: TRK_STATUS. -/
def State.trkStatus (s : State) : Nat :=
  let running := s.trk.started
  running * 2 ^ 16 + s.trk.queued * 2 ^ 8 + bit01 (!s.trk.runBit && running == 0) * 16 +
  bit01 (s.trk.running.any Collective.saturated) * 8 + bit01 (s.trk.running.any (fun c => c.phase == .waitRelease)) * 4 +
  bit01 (s.trk.running.any (fun c => c.held)) * 2 + bit01 (decide (running > 0))

/-- R433: every launch queued and every collective completes with RESET. -/
def State.trkClear (s : State) : State :=
  let s := (s.trk.running.filter (fun c => c.phase != .finished)).foldl (fun s c => s.trkFinish c.progSlot c.inst 0x13 noRank) s
  let qs := s.trk.queue
  qs.foldl (fun s q =>
    let b := s.readMem q.rec_ 64
    s.trkFail (leAt b 0 1 % 64) (BitVec.ofNat 32 (leAt b 4 4)) (BitVec.ofNat 32 (leAt b 16 4)) 0x13) (s.onTrk (fun t => { t with queue := [] }))

end Sys2Proof.Machine
end

