-- ==== Sys2Proof/Machine/Ckpt.lean ====
section
/-!
DEFINITION. Ckpt.lean: the checkpoint unit (R347-R368): Decants, Dry-downs, the copy of a restore, and what resets and departures do to
a step in progress.
-/
namespace Sys2Proof.Machine

open Sys2Proof

/-! ### Statuses (R367) -/

/-- SACHET_BUSY. -/
def ckBusy : Nat := 0x30
/-- SET_BAD. -/
def ckSetBad : Nat := 0x31
/-- STEP_ORDER. -/
def ckStepOrder : Nat := 0x32
/-- DECANT_ABANDONED. -/
def ckAbandoned : Nat := 0x33
/-- CKP_POISON. -/
def ckPoison : Nat := 0x34
/-- DRY_LOST. -/
def ckDryLost : Nat := 0x35
/-- SHARD_BAD. -/
def ckShardBad : Nat := 0x36
/-- MANIFEST_BAD. -/
def ckManifestBad : Nat := 0x37
/-- CKP_INCONSISTENT. -/
def ckInconsistent : Nat := 0x38
/-- VERIFIED. -/
def ckVerified : Nat := 0x39

/-! ### Decants (R350-R355) -/

/-- R350: the fields of a Decant record. -/
def decantRec (a : Nat) (b : List Byte) : DecantRec where
  addr := a
  step := BitVec.ofNat 64 (leAt b 0 8)
  release := BitVec.ofNat 64 (leAt b 8 8)
  setAddr := leAt b 16 8
  nEntries := leAt b 24 2
  dryBudget := leAt b 26 2
  dryRank := BitVec.ofNat 32 (leAt b 28 4)
  dryQueue := leAt b 32 1 % 64
  drySlots := leAt b 34 2
  donePip := leAt b 36 2 % 4096
  doneSuit := field (leAt b 36 2) 15 12

/-- The set that a record names. -/
def State.decantSet (s : State) (r : DecantRec) : List SetEntry := setOf (s.readMem r.setAddr (16 * r.nEntries)) r.nEntries

/-- R348, R351: SET_BAD. -/
def State.setBad (s : State) (r : DecantRec) : Bool :=
  decide (r.nEntries < 1) || decide (r.nEntries > 256) || r.setAddr % 64 != 0 || !((s.storeOfExtent r.setAddr (16 * r.nEntries)).any Store.shared) ||
  (let set := s.decantSet r
   set.any (fun e => e.base % 256 != 0 || e.len % 256 != 0 || e.len == 0 || s.storeOfExtent e.base e.len != some .hbm || !(s.twinned e)) ||
    selfOverlap (set.map (fun e => (e.base, e.len)))) ||
  (r.dryBudget != 0 && r.drySlots == 0)

/-- R351: the states that refuse a Decant at its release. -/
def SachetState.busy : SachetState → Bool
  | .decanting | .held | .draining | .staging | .verified => true
  | _ => false

/-- R351: the checks of a launch, in table order. -/
def State.decantCheck (s : State) (r : DecantRec) (atRelease : Bool) : Nat :=
  if !atRelease && !(relValid s r.release.toNat) then stRelease
  else if s.setBad r then ckSetBad
  else if atRelease && s.ckp.st.busy then ckBusy
  else if s.ckp.lastStep.any (fun t => r.step.toNat ≤ t.toNat) then ckStepOrder
  else stOk

/-- Write a 16-bit status into a Decant record. -/
def State.decantStatus (r : DecantRec) (off status : Nat) (s : State) : State :=
  if (s.storeOfExtent r.addr 64).any Store.shared then s.writeMem (r.addr + off) (leBytes 2 status) else s

/-- R351, R355: a Decant ends: STATUS is written and DONE_PIP rises. -/
def State.decantEnd (r : DecantRec) (status : Nat) (s : State) : State :=
  ((s.decantStatus r 40 status).raiseHeld r.doneSuit r.donePip).onCkp (fun k => { k with phase := .idle, cur := none, snap := none, late := false })

/-- R352: the snapshot instant. -/
def State.snapshot (r : DecantRec) (s : State) : State :=
  let set := s.decantSet r
  let s := set.foldl (fun s e => s.settle e.base e.len) s
  (s.onHbm (fun h => { h with ctl := h.ctl.map (fun c => { c with hurt := [] }) })).onCkp (fun k => { k with
    phase := .copying, st := .decanting, set := set, snap := some s.mem, dryReady := none })

/-- R351, R352: a released Decant is checked again, and takes its snapshot when its first effect has come, in a duty slot that is
enabled (R35, R468). -/
def State.ckpAdvance (s : State) : State :=
  match s.ckp.cur with
  | none => s
  | some r =>
    let s := if s.ckp.phase = .released then
        (let st := s.decantCheck r true
         if st ≠ stOk then s.decantEnd r st else s.onCkp (fun k => { k with phase := .armed }))
      else s
    if s.ckp.phase = .armed ∧ s.ckp.firstEffect ≤ s.now ∧ s.pwr.slotOn then s.snapshot r else s

/-- The Decant queue's length (R350). -/
def decantQueueMax : Nat := 4

/-- R350, R368: launches queued: the one at the head stays in the queue until its snapshot. -/
def Checkpoint.queued (k : Checkpoint) : Nat :=
  k.queue.length + bit01 (k.phase == .waitRelease || k.phase == .released || k.phase == .armed)

/-- R350: a Decant record's address is stored to CKP_DECANT; with the queue full the store waits. -/
def State.decantLaunch (v : W64) (s : State) : State :=
  if s.ckp.queued ≥ decantQueueMax then s else s.onCkp (fun k => { k with queue := k.queue ++ [v.toNat / 64 * 64] })

/-- DECANT_LAUNCH (R350). -/
def execDecantLaunch (_agent : Agent) (v : W64) (s : State) : Host.Outcome State Fault Refusal := inService s (State.decantLaunch v)

/-- R351: the launch at the head of the queue is checked; it is refused, or waits for its release. -/
def State.decantHead (s : State) : State :=
  match s.ckp.queue with
  | [] => s
  | a :: rest =>
    if s.ckp.phase ≠ .idle then s
    else
      let r := decantRec a (s.readMem a 64)
      let s := s.onCkp (fun k => { k with queue := rest })
      let st := s.decantCheck r false
      if st ≠ stOk then s.decantEnd r st
      else
        let rel := r.release.toNat
        (s.onCkp (fun k => { k with
          cur := some r
          phase := if relReached s rel then .released else .waitRelease
          late := relLate s rel
          firstEffect := firstEffect s rel 32 })).ckpAdvance

/-- DECANT_CHECK (R351). -/
def execDecantCheck (s : State) : Host.Outcome State Fault Refusal := inService s (fun s => s.ckpAdvance.decantHead)

/-- R365: has a read found a transfer uncorrectable since the snapshot? -/
def State.lineHurt (s : State) (line : Nat) : Bool := s.hbm.ctl.toList.any (fun c => c.hurt.contains line)

/-- R352, R365: the twins of an entry take the bytes and the poison that the snapshot holds; where a Live transfer or a twin has been found
uncorrectable since, the twin is poisoned. -/
def State.copyEntry (m0 : Memory) (e : SetEntry) (s : State) : State :=
  let pairs := (upTo e.len).map (fun i => (s.twinOf (e.base + i), m0.get (s.keyOf (e.base + i))))
  let lines := (extentLines e.base e.len).map (fun l => (s.lineOf l, s.twinOf l / 64))
  s.onMem (fun m =>
    let m := m.putAll pairs
    lines.foldl (fun m lt =>
      let m := (m.calm lt.2).cleanLine lt.2
      if m0.isPoison lt.1 || s.lineHurt lt.1 || s.lineHurt lt.2 then m.poisonLine lt.2 else m) m)

/-- Does the set meet a fenced channel (R365)? -/
def State.setFenced (s : State) (set : List SetEntry) : Bool :=
  set.any (fun e => (extentLines e.base e.len).any (fun l => s.fencedKey (s.keyOf l)))

/-- R247, R407: a copy of the set waits for memory that a reset or a retrain holds. -/
def State.ckpWaits (s : State) : Bool := s.busyAny .controller (s.ckp.set.map (fun e => (e.base, e.len)))

/-- DECANT_COMPLETE (R355, R468): the copy ends, in an enabled duty slot; the Sachet holds the step, whose chunks are digested (R349). A channel
of the set that is fenced abandons it (R365). -/
def execDecantComplete (s : State) : Host.Outcome State Fault Refusal :=
  inService s (fun s =>
    let s := s.ckpAdvance
    match s.ckp.phase, s.ckp.cur, s.ckp.snap with
    | .copying, some r, some m0 =>
      if s.ckpWaits ∨ !s.pwr.slotOn then s
      else if s.setFenced s.ckp.set then
        ((s.onCkp (fun k => { k with st := .incomplete })).ckpErr 1 ckPoison).decantEnd r ckPoison
      else
        let s := s.ckp.set.foldl (fun s e => s.copyEntry m0 e) s
        let s := s.onCkp (fun k => { k with
          sachetStep := r.step, index := s.shardIndex k.set, st := .held, lastStep := some r.step, lastRec := some r
          dryReady := if r.dryBudget = 0 then none else some r, dryReadyAt := s.cad.count.toNat + 1 })
        s.decantEnd r stOk
    | _, _, _ => s)

/-! ### Dry-downs (R356, R357) -/

/-- Bytes of a piece (R356). -/
def pieceMax : Nat := 32768

/-- Data pieces of a shard. -/
def dataPieces (total : Nat) : Nat := ceilDiv total pieceMax

/-- All pieces of a shard: data pieces, then index pieces. -/
def allPieces (total : Nat) : Nat := dataPieces total + ceilDiv (32 * shardChunks total) pieceMax

/-- The message that carries piece `j`, and the bytes that it spends of the budget; none where it meets poison. -/
def State.pieceMsg (s : State) (j : Nat) : Option (List Byte × Nat) :=
  let set := s.ckp.set
  let total := shardLen set
  let index := s.ckp.index
  let head (kind len off : Nat) : List Byte := pieceBytes kind s.ckp.sachetStep s.job.rank len off (shardDigest index)
  if j < dataPieces total then
    let off := j * pieceMax
    let n := min pieceMax (total - off)
    if s.sachetPoison set off n then none else some (head 0 n off ++ s.sachetRead set off n, n)
  else
    let off := (j - dataPieces total) * pieceMax
    let n := min pieceMax (index.length - off)
    some (head 1 n off ++ slice index off n, n)

/-- R357: a Dry-down starts with no piece sent. -/
def State.startDry (r : DecantRec) (s : State) : State :=
  s.onCkp (fun k => { k with
    st := .draining, dryReady := none
    dry := some { rec_ := r, pieces := List.replicate (allPieces (shardLen k.set)) (.toSend 0), cd := s.cad.count.toNat, spent := 0 } })

/-- DRY_DOWN_START (R356): at phase 0 of the cd after the Decant. -/
def execDryDownStart (s : State) : Host.Outcome State Fault Refusal :=
  inService s (fun s =>
    match s.ckp.dryReady with
    | some r => if s.ckp.st = .held ∧ s.ckp.dryReadyAt ≤ s.cad.count.toNat then s.startDry r else s
    | none => s)

/-- A Dry-down ends: DRY_STATUS is written, the Sachet changes state, and a failure sets its error bit (R365, R366). -/
def State.endDry (status : Nat) (st : SachetState) (s : State) : State :=
  match s.ckp.dry with
  | none => s
  | some d =>
    let s := (s.onCkp (fun k => { k with dry := none, st := st })).decantStatus d.rec_ 42 status
    if status = ckPoison then s.ckpErr 1 status else if status = ckDryLost then s.ckpErr 2 status else s

/-- Change the state of a piece. -/
def State.setPiece (j : Nat) (p : PieceState) (s : State) : State :=
  s.onCkp (fun k => { k with dry := k.dry.map (fun d => { d with pieces := d.pieces.set j p }) })

/-- R357: the pieces that are to be sent go out, in order, within the budget of the cd, as far as the Sachet's channels do not retrain (R247)
(`fuel` of them at most). -/
def State.sendPieces : Nat → Nat → State → State
  | 0, _, s => s
  | n + 1, j, s =>
    match s.ckp.dry with
    | none => s
    | some d =>
      if d.spent ≥ d.rec_.dryBudget * mib ∨ !(s.msgRoom d.rec_.dryRank.toNat) then s
      else match d.pieces[j]? with
        | some (.toSend k) =>
          if j < dataPieces (shardLen s.ckp.set) ∧
              s.sachetShut s.ckp.set (j * pieceMax) (min pieceMax (shardLen s.ckp.set - j * pieceMax)) then s
          else
          let s := if j < dataPieces (shardLen s.ckp.set) then
            s.settleSachet s.ckp.set (j * pieceMax) (min pieceMax (shardLen s.ckp.set - j * pieceMax)) else s
          match s.pieceMsg j with
          | none => s.endDry ckPoison .incomplete
          | some (bs, len) =>
            let r := s.sendMsg none d.rec_.dryRank.toNat d.rec_.dryQueue (j % max d.rec_.drySlots 1) bs 0
            let s := (r.2.setPiece j (.sent r.1 k)).onCkp (fun x => { x with dry := x.dry.map (fun d => { d with spent := d.spent + len }) })
            sendPieces n (j + 1) s
        | some _ => sendPieces n (j + 1) s
        | none => s

/-- R357: in a new cd the budget is whole again, and refused pieces are to be sent. -/
def DryRun.newCd (cd : Nat) (d : DryRun) : DryRun :=
  if d.cd = cd then d
  else { d with cd, spent := 0, pieces := d.pieces.map (fun p => match p with
    | .nextCd k => .toSend k
    | q => q) }

/-- R365: a Deck reset pauses the Dry-down. -/
def State.dryHeld (s : State) : Bool := s.ckp.dryPause || s.resets.any (fun r => match r.scope with
  | .deck _ => true
  | _ => false)

/-- R357: pieces are sent, unless they are held. -/
def State.dryStep (s : State) : State :=
  match s.ckp.dry with
  | none => s
  | some d =>
    let s := s.onCkp (fun k => { k with dry := some (d.newCd s.cad.count.toNat) })
    if s.dryHeld ∨ s.flt.fenced then s
    else if s.departedRank d.rec_.dryRank.toNat ∨ (s.nodeOfRank d.rec_.dryRank.toNat).isNone then s.endDry ckDryLost .held
    else s.sendPieces (d.pieces.length + 1) 0

/-- DRY_DOWN_CD (R357). -/
def execDryDownCd (s : State) : Host.Outcome State Fault Refusal := inService s State.dryStep

/-- CKP_CTRL_WRITE (R357, R368). -/
def execCkpCtrlWrite (v : W64) (s : State) : Host.Outcome State Fault Refusal :=
  inService s (fun s => s.onCkp (fun k => { k with dryPause := v.getLsbD 0 }))

/-- The piece that an operation carries. -/
def State.pieceOf (s : State) (id : Nat) : Option (Nat × Nat) :=
  match s.ckp.dry with
  | none => none
  | some d => (List.zip (upTo d.pieces.length) d.pieces).findSome? (fun jp => match jp.2 with
    | .sent i k => if i = id then some (jp.1, k) else none
    | _ => none)

/-- R357: every piece has been acknowledged. -/
def State.dryDone (s : State) : State :=
  match s.ckp.dry with
  | some d => if d.pieces.all (fun p => p == .acked) then s.endDry stOk .drained else s
  | none => s

/-- R357: a piece whose outcome is no success and no MSG_BUSY is sent again as a new message, up to 3 times. -/
def State.pieceAgain (j tries : Nat) (s : State) : State :=
  if tries < 3 then s.setPiece j (.toSend (tries + 1)) else s.endDry ckDryLost .held

/-- A message of the checkpoint unit is acknowledged. -/
def State.ckpAck (o : OutOp) (status : Nat) (s : State) : State :=
  let s := s.dropOp o.id
  match s.pieceOf o.id with
  | none => s
  | some (j, k) =>
    if status = ocOk then (s.setPiece j .acked).dryDone
    else if status = ocMsgBusy then s.setPiece j (.nextCd k)
    else s.pieceAgain j k

/-- A message of the checkpoint unit becomes unknown. -/
def State.ckpUnknown (o : OutOp) (why : UnkReason) (s : State) : State :=
  let s := s.noteUnknown o why
  match s.pieceOf o.id with
  | some (j, k) => s.pieceAgain j k
  | none => s

/-! ### Restore (R361-R363) -/

/-- R361, R365: a restore staging in progress ends with a status. -/
def State.endStaging (status : Nat) (s : State) : State :=
  match s.ckp.staging with
  | some g => (s.onCkp (fun k => { k with staging := none, st := .incomplete })).ckpAnswer g.mbx status
  | none => s

/-- A restore commit ends with a status. -/
def State.endCommit (status : Nat) (s : State) : State :=
  match s.ckp.commit with
  | some c => (s.onCkp (fun k => { k with commit := none })).ckpAnswer c.mbx status
  | none => s

/-- R365: a restore copy in progress ends with a status; a commit that waits for its release waits on. -/
def State.endCopy (status : Nat) (s : State) : State :=
  match s.ckp.commit with
  | some c => if c.copying then (s.onCkp (fun k => { k with st := .incomplete })).endCommit status else s
  | none => s

/-- The shard reads in progress end with a status. -/
def State.endReads (status : Nat) (s : State) : State :=
  s.ckp.reads.foldl (fun s r => s.ckpAnswer r.mbx status) (s.onCkp (fun k => { k with reads := [] }))

/-- R365: does a set hold a poisoned transfer, in its Live lines or in the Sachet? -/
def State.setPoisoned (s : State) (set : List SetEntry) : Bool :=
  set.any (fun e => s.poisonedIn e.base e.len) || s.sachetPoison set 0 (shardLen set)

/-- R365: a rank departs that is the storage partner: the Dry-down ends, or the pieces of a staging stop. The command of the staging is
answered CKP_INCONSISTENT (DESIGN CHOICE, log entry 20). -/
def State.ckpDeparted (rank : Nat) (s : State) : State :=
  let s := match s.ckp.dry with
    | some d => if d.rec_.dryRank.toNat = rank then s.endDry ckDryLost .held else s
    | none => s
  if s.ckp.staging.any (fun g => g.sources.contains rank) then s.endStaging ckInconsistent else s

/-- R363, R374: an entry's Live lines take the bytes and the poison of their twins. -/
def State.restoreEntry (e : SetEntry) (s : State) : State :=
  let s := s.settleSachet [e] 0 e.len
  let bad := (extentLines e.base e.len).filter (fun l => s.mem.isPoison (s.twinOf l / 64))
  let s := s.writeMem e.base ((upTo e.len).map (fun i => s.mem.get (s.twinOf (e.base + i))))
  s.onMem (fun m => bad.foldl (fun m l => m.poisonLine (s.lineOf l)) m)

/-- R365: a step under restore has met poisoned or fenced memory. -/
def State.shardBad (s : State) : State := s.ckpErr 3 ckShardBad

/-- R363: the release of a restore commit has come; the twins are copied to their Live lines. -/
def State.startCopy (s : State) : State :=
  match s.ckp.commit with
  | none => s
  | some c =>
    if c.copying ∨ s.ckpWaits ∨ !(relReached s c.release.toNat) then s
    else
      let set := s.ckp.set
      let s := set.foldl (fun s e => s.restoreEntry e) s
      let bad := s.setFenced set || s.sachetPoison set 0 (shardLen set)
      s.onCkp (fun k => { k with commit := some { c with copying := true, bad } })

/-- RESTORE_COPY (R363). -/
def execRestoreCopy (s : State) : Host.Outcome State Fault Refusal := inService s State.startCopy

/-- RESTORE_COPY_DONE (R363, R365). -/
def execRestoreCopyDone (s : State) : Host.Outcome State Fault Refusal :=
  inService s (fun s =>
    match s.ckp.commit with
    | none => s
    | some c =>
      if !c.copying then s
      else if c.bad ∨ s.setFenced s.ckp.set ∨ s.setPoisoned s.ckp.set then s.shardBad.endCopy ckShardBad
      else (s.onCkp (fun k => { k with st := .drained })).endCommit stOk)

/-- R365: a channel has been fenced: a step in progress whose set meets it ends, by the Sachet's state. -/
def State.ckpFenced (s : State) : State :=
  if !(s.setFenced s.ckp.set) then s
  else match s.ckp.st, s.ckp.cur with
    | .decanting, some r => ((s.onCkp (fun k => { k with st := .incomplete })).ckpErr 1 ckPoison).decantEnd r ckPoison
    | .draining, _ => s.endDry ckPoison .incomplete
    | .staging, _ => s.shardBad.endStaging ckShardBad
    | _, _ => if s.ckp.commit.any (·.copying) then s.shardBad.endCopy ckShardBad else s

/-! ### Resets (R365) -/

/-- R365: a Decant that is copying is abandoned; one that waits still waits. -/
def State.abandonDecant (s : State) : State :=
  match s.ckp.cur with
  | none => s
  | some r =>
    if s.ckp.phase = .copying then ((s.onCkp (fun k => { k with st := .incomplete })).ckpErr 0 ckAbandoned).decantEnd r ckAbandoned
    else s

/-- R365: a reset begins; `lost` for a Deck reset without self-refresh or a Package reset. -/
def State.ckpReset (lost : Bool) (s : State) : State :=
  let s := ((s.abandonDecant).endStaging ckInconsistent).endCopy ckInconsistent
  if lost then s.endDry ckDryLost .incomplete else s

/-! ### Releases (R33) -/

/-- ACTION_RELEASE (R33, R351, R352). -/
def execActionRelease (ref : ActionRef) (s : State) : Host.Outcome State Fault Refusal :=
  inService s (fun s => (State.release ref s).ckpAdvance.trkAdvance)

/-! ### Registers (R368) -/

/-- R347: STATE codes. -/
def SachetState.code : SachetState → Nat
  | .empty => 0
  | .decanting => 1
  | .held => 2
  | .draining => 3
  | .drained => 4
  | .incomplete => 5
  | .staging => 6
  | .verified => 7

/-- R368: PIECES_LEFT. -/
def State.piecesLeft (s : State) : Nat :=
  match s.ckp.dry, s.ckp.staging with
  | some d, _ => (d.pieces.filter (fun p => p != .acked)).length
  | none, some g => dataPieces (shardLen g.set) - g.placed.length
  | none, none => 0

/-- R368: CKP_STATUS. -/
def State.ckpStatus (s : State) : Nat :=
  s.ckp.foreignPieces.toNat * 2 ^ 32 + s.piecesLeft % 2 ^ 24 * 2 ^ 8 +
    s.ckp.queued * 16 + s.ckp.st.code

end Sys2Proof.Machine
end

