-- ==== Sys2Proof/Machine/Report.lean ====
section
/-!
DEFINITION. Report.lean: what the package says of itself: its inventory (R405), the stored configuration in force (R434), the clean report
(R306), and the attestation report (R441).
-/
namespace Sys2Proof.Machine

open Sys2Proof

/-! ### Inventory and configuration as bytes (log entry 13) -/

/-- A byte for an exposed instance: 0 on its own unit, 0x80 + position on a spare, 0xFF absent. -/
def UnitState.byte : UnitState → Byte
  | .own => 0
  | .onSpare p => BitVec.ofNat 8 (0x80 + p % 0x7F)
  | .absent => 0xFF

/-- Bytes for a spare: 0 free, 1 in use, 2 failed; and the index that it serves. -/
def SpareState.bytes : SpareState → List Byte
  | .free => [0, 0]
  | .used i => [1, BitVec.ofNat 8 i]
  | .failed => [2, 0]

/-- R405: the inventory: every exposed unit, every spare, every Deck, the rate of every stack, the wavelengths of every port. -/
def State.inventoryBytes (s : State) : List Byte :=
  let v := s.inv
  (v.tbl.toList ++ v.atm.toList ++ v.dlr.toList ++ v.sol.toList ++ v.shf.toList ++ v.hbmc.toList).map UnitState.byte ++
  joinBytes ((v.tblSpare.toList ++ v.atmSpare.toList ++ v.dlrSpare.toList ++ v.pdieSpare.toList).map SpareState.bytes) ++
  v.deckAbsent.toList.map (fun b => BitVec.ofNat 8 (bit01 b)) ++ [v.failedDies.setWidth 8] ++
  s.hbm.ctl.toList.map (fun c => c.rate.setWidth 8) ++
  joinBytes (s.fab.ports.toList.map (fun p => leBytes 2 p.activeW.toNat ++ leBytes 2 p.failed.toNat))

/-- R434, R435: the stored configuration in force; factory defaults hold no entry. -/
def State.configBytes (s : State) : List Byte :=
  match s.flash.config with
  | some c => if c.tagGood then joinBytes (c.fields.map configEntry) else []
  | none => []

/-! ### The clean report (R306, R313) -/

/-- R313: CLEAN. -/
def State.cleanBits (s : State) : Nat :=
  bit01 (s.hnd.inn.all (fun h => !h.holds)) + 2 * bit01 (s.fab.replay.isEmpty && s.fab.msgReplay.isEmpty) +
    4 * bit01 (s.hnd.rxq.toList.all (fun q => !q.valid)) + 8 * bit01 s.fab.ranks.isEmpty

/-! ### Attestation (R441) -/

/-- R439: BNK_SEC.SVN_FUSE. -/
def State.svnFuse (s : State) : Nat := max Config.fuseSvn.toNat s.flash.svnRaised

/-- R441: the attestation report over a nonce. -/
def State.attestReport (s : State) (nonce : List Byte) : List Byte :=
  leBytes 2 1 ++
  leBytes 2 (8 * bit01 s.job.attached + 4 * bit01 s.bnk.configDefault + 2 * bit01 s.bnk.swapped + bit01 s.bnk.debugOpen) ++
  leBytes 4 s.svnFuse ++ slice nonce 0 32 ++ digestBytes Config.identity ++ shake256 32 s.boot.running ++ digestBytes Config.romDigest ++
  shake256 32 s.configBytes ++ shake256 32 s.inventoryBytes ++
  digestBytes (if s.job.attached then s.job.imageDigest else 0) ++ leBytes 2 s.fab.jobTag.toNat ++ leBytes 2 s.fab.incarnation.toNat ++
  leBytes 8 s.stamp.toNat ++ leBytes 12 0

/-- R441: bytes of an ML-DSA-65 signature. -/
def sigLen : Nat := 3309

/-- A message signed by the package's identity key over its SHAKE256: 3,309 bytes. -/
def signed (m : List Byte) : List Byte := slice (Config.sign (shake256 32 m)) 0 sigLen

/-- R441: report and signature. -/
def State.attestation (s : State) (nonce : List Byte) : List Byte := let r := s.attestReport nonce; r ++ signed r

/-- R442: a partner's report passes: its certificate chains to the root, its signature verifies, the nonce matches and DEBUG_OPEN is 0. -/
def attestPasses (nonce : BitVec 256) (data : List Byte) : Bool :=
  let r := slice data 0 256
  let id := BitVec.ofNat 256 (leAt r 40 32)
  Config.chainOk (data.drop (256 + sigLen)) id && Config.verify id (shake256 32 r) (slice data 256 sigLen) &&
    BitVec.ofNat 256 (leAt r 8 32) == nonce && !((leAt r 2 2).testBit 0)

/-- R442: the identity digest in a report. -/
def attestIdentity (data : List Byte) : BitVec 256 := BitVec.ofNat 256 (leAt data 40 32)

end Sys2Proof.Machine
end

