-- ==== Sys2Proof/Machine/Partners.lean ====
section
/-!
DEFINITION. Partners.lean: what a node knows of its partners (R303-R308): heartbeats, hellos, departures, attestation, admission; suspects
and the witness (R379, R387-R389); fabric mailboxes (R424); rank updates (R300); receive queues (R314).
-/
namespace Sys2Proof.Machine

open Sys2Proof

/-! ### Operations that become unknown -/

/-- R388: a SUSPECT frame that becomes unknown is reported to the witness of this node's own tray. -/
def State.bankerUnknown (o : OutOp) (why : UnkReason) (s : State) : State :=
  let s := s.noteUnknown o why
  if o.pkt.hdr.kind = 0x23 then
    match s.myNode with
    | some n =>
      let w := s.witnessOf n.tray
      if w = some o.rank then s else s.suspectTo w o.pkt.data
    | none => s
  else s

/-- R278: an operation of any agent becomes unknown. -/
def State.opUnknown (o : OutOp) (why : UnkReason) (s : State) : State :=
  match o.kind with
  | .hand => s.handUnknown o why
  | .trick => s.trkUnknown o why
  | .banker => s.bankerUnknown o why
  | .msg => if o.core.isNone then s.ckpUnknown o why else s.coreUnknown o why
  | _ => s.coreUnknown o why

/-! ### Partners -/

/-- The partner with an identity digest. -/
def State.partner (s : State) (id : BitVec 256) : Option Partner := s.fab.partners.find? (fun p => p.identity = id)

/-- Change a partner. -/
def State.onPartner (id : BitVec 256) (f : Partner → Partner) (s : State) : State :=
  s.onFab (fun x => { x with partners := x.partners.map (fun p => if p.identity = id then f p else p) })

/-- A partner of which nothing is known. -/
def Partner.fresh (id : BitVec 256) (port : Fin 32) : Partner where
  identity := id
  rank := 0xFFFFFFFF
  port := port
  model := 1
  incarnation := 0
  lastBeat := 0
  misses := 0
  departed := false
  challenge := none
  attested := false
  reported := false
  clean := false
  readySince := none
  admitted := false

/-- Add a partner that is not known yet. -/
def State.knowPartner (id : BitVec 256) (port : Fin 32) (s : State) : State :=
  if (s.partner id).isSome then s else s.onFab (fun x => { x with partners := x.partners ++ [Partner.fresh id port] })

/-- The port on which a frame has come. -/
def Packet.port (p : Packet) : Fin 32 :=
  match p.dest with
  | .port x => x
  | .node _ | .detour _ => 0

/-- R306: since when, in ac, a partner has been both attested and clean. -/
def Partner.ready (now : Nat) (p : Partner) : Partner :=
  { p with readySince := if p.attested && p.clean then some (p.readySince.getD now) else none }

/-! ### Service records (R313) -/

/-- COUNT of a service record. -/
def srCount (p : Packet) : Count := BitVec.ofNat 48 (leAt p.data 0 8)
/-- RANK. -/
def srRank (p : Packet) : BitVec 32 := BitVec.ofNat 32 (leAt p.data 8 4)
/-- MODEL. -/
def srModel (p : Packet) : BitVec 8 := BitVec.ofNat 8 (leAt p.data 12 1)
/-- CLEAN. -/
def srClean (p : Packet) : Bool := leAt p.data 13 1 == 0x0F
/-- IDENTITY. -/
def srIdentity (p : Packet) : BitVec 256 := BitVec.ofNat 256 (leAt p.data 16 32)

/-- R303, R305: at phase 0, a heartbeat in a job and a hello outside one, on every up port. -/
def State.beat (s : State) : State :=
  if s.flt.fenced || !s.boot.ready then s
  else if s.fab.jobTag = 0 then s.sendService 0x21 0 s.cleanBits s.fab.prevJobTag.toNat
  else s.sendService 0x20 s.fab.jobTag 0 0

/-! ### Departures (R303, R304) -/

/-- R303, R304, R278, R294, R338, R365, R388: a partner is declared departed. -/
def State.declareDeparted (id : BitVec 256) (reasons : Nat) (s : State) : State :=
  match s.partner id with
  | none => s
  | some p =>
    if p.departed then s
    else
      let s := s.onPartner id (fun p => { p with departed := true, admitted := false, attested := false, challenge := none, readySince := none })
      if p.rank = 0xFFFFFFFF then s
      else
        let r := p.rank.toNat
        let s := (s.fab.ops.filter (fun o => o.rank = r && o.st == .outstanding)).foldl (fun s o =>
          if s.fab.ops.any (fun x => x.id = o.id && x.st == .outstanding) then s.opUnknown o .departed else s) s
        (((s.orphans r).trkDeparted r).ckpDeparted r).reportSuspect r reasons

/-- HEARTBEAT (R303): a partner's heartbeat arrives; one of a rank whose frames are dropped only from a partner that has been admitted (R304). -/
def execHeartbeat (p : Packet) (s : State) : Host.Outcome State Fault Refusal :=
  inService s (fun s =>
    if p.hdr.kind ≠ 0x20 ∨ s.flt.fenced then s
    else if p.hdr.jobTag ≠ s.fab.jobTag ∨ p.hdr.jobTag = 0 then s.dropForeign
    else
      let id := srIdentity p
      let r := (srRank p).toNat
      if (s.partner id).any (·.departed) ∨ (s.goneRank r p.hdr.epoch ∧ !(s.partner id).any (·.admitted)) then s.dropForeign
      else
        let c := srCount p
        let timely := decide (s.now ≤ c.toNat * 60000 + 2000)
        let s := if (s.partner id).any (·.admitted) then s.onFab (fun f => { f with gone := f.gone.filter (fun x => x.1 ≠ r || x.2.isSome) }) else s
        (s.knowPartner id p.port).onPartner id (fun x => { x with
          rank := srRank p, port := p.port, model := srModel p, incarnation := p.hdr.incarnation
          lastBeat := if timely && decide (c.toNat ≥ x.lastBeat.toNat) then c else x.lastBeat
          misses := if timely && decide (c.toNat > x.lastBeat.toNat + x.misses) then 0 else x.misses }))

/-- The latest cd whose heartbeats must have come by now (R303). -/
def State.beatDue (s : State) : Nat := if s.cad.phase ≥ 2000 then s.cad.count.toNat else s.cad.count.toNat - 1

/-- HEARTBEAT_MISS (R303): a heartbeat of a partner is missed; the third in a row departs it. -/
def execHeartbeatMiss (identity : BitVec 256) (s : State) : Host.Outcome State Fault Refusal :=
  inService s (fun s =>
    match s.partner identity with
    | none => s
    | some p =>
      if p.departed ∨ s.flt.fenced ∨ p.lastBeat = 0 ∨ p.lastBeat.toNat + p.misses + 1 > s.beatDue then s
      else
        let s := s.onPartner identity (fun p => { p with misses := p.misses + 1 })
        if p.misses + 1 ≥ 3 then s.declareDeparted identity 1 else s)

/-- FENCED (R379): its sender is declared departed at once. -/
def execFenced (p : Packet) (s : State) : Host.Outcome State Fault Refusal :=
  inService s (fun s =>
    if p.hdr.kind ≠ 0x22 ∨ s.flt.fenced then s
    else if p.hdr.jobTag ≠ s.fab.jobTag ∨ (s.partner (srIdentity p)).any (·.departed) ∨ s.goneRank (srRank p).toNat p.hdr.epoch then s.dropForeign
    else
      let id := srIdentity p
      ((s.knowPartner id p.port).onPartner id (fun x => { x with rank := srRank p })).declareDeparted id 17)

/-! ### Frames outside a job (R305, R311, R424) -/

/-- The 8 bytes of an identity digest that stand in a rank header. -/
def shortId (id : BitVec 256) : BitVec 64 := BitVec.ofNat 64 (leNat ((digestBytes id).take 8))

/-- A tagged frame of one kind that carries a rank header and no job tag is acted on once, when all of it has come. -/
def State.onService (kind : Nat) (p : Packet) (act : Packet → RankHdr → State → State × Bool) (s : State) : State :=
  match p.kh with
  | .rank h =>
    if p.hdr.kind.toNat ≠ kind ∨ (s.flt.fenced ∧ p.hdr.jobTag ≠ 0) then s
    else if p.hdr.jobTag ≠ 0 ∧ p.hdr.jobTag ≠ s.fab.jobTag then s.dropForeign
    else s.whole p (fun p => State.onceRanked (rankedKey p h) p (act p h))
  | _ => s

/-- The partner that a rank header names by the first bytes of its identity. -/
def State.partnerOf (s : State) (srcId : BitVec 64) : Option Partner := s.fab.partners.find? (fun p => shortId p.identity = srcId)

/-- Send a frame outside any job to a partner. -/
def State.sendOutside (code : Nat) (id : BitVec 64) (rank : BitVec 32) (dest : Dest) (hdr : RankHdr) (data : List Byte) (s : State) : State :=
  s.sendRanked .banker code 0 rank (keyId id) (if rank = 0xFFFFFFFF then 2 ^ 32 else rank.toNat) dest hdr data

/-- R305, R442: a partner is challenged with a fresh nonce. -/
def State.challenge (p : Partner) (s : State) : State :=
  let nonce := Config.entropy s.freeCtr
  let s := { s with freeCtr := s.freeCtr + 1 }
  (s.onPartner p.identity (fun x => { x with challenge := some nonce })).sendOutside 0x24 (shortId p.identity) 0xFFFFFFFF (.port p.port)
    (s.rankHdr 0xFFFFFFFF none) (digestBytes nonce)

/-- HELLO (R305): a partner outside a job is heard; a new one is challenged. -/
def execHello (p : Packet) (s : State) : Host.Outcome State Fault Refusal :=
  inService s (fun s =>
    if p.hdr.kind ≠ 0x21 ∨ p.hdr.jobTag ≠ 0 ∨ s.flt.fenced then s
    else
      let id := srIdentity p
      let s := (s.knowPartner id p.port).onPartner id (fun x => ({ x with
        port := p.port, model := srModel p, incarnation := p.hdr.incarnation, reported := true, clean := srClean p } : Partner).ready s.now)
      match s.partner id with
      | some x => if x.attested ∨ x.challenge.isSome then s else s.challenge x
      | none => s)

/-- ATTEST_REQ (R442): a challenge is answered with a signed report and the certificate chain. -/
def execAttestReq (p : Packet) (s : State) : Host.Outcome State Fault Refusal :=
  inService s (State.onService 0x24 p (fun p h s =>
    (s.sendOutside 0x25 h.srcId h.srcRank (.port p.port) (s.rankHdr h.srcRank (s.nodeOfRank h.srcRank.toNat)) (s.attestation (slice p.data 0 32) ++ Config.certificate), true)))

/-- Set bits of BNK_ERR, with their records (R446). -/
def State.bnkErr (bits : Nat) (s : State) (peer : BitVec 32 := 0xFFFFFFFF) : State :=
  let old := s.bnk.err.toNat
  let s := s.onBnk (fun b => { b with err := b.err ||| BitVec.ofNat 7 bits })
  (onesOf 7 bits).foldl (fun s i => if old.testBit i then s else s.record { cls := .corrected, block := .bnk, code := i, peer }) s

/-- R435: the tray position to which a TRAY port leads: the n-th TRAY port to the n-th of the other positions (log entry 13). -/
def State.trayPosition (s : State) (port : Fin 32) : Option Nat :=
  if s.fab.ports[port].role ≠ 1 then none
  else
    let n := ((List.finRange 32).filter (fun q => q.val < port.val && s.fab.ports[q].role == 1)).length
    let me := ((s.configField 0x28).getD 0).toNat % 8
    some (if n < me then n else n + 1)

/-- R435: the attested identity of a tray peer is held against the stored one. -/
def State.checkPeer (id : BitVec 256) (port : Fin 32) (s : State) : State :=
  match s.trayPosition port with
  | none => s
  | some pos =>
    match s.configField (0x20 + pos) with
    | some t => if t ≠ 0 ∧ t ≠ id then s.bnkErr 8 (BitVec.ofNat 32 pos) else s
    | none => s

/-- ATTEST_RSP (R442): a challenged partner's report is verified. -/
def execAttestRsp (p : Packet) (s : State) : Host.Outcome State Fault Refusal :=
  inService s (State.onService 0x25 p (fun p h s =>
    match s.partnerOf h.srcId with
    | none => (s, true)
    | some x =>
      match x.challenge with
      | none => (s, true)
      | some nonce =>
        let s := s.onPartner x.identity (fun y => { y with challenge := none })
        if attestPasses nonce p.data && attestIdentity p.data == x.identity then
          ((s.onPartner x.identity (fun y => ({ y with attested := true } : Partner).ready s.now)).checkPeer x.identity x.port, true)
        else (s, true)))

/-! ### Fabric mailboxes (R424) -/

/-- R418: a mailbox from its 4 KiB. -/
def MbxMsg.ofBytes (bs : List Byte) : MbxMsg where
  seq := BitVec.ofNat 32 (leAt bs 0 4)
  cmd := BitVec.ofNat 16 (leAt bs 4 2)
  status := BitVec.ofNat 16 (leAt bs 6 2)
  reqLen := BitVec.ofNat 16 (leAt bs 8 2)
  rspLen := BitVec.ofNat 16 (leAt bs 10 2)
  part := BitVec.ofNat 32 (leAt bs 12 4)
  arg := BitVec.ofNat 64 (leAt bs 16 8)
  own := (leAt bs 28 4).testBit 31
  last := (leAt bs 28 4).testBit 30
  payload := (bs.drop 32).take 4064

/-- R418: the 4 KiB of a mailbox. -/
def MbxMsg.bytes (m : MbxMsg) : List Byte :=
  leBytes 4 m.seq.toNat ++ leBytes 2 m.cmd.toNat ++ leBytes 2 m.status.toNat ++ leBytes 2 m.reqLen.toNat ++ leBytes 2 m.rspLen.toNat ++
  leBytes 4 m.part.toNat ++ leBytes 8 m.arg.toNat ++ leBytes 4 0 ++ leBytes 4 (bit01 m.own * 2 ^ 31 + bit01 m.last * 2 ^ 30) ++
  slice m.payload 0 4064

/-- R424: the response of a fabric mailbox goes to its requester. -/
def State.sendMbxRsp (m : Nat) (p : Partner) (msg : MbxMsg) (s : State) : State :=
  s.sendOutside 0x27 (shortId p.identity) p.rank (s.destOf p) { s.rankHdr p.rank (s.nodeOfRank p.rank.toNat) with slot := BitVec.ofNat 16 m } msg.bytes

/-- R424: a request from an attested job manager enters its fabric mailbox; one that repeats the SEQ and PART last answered is answered
again, and one that finds the mailbox in hand has no effect. -/
def State.takeMbxReq (p : Partner) (m : Nat) (msg : MbxMsg) (s : State) : State :=
  let box := vget s.bnk.mbx (16 + m) Mailbox.reset
  if box.msg.own then s
  else match box.kept.filter (fun k => k.seq = msg.seq ∧ k.part = msg.part) with
    | some k => s.sendMbxRsp m p k
    | none => s.onBnk (fun b => { b with mbx := vmod b.mbx (16 + m) (fun x => { x with msg := { msg with own := true }, from_ := some p.identity }) })

/-- MBX_REQ (R424). -/
def execMbxReq (p : Packet) (s : State) : Host.Outcome State Fault Refusal :=
  live s (State.onService 0x26 p (fun p h s =>
    if p.hdr.jobTag ≠ 0 then (s, false)
    else match s.partnerOf h.srcId with
    | some x => if x.attested && s.isJobManager x.identity && decide (h.slot.toNat < 16) then (s.takeMbxReq x h.slot.toNat (MbxMsg.ofBytes p.data), true)
        else (s, false)
    | none => (s, false)))

/-- MBX_RSP (R424): a response reaches the side that asked, which this package only acknowledges. -/
def execMbxRsp (p : Packet) (s : State) : Host.Outcome State Fault Refusal := inService s (State.onService 0x27 p (fun p _ s => (s, p.hdr.jobTag == 0)))

/-- MBX_EVENT (R424): a forwarded error record reaches a job manager, which this package only acknowledges. -/
def execMbxEvent (p : Packet) (s : State) : Host.Outcome State Fault Refusal := inService s (State.onService 0x28 p (fun _ _ s => (s, true)))

/-! ### Suspects (R389) -/

/-- SUSPECT (R389). -/
def execSuspect (p : Packet) (s : State) : Host.Outcome State Fault Refusal :=
  inService s (fun s =>
    match p.kh with
    | .rank h =>
      if p.hdr.kind ≠ 0x23 then s
      else
        let key := keyRank h.srcRank.toNat
        s.onRequest p h.srcRank.toNat (State.onMessage key p (fun p => State.onceMsg key p (fun s =>
          (s.witnessReport (BitVec.ofNat 32 (leAt p.data 8 4)) (leAt p.data 0 8 % 2 ^ 48) (leAt p.data 12 1 % 32)).tookMsg key p ocOk)))
    | _ => s)

/-- WITNESS_ENTRY_FREE (R389): at c+0 of the next window the entry is freed; a count above 1 is logged. -/
def execWitnessEntryFree (suspectRank : BitVec 32) (w : BitVec 48) (s : State) : Host.Outcome State Fault Refusal :=
  inService s (fun s =>
    match s.flt.entries.find? (fun e => e.suspect = suspectRank ∧ e.w = w.toNat) with
    | none => s
    | some e =>
      if s.now < 16 * (w.toNat + 1) * 60000 then s
      else
        let s := s.onFlt (fun f => { f with entries := f.entries.filter (fun x => !(x.suspect = suspectRank && x.w = w.toNat)) })
        if e.count > 1 then s.record (suspectRecord suspectRank w.toNat e.reasons.toNat e.count) else s)

/-! ### Admission (R306) -/

/-- R306: may a partner be admitted at the discovery epoch `c`? -/
def Partner.admissible (c : Nat) (p : Partner) : Bool :=
  !p.admitted && p.attested && p.clean && p.readySince.any (fun t => decide (t + 120000 ≤ c * 60000))

/-- R306: a partner is admitted. -/
def Partner.admitNow (now : Count) (p : Partner) : Partner := { p with admitted := true, departed := false, misses := 0, lastBeat := now }

/-- R306: the partners that a test picks are admitted. -/
def State.admitWhere (c : Count) (pick : Partner → Bool) (s : State) : State :=
  let abmos := s.fab.partners.any (fun p => pick p && p.model == 2)
  let s := s.onFab (fun f => { f with
    partners := f.partners.map (fun p => if pick p then p.admitNow c else p)
    gone := f.gone.filter (fun x => x.2.isSome || !(f.partners.any (fun p => pick p && p.rank.toNat == x.1))) })
  if abmos then s.onJob (fun j => { j with outside := true }) else s

/-- R306: the discovery epoch at count `c`. -/
def State.discover (c : Count) (s : State) : State :=
  if !s.job.attached ∨ s.flt.fenced then s
  else
    let dirty := (s.fab.partners.filter (fun p => !p.admitted && p.reported && !p.clean)).length
    (s.onFab (fun f => { f with notClean := satAdd f.notClean dirty })).admitWhere c (Partner.admissible c.toNat)

/-- R27, R306: the discovery epoch at count `c` is released, once. -/
def State.discoveryAt (c : Count) (s : State) : State :=
  if s.fab.epochs.contains c.toNat then s else (s.discover c).onFab (fun f => { f with epochs := f.epochs ++ [c.toNat] })

/-- DISCOVERY_EPOCH (R306). -/
def execDiscoveryEpoch (s : State) : Host.Outcome State Fault Refusal :=
  inService s (fun s => if s.cad.count.toNat % 1024 ≠ 0 ∨ s.cad.phase ≠ 0 then s else s.discoveryAt s.cad.count)

/-! ### Rank updates (R300) -/

/-- A rank-table entry from its 64 bits (R299): its node where it is VALID. -/
def rankNode (x : BitVec 64) : Option Node :=
  if x.getLsbD 63 then some ⟨BitVec.ofNat 16 (field x.toNat 47 32), BitVec.ofNat 6 (field x.toNat 29 24)⟩ else none

/-- Rewrite an entry of the rank table. -/
def setRank (rs : List RankEntry) (rank : Nat) (x : BitVec 64) : List RankEntry :=
  let rest := rs.filter (fun e => e.rank ≠ rank)
  match rankNode x with
  | some n => rest ++ [⟨rank, n⟩]
  | none => rest

/-- R300: the update in hand is applied. A rank that moves to another node is no longer the rank of a departed partner, whose frames of the
epochs before are still dropped (R304). -/
def State.applyUpdate (u : RankUpdate) (s : State) : State :=
  let ranks := u.entries.foldl (fun rs x => setRank rs x.1 x.2) s.fab.ranks
  let moved (r : Nat) : Bool := ((ranks.find? (fun e => e.rank = r)).map (·.node)) != s.nodeOfRank r
  s.onFab (fun f => { f with
    ranks := ranks, epoch := u.epoch, rankUpdate := none, rrc := []
    ops := f.ops.map (fun o => if o.want.isEmpty then o else { o with noInstall := o.want })
    partners := f.partners.map (fun p => if p.departed && moved p.rank.toNat then { p with rank := 0xFFFFFFFF } else p)
    gone := (f.partners.filter (fun p => p.departed && moved p.rank.toNat)).map (fun p => (p.rank.toNat, some u.epoch)) ++
      f.gone.map (fun x => if x.2.isNone && moved x.1 then (x.1, some u.epoch) else x) })

/-- RANK_UPDATE_RELEASE (R300). -/
def execRankUpdateRelease (s : State) : Host.Outcome State Fault Refusal :=
  inService s (fun s =>
    match s.fab.rankUpdate with
    | none => s
    | some u => if relReached s u.release.toNat then s.applyUpdate u else s)

/-! ### Receive queues (R314) -/

/-- R314: HND_RXQ_CFG from its 64 bits. -/
def RxQueue.setCfg (v : Nat) (q : RxQueue) : RxQueue := { q with
  pipBase := BitVec.ofNat 12 (field v 43 32), suit := BitVec.ofNat 4 (field v 31 28), slotLog2 := BitVec.ofNat 4 (field v 27 24)
  slots := BitVec.ofNat 12 (field v 12 1), valid := v.testBit 0 }

/-- R314: a write of HND_RXQ_BASE or HND_RXQ_CFG. -/
def State.writeRxq (q : Nat) (cfg : Bool) (v : Nat) (s : State) : State :=
  let x := vget s.hnd.rxq q ⟨0, 0, 0, 12, 0, false, []⟩
  if !x.busy.isEmpty then s.hndErr 8
  else s.onHnd (fun h => { h with rxq := vmod h.rxq q (fun x => if cfg then x.setCfg v else { x with base := BitVec.ofNat 64 (v / 4096 * 4096) }) })

/-- RXQ_WRITE (R314). -/
def execRxqWrite (q : Fin 64) (cfg : Bool) (v : W64) (s : State) : Host.Outcome State Fault Refusal :=
  inService s (fun s => s.writeRxq q cfg v.toNat)

/-! ### Messages and hands as commands -/

/-- MSG (R297). -/
def execMsg (p : Packet) (s : State) : Host.Outcome State Fault Refusal := inService s (State.onMsg p)

/-- A hand packet of one kind is acted on once (R290, R309); it goes by the source's rack slot. The data of its acknowledgement. -/
def State.onHand (kind : Nat) (p : Packet) (act : Packet → HandHdr → State → State × List Byte) (s : State) : State :=
  match p.kh with
  | .hand hh =>
    if p.hdr.kind.toNat ≠ kind then s
    else s.onRequest p (s.srcRank p) (State.whole p (fun p => State.onceOnly p (fun s => let r := act p hh s; (r.1, ocOk, r.2))))
  | _ => s

/-- HSTAGE (R290). -/
def execHstage (p : Packet) (s : State) : Host.Outcome State Fault Refusal :=
  inService s (State.onHand 0x08 p (fun p hh s => (s.takeStage p hh, [])))

/-- HVOTE (R290). -/
def execHvote (p : Packet) (s : State) : Host.Outcome State Fault Refusal :=
  inService s (State.onHand 0x09 p (fun p hh s =>
    (s.voteHand hh.hand p.hdr.srcSlot.toNat (hh.code == 1) hh.reason.toNat, [])))

/-- The hand of a header, where this node holds it voted. -/
def State.votedHere (s : State) (hh : HandHdr) : Option HandIn := (s.handIn hh.issuer.toNat hh.hand).filter (fun h => h.st == .voted)

/-- R290 step 5: a held hand is applied as one step, and acknowledged with the old values of its fetching entries; it waits for a channel or
link that retrains. One that is not held is answered STORE_UNKNOWN. -/
def State.takeShow (hh : HandHdr) (p : Packet) (s : State) : State :=
  match s.votedHere hh with
  | some h =>
    if !s.knownWrite p ∧ h.entries.any (fun e => let x := s.entryReach e; s.shutAt .fdie x.1 x.2) then s.waitStaged (s.srcKey p) p
    else s.onceOnly p (fun s => let r := s.showHere h; (r.1, ocOk, r.2))
  | none => s.onceOnly p (fun s => (s, ocStoreUnknown, []))

/-- An HSHOW arrives. -/
def State.onShow (p : Packet) (s : State) : State :=
  match p.kh with
  | .hand hh => if p.hdr.kind ≠ 0x0A then s else s.onRequest p (s.srcRank p) (State.whole p (State.takeShow hh))
  | _ => s

/-- HSHOW (R290). -/
def execHshow (p : Packet) (s : State) : Host.Outcome State Fault Refusal := inService s (State.onShow p)

/-- HFOLD (R290): a folded hand is discarded. -/
def execHfold (p : Packet) (s : State) : Host.Outcome State Fault Refusal :=
  inService s (State.onHand 0x0B p (fun _ hh s =>
    match s.handIn hh.issuer.toNat hh.hand with
    | some h => (if h.holds then s.letGo h .discarded else s, [])
    | none => (s, [])))

/-- HFOLD_REQ (R292): the issuer folds the hand unless it is past its commit point. -/
def execHfoldReq (p : Packet) (s : State) : Host.Outcome State Fault Refusal :=
  inService s (State.onHand 0x0C p (fun p hh s => (s.decideHand hh.hand false hh.reason.toNat p.hdr.srcSlot.toNat, [])))

/-- R304: the issuer of a hand, by its rack slot, is declared departed at once. -/
def State.departIssuer (slot : Nat) (s : State) : State :=
  let r := s.slotRank slot
  match s.fab.partners.find? (fun x => x.rank.toNat = r ∧ !x.departed) with
  | some x => s.declareDeparted x.identity 1
  | none => if s.departedRank r then s else (s.onFab (fun f => { f with gone := (r, none) :: f.gone })).orphans r

/-- An HQUERY (R294, R304): the holder declares the issuer departed, and answers with the state that it holds after every decision that it
received before: it waits behind an HSHOW that waits. -/
def State.onQuery (p : Packet) (s : State) : State :=
  match p.kh with
  | .hand hh =>
    if p.hdr.kind = 0x0D ∧ s.showWaits hh.issuer.toNat hh.hand then
      s.onRequest p (s.srcRank p) (fun s => (s.departIssuer hh.issuer.toNat).waitStaged (s.srcKey p) p)
    else s.onHand 0x0D p (fun _ hh s =>
      let s := s.departIssuer hh.issuer.toNat
      (s, leBytes 4 hh.hand.toNat ++ leBytes 1 hh.issuer.toNat ++ leBytes 1 (s.handStateCode hh.issuer.toNat hh.hand) ++ leBytes 10 0))
  | _ => s

/-- HQUERY (R294). -/
def execHquery (p : Packet) (s : State) : Host.Outcome State Fault Refusal := inService s (State.onQuery p)

/-! ### Traffic goes on (R247, R291, R377, R384) -/

/-- A packet that waited is handled again; an HSHOW, as one that came before its issuer may have departed (R294, R304). -/
def State.retryAny (key : Nat) (p : Packet) (s : State) : State :=
  match p.hdr.kind.toNat with
  | 0x0A => match p.kh with
    | .hand hh => s.takeShow hh p
    | _ => s
  | 0x0D => s.onQuery p
  | 0x18 => s.takeTrk p
  | _ => s.retryPacket key p

/-- R377: the operations held for a Deck are served, each once. -/
def State.releaseHeldOps (d : Fin 4) (s : State) : State :=
  let ps := s.fab.heldOps.filter (fun h => h.deck = d)
  ps.foldl (fun s h => s.retryAny h.key { h.pkt with hdr := { h.pkt.hdr with retry := false } })
    (s.onFab (fun f => { f with heldOps := f.heldOps.filter (fun h => h.deck ≠ d) }))

/-- R375: the pips that waited for a Deck rise. -/
def State.releaseHeldPips (d : Fin 4) (s : State) : State :=
  (s.fab.heldPips.filter (fun x => x.1 / 4 = d.val)).foldl (fun s x => s.raisePip x.1 x.2)
    (s.onFab (fun f => { f with heldPips := f.heldPips.filter (fun x => x.1 / 4 ≠ d.val) }))

/-- A retrain or a reset has ended: the packets that waited run in arrival order, staged hands are voted on, and collectives and a
Dry-down go on; what must still wait does. -/
def State.goOn (s : State) : State :=
  let ps := s.hnd.waiting
  let s := ps.foldl (fun s x => s.retryAny x.1 x.2) (s.onHnd (fun h => { h with waiting := [] }))
  let s := s.hnd.inn.foldl (fun s h => match s.handIn h.issuer h.num with
    | some g => if g.st = .staged ∧ s.mayVote g then s.checkAndVote g else s
    | none => s) s
  (s.trk.running.foldl (fun s c => s.trkProgress c.progSlot c.inst) s).dryStep

end Sys2Proof.Machine
end

