-- ==== Sys2Proof/Machine/Spares.lean ====
section
/-!
DEFINITION. Spares.lean: which unit serves an index (R9, R11, R15-R19): spares, substitution, retirement; what a failing physical unit
does (R400, R404, R409).
-/
namespace Sys2Proof.Machine

open Sys2Proof

/-! ### Exposed units and spares by number -/

/-- How the unit with an index of a block stands. -/
def Inventory.unitState (v : Inventory) (b : Block) (i : Nat) : UnitState :=
  match b with
  | .tbl => vget v.tbl i .absent
  | .atm => vget v.atm i .absent
  | .dlr => vget v.dlr i .absent
  | .sol | .cmp => vget v.sol i .absent
  | .shf => vget v.shf i .absent
  | .mem => vget v.hbmc i .absent
  | _ => .absent

/-- Set how a unit stands. -/
def Inventory.setUnit (b : Block) (i : Nat) (x : UnitState) (v : Inventory) : Inventory :=
  match b with
  | .tbl => { v with tbl := vput v.tbl i x }
  | .atm => { v with atm := vput v.atm i x }
  | .dlr => { v with dlr := vput v.dlr i x }
  | .sol | .cmp => { v with sol := vput v.sol i x }
  | .shf => { v with shf := vput v.shf i x }
  | .mem => { v with hbmc := vput v.hbmc i x }
  | _ => v

/-- A spare by slot: a Deck's spare stands in slot Deck; the P-die's eight in slots 4 to 11. -/
def Inventory.spare (v : Inventory) (b : Block) (slot : Nat) : SpareState :=
  match b with
  | .tbl => vget v.tblSpare slot .failed
  | .atm => vget v.atmSpare slot .failed
  | .dlr => if slot < 4 then vget v.dlrSpare slot .failed else vget v.pdieSpare (slot - 4) .failed
  | _ => .failed

/-- Set how a spare stands. -/
def Inventory.setSpare (b : Block) (slot : Nat) (x : SpareState) (v : Inventory) : Inventory :=
  match b with
  | .tbl => { v with tblSpare := vput v.tblSpare slot x }
  | .atm => { v with atmSpare := vput v.atmSpare slot x }
  | .dlr => if slot < 4 then { v with dlrSpare := vput v.dlrSpare slot x } else { v with pdieSpare := vput v.pdieSpare (slot - 4) x }
  | _ => v

/-- R15: the spares that may replace a unit. -/
def sparesFor (b : Block) (i : Nat) : List Nat :=
  match b with
  | .tbl | .atm => [i / 16]
  | .dlr => if i < 64 then [i / 16] else (upTo 8).map (fun n => 4 + n)
  | _ => []

/-- R399: the physical position of a spare; the P-die's spares are positions 128 to 135 (log entry 13). -/
def sparePos (slot : Nat) : Nat := if slot < 4 then 16 else 124 + slot

/-- The slot of the spare that serves index `i` from a position. -/
def slotOfPos (i pos : Nat) : Nat := if pos = 16 then i / 16 else pos - 124

/-- A unit loses the spare that it runs on. -/
def Inventory.loseSpare (b : Block) (i : Nat) (v : Inventory) : Inventory :=
  match v.unitState b i with
  | .onSpare p => v.setSpare b (slotOfPos i p) .failed
  | _ => v

/-- R15, R17, R19: a failed unit's index goes to a free spare of its kind, or is retired; and whether a spare took it. Which of several
free spares it is the spec leaves open: the one in the lowest slot (DESIGN CHOICE, log entry 22). -/
def Inventory.replace (b : Block) (i : Nat) (v : Inventory) : Inventory × Bool :=
  let v := v.loseSpare b i
  match (sparesFor b i).find? (fun slot => v.spare b slot == .free) with
  | some slot => ((v.setSpare b slot (.used i)).setUnit b i (.onSpare (sparePos slot)), true)
  | none => (v.setUnit b i .absent, false)

/-! ### Replacing a unit -/

/-- ON_SPARE of a unit (R116, R160, R231). -/
def State.markSpare (b : Block) (i : Nat) (s : State) : State :=
  match b with
  | .tbl => s.onEngine .tbl i (fun e => { e with onSpare := true })
  | .atm => s.onEngine .atm i (fun e => { e with onSpare := true })
  | .dlr => s.onCore (Fin.ofNat 192 i) (fun x => { x with onSpare := true })
  | _ => s

/-- The counted unit of an index of a kind that has spares. -/
def spareScore (b : Block) (i : Nat) : Option ScoUnit :=
  match b with
  | .tbl => some (.tbl (Fin.ofNat 64 i))
  | .atm => some (.atm (Fin.ofNat 64 i))
  | .dlr => some (.dlr (Fin.ofNat 192 i))
  | _ => none

/-- R17, R457: what the Scorecard keeps over a substitution, at power-on too. -/
def State.spareCounts (b : Block) (i : Nat) (s : State) : State :=
  (spareScore b i).elim s (fun u => s.onSco (Score.substitute u))

/-- R12, R115: over a run-time substitution a Tableau's Organ image, which lies below STAGE_BASE, is written into the spare's own Organ. What
that Organ holds at and above STAGE_BASE is unspecified: DESIGN CHOICE, for no rule carries it over (log entry 22). -/
def State.spareOrgan (b : Block) (i : Nat) (s : State) : State :=
  if s.boot.ready ∧ b = .tbl then s.onMem (Memory.stageOrgan i (vget s.eng.organSplit i 0).toNat) else s

/-- R17, R19: a failed unit is replaced or retired; a retired controller takes its stack with it (R232). -/
def State.replaceUnit (b : Block) (i : Nat) (s : State) : State × Bool :=
  let r := s.inv.replace b i
  let s := s.onInv (fun _ => r.1)
  if r.2 then (((s.markSpare b i).spareCounts b i).spareOrgan b i, true) else (if b = .mem then s.newGeometry else s, false)

/-! ### Physical units (R399, R404) -/

/-- The index that a physical unit serves. -/
def Inventory.served (v : Inventory) (u : UnitId) : Option (Block × Nat) :=
  let own (b : Block) (i : Nat) : Option (Block × Nat) := if v.unitState b i = .own then some (b, i) else none
  let used (b : Block) (slot : Nat) : Option (Block × Nat) :=
    match v.spare b slot with
    | .used i => some (b, i)
    | _ => none
  match u with
  | .tbl d p => if p.val < 16 then own .tbl (16 * d.val + p.val) else used .tbl d
  | .atm d p => if p.val < 16 then own .atm (16 * d.val + p.val) else used .atm d
  | .dlr d p => if p.val < 16 then own .dlr (16 * d.val + p.val) else used .dlr d
  | .pdlr p => if p.val < 128 then own .dlr (64 + p.val) else used .dlr (p.val - 124)
  | .sol i => own .sol i
  | .shf i => own .shf i
  | .hbmc i => own .mem i
  | .deckAdder _ | .lane _ | .fdie | .pdie => none

/-- A spare that fails replaces nothing. -/
def Inventory.failSpare (u : UnitId) (v : Inventory) : Inventory :=
  match u with
  | .tbl d p => if p = 16 then v.setSpare .tbl d .failed else v
  | .atm d p => if p = 16 then v.setSpare .atm d .failed else v
  | .dlr d p => if p = 16 then v.setSpare .dlr d .failed else v
  | .pdlr p => if p.val ≥ 128 then v.setSpare .dlr (p.val - 124) .failed else v
  | _ => v

/-- Is a physical unit a spare? -/
def UnitId.isSpare : UnitId → Bool
  | .tbl _ p | .atm _ p | .dlr _ p => p == 16
  | .pdlr p => decide (p.val ≥ 128)
  | _ => false

/-- R405: a Deck is absent, with every unit of it. -/
def State.dropDeck (d : Nat) (s : State) : State :=
  (s.onInv (fun v => { v with deckAbsent := vput v.deckAbsent d true }.dropAbsent)).newGeometry

/-- The Deck at whose scope a die link's failure is contained (R371): the first that the link names; none for the links to the F-die,
whose scope is Package. -/
def linkDeck (link : Nat) : Option Nat :=
  match link with
  | 0 | 1 | 2 => some 0
  | 3 | 4 => some 1
  | 5 => some 2
  | n => if n < 10 then none else some (n - 10)

/-- R404: the Deck that is absent when a die link fails with no spare lane left: of a link to the F-die or the P-die the Deck that it joins. -/
def linkOwner (link : Nat) : Nat := (linkDeck link).getD (link - 6)

/-- R384: another spare lane of a die link is in use. -/
def State.useLane (link : Nat) (s : State) : State :=
  s.onFlt (fun f => { f with spares := vmod f.spares link (· + 1), err := f.err ||| 1 })

/-- R400, R404, R409: a physical unit has failed; the indices that have been spared (true) or retired (false). A Deck that is absent for its
adder or a die link stands under TRK or FLT (log entry 13). -/
def State.failUnit (u : UnitId) (s : State) : State × List (Block × Nat × Bool) :=
  match s.inv.served u with
  | some (b, i) => let r := s.replaceUnit b i; (r.1, [(b, i, r.2)])
  | none =>
    match u with
    | .deckAdder d => (s.dropDeck d, [(.trk, d.val, false)])
    | .lane l => if (vget s.flt.spares l 0).toNat < 8 then (s.useLane l, []) else (s.dropDeck (linkOwner l), [(.flt, l.val, false)])
    | _ => (s.onInv (Inventory.failSpare u), [])

/-- Several physical units have failed; the spares among them first, for a failing spare replaces nothing. -/
def State.failUnits (us : List UnitId) (s : State) : State × List (Block × Nat × Bool) :=
  (us.filter UnitId.isSpare ++ us.filter (fun u => !u.isSpare)).foldl (fun acc u =>
    let r := acc.1.failUnit u
    (r.1, acc.2 ++ r.2)) (s, [])

/-- Is it a lane of a die link? -/
def UnitId.isLane : UnitId → Bool
  | .lane _ => true
  | _ => false

/-- R404: the persistent inventory takes up failures, each unit once; of a die link each of its lanes. -/
def State.persist (us : List UnitId) (s : State) : State :=
  if us.isEmpty then s else s.onFlash (fun f => f.putRecords (us.foldl (fun rs u => if !u.isLane && rs.contains (.unit u) then rs else rs ++ [.unit u]) f.records))

end Sys2Proof.Machine
end

