-- ==== Sys2Proof/Machine/Resets.lean ====
section
/-!
DEFINITION. Resets.lean: resets: the package's (R395, R410, R411, R464), and the containment resets of a Core, Suit or Deck (R370,
R372, R375-R378, R407-R412), with the alignment handshakes (R29-R31).
-/
namespace Sys2Proof.Machine

open Sys2Proof

/-! ### The package (R395, R411, R464, R465) -/

/-- R465: the profile in force: the lower of the straps' and the stored configuration's; 0 Air, 1 Liquid, 2 Immersion. -/
def profileOf (straps : BitVec 2) (cfg : Nat) : BitVec 2 := if straps = 3 ∨ cfg = 1 then 0 else straps

/-- R471: the temperatures last sampled, by which a tripped package may leave its trip, are kept. -/
def Power.keepTemps (p old : Power) : Power :=
  if p.tripped then { p with tempHbm := old.tempHbm, tempF := old.tempF, tempP := old.tempP, tempDeck := old.tempDeck } else p

/-- R277, R411, R464: the package is in reset: what is left is the flash, the fuses, the supply and the pins. `lost` where it had been out
of reset: its replay tables are lost and its incarnation increases. -/
def State.enterReset (lost : Bool) (s : State) : State :=
  let inc := if lost then s.flash.incarnation + 1 else s.flash.incarnation
  { State.reset with
    flash := { s.flash with incarnation := inc }
    fab := { Fabric.reset with incarnation := inc }
    boot := { Boot.reset with supply := s.boot.supply, pwrOk := s.boot.pwrOk }
    pwr := { Power.reset with
      vin := s.pwr.vin, straps := s.pwr.straps, profile := s.pwr.profile, thermN := s.pwr.thermN, tripped := s.pwr.tripped
      detached := s.pwr.detached }.keepTemps s.pwr
    jtag := s.jtag, tx := s.tx, irq := s.irq, freeCtr := s.freeCtr, pending := s.pending }

/-- R394, R395: the reset ends: the boot ROM and cadence acquisition start. -/
def State.leaveReset (straps : BitVec 2) (s : State) : State :=
  ((s.onBoot (fun b => { b with rstN := true, stage := 3 })).onPwr (fun p => { p with
    straps := straps, profile := profileOf straps ((s.configField 1).getD 0).toNat })).dutyStep

/-! ### Scopes (R370, R410) -/

/-- R370: scope codes. -/
def Scope.code : Scope → Nat
  | .core _ _ => 1
  | .suit _ => 2
  | .deck _ => 3
  | .package => 4

/-- The Deck of a scope; none for the P-die's cores and the package. -/
def Scope.deckOf : Scope → Option Nat
  | .core .dlr i => if i.val < 64 then some (i.val / 16) else none
  | .core b i => b.engKind.map (fun k => engineSuit k i / 4)
  | .suit x => some (x.val / 4)
  | .deck d => some d.val
  | .package => none

/-- The Suit of a Core scope. -/
def Scope.suitOf : Scope → Option Nat
  | .core .dlr i => if i.val < 64 then some (i.val / 4) else none
  | .core b i => b.engKind.map (fun k => engineSuit k i)
  | .suit x => some x.val
  | _ => none

/-- R410: is one scope within another? -/
def Scope.within (a b : Scope) : Bool :=
  match b with
  | .package => true
  | .deck d => a.deckOf == some d.val
  | .suit x => a.suitOf == some x.val
  | .core _ _ => a == b

/-- R372: the next larger scope; none beyond Package. -/
def Scope.larger (sc : Scope) : Option Scope :=
  match sc with
  | .core _ _ => some (match sc.suitOf with
    | some x => .suit (Fin.ofNat 16 x)
    | none => .package)
  | .suit x => some (.deck (Fin.ofNat 4 (x.val / 4)))
  | .deck _ => some .package
  | .package => none

/-- R31: does a scope hold clock-domain crossings? A Dealer core has one between its clock and the arithmetic clock; an engine of a Core
scope runs on the arithmetic clock alone (DEDUCED from R21 and R408's 'or 0'; log entry 22). -/
def Scope.crosses (sc : Scope) : Bool :=
  match sc with
  | .core b _ => b == .dlr
  | _ => true

/-- Is there such a scope in this package? -/
def State.scopeExists (s : State) (sc : Scope) : Bool :=
  match sc with
  | .core .dlr i => vget s.inv.dlr i .absent != .absent
  | .core b i => b.engKind.isSome && s.inv.unitState b i != .absent
  | .suit x => !(vget s.inv.deckAbsent (x.val / 4) true)
  | .deck d => !(s.inv.deckAbsent[d])
  | .package => true

/-- The engines of a scope. -/
def Scope.engines (sc : Scope) : List (EngKind × Fin 64) :=
  ([EngKind.tbl, .atm, .sol, .shf].map (fun k => ((List.finRange 64).filter (fun (i : Fin 64) =>
    decide (i.val < k.count) && sc.hasEngine k i.val)).map (fun i => (k, i)))).flatten

/-- The Dealer cores of a scope. -/
def Scope.cores (sc : Scope) : List (Fin 192) := (List.finRange 192).filter sc.hasCore

/-- R374, R375: in a Core reset a Tableau or Atomizer keeps its descriptors; every other engine loses them. -/
def Scope.drains (sc : Scope) (k : EngKind) : Bool :=
  match sc with
  | .core _ _ => k == .tbl || k == .atm
  | _ => false

/-- The block and number by which a record names a scope; a Deck or the package stand under FLT (log entry 13). -/
def Scope.source : Scope → Block × Nat
  | .core b i => (b, i.val)
  | .suit x => (.suit, x.val)
  | .deck d => (.flt, d.val)
  | .package => (.flt, 0)

/-! ### Step 1: quiesce (R375, R407) -/

/-- R189, R373: the problems not committed that a Solitaire discards count no longer in RANGE_COUNT. -/
def State.uncountRange (i : Nat) (s : State) : State :=
  let r := (s.engine .sol i).head.run
  let n := (r.problems.filter (fun p => p.rangeBad && decide (r.committed ≤ p.idx))).length
  s.onEng (fun x => { x with cmp := vmod x.cmp i (fun c => { c with rangeCount := c.rangeCount - BitVec.ofNat 13 n }) })

/-- R373: the running descriptor's uncommitted state is discarded, and it runs again from its start. A Solitaire writes the outputs of the
problems that it has committed again, and counts none of them twice. -/
def State.rewind (k : EngKind) (i : Nat) (s : State) : State :=
  let s := if k = .sol then s.uncountRange i else s
  s.onHead k i (fun h =>
    if k = .sol then { h with run := { h.run with problems := [], assembled := 0 } }
    else { h with flags := {}, empty := false, truncCap := false, run := { wide := h.run.wide } })

/-- R375: what an engine's reset does to its work: it is kept for replay, waiting, or every descriptor ends with RESET. -/
def State.quiesceEngine (sc : Scope) (k : EngKind) (i : Nat) (s : State) : State :=
  if sc.drains k then
    let s := s.onEngine k i (fun e => { e with runBit := false })
    let p := (s.engine k i).head.phase
    if p = .running ∨ p = .waitPips then (s.rewind k i).onHead k i (fun h => { h with phase := .finished }) else s
  else
    let s := if k = .sol ∧ (s.engine k i).head.phase = .running then s.solRest i else s
    -- what the RESET record of the descriptor in hand tells of it stays (R109, R186): its stamp, RELEASE_LATE and N_FALLBACK
    s.onEngine k i (fun e => { e with
      runBit := false
      head := { Head.idle with start := e.head.start, late := e.head.late, run := { Head.idle.run with fallbacks := e.head.run.fallbacks } }
      fifo := e.fifo.map (fun x => { x with status := BitVec.ofNat 16 stReset }) })

/-- R407: a Dealer core halts at an instruction boundary; its context stays in place. -/
def Core.quiesce (x : Core) : Core := { x with runBit := false, halted := true, haltingSince := none }

/-- Die links of a Deck (R390). -/
def deckLinks (d : Nat) : List Nat := [[0, 1, 2], [0, 3, 4], [1, 3, 5], [2, 4, 5]].getD d [] ++ [6 + d, 10 + d]

/-- R412: retrains in progress within a Deck that is reset are abandoned. -/
def State.abandonRetrains (d : Nat) (s : State) : State :=
  let s := (upTo 4).foldl (fun s k => s.onCtl (4 * d + k) (fun c => { c with retraining := 0, retrainFails := [] })) s
  s.onFlt (fun f => { f with repairing := f.repairing.filter (fun x => !((deckLinks d).contains x.1.val)) })

/-- R410: may a reset begin: is none in progress of its scope, nor in its Deck? -/
def State.mayBegin (s : State) (sc : Scope) : Bool :=
  s.resets.all (fun r => r.scope != sc && r.scope != .package && !(sc.deckOf.isSome && r.scope.deckOf == sc.deckOf))

/-- R407 step 1, R410: a containment reset begins: what it stops, drains and absorbs; its work takes up that of the smaller ones it took over. -/
def State.startReset (q : ResetReq) (s : State) : State :=
  let sc := q.scope
  let run : ResetRun :=
    { scope := sc, step := 1, began := q.began, heldFrom := s.now, since := s.now, reentry := none, hbmKept := !q.controller
      cores := sc.cores.filter (fun c => ((s.core c).runBit || q.cores.contains c) && !q.dead.contains c)
      engines := sc.engines.filter (fun e => (s.engine e.1 e.2).runBit || q.engines.contains e)
      workLost := q.workLost, replayed := q.replayed }
  let s := sc.engines.foldl (fun s e => s.quiesceEngine sc e.1 e.2) s
  let s := sc.cores.foldl (fun s c => s.onCore c Core.quiesce) s
  let s := match sc with
    | .deck d => (s.trkReset [d.val]).abandonRetrains d
    | _ => s
  let s := { s with resets := s.resets ++ [run], resetReqs := s.resetReqs.filter (fun x => x.scope ≠ sc) }
  s.ckpReset (match sc with
    | .deck _ => q.controller
    | _ => false)

/-- R410: the resets that wait begin as far as they may, in the order in which they were asked for. -/
def State.startResets (s : State) : State :=
  s.resetReqs.foldl (fun s q => if s.mayBegin q.scope then s.startReset q else s) s

/-- R410: a containment reset is asked for. One in progress, or one that waits, whose scope holds it absorbs it; it begins at once, or waits
until a smaller one has stopped, or another of its Deck has ended. -/
def State.requestReset (q : ResetReq) (s : State) : State :=
  let sc := q.scope
  if !s.boot.ready ∨ s.failed ∨ sc = .package ∨ !(s.scopeExists sc) ∨ s.resets.any (fun r => sc.within r.scope) then s
  else if s.resetReqs.any (fun x => sc.within x.scope) then
    { s with resetReqs := s.resetReqs.map (fun (x : ResetReq) => if sc.within x.scope then
        { x with dead := x.dead ++ q.dead, workLost := x.workLost || q.workLost } else x) }
  else
    let inner : List ResetReq := s.resetReqs.filter (fun x => x.scope.within sc)
    let q := { q with dead := q.dead ++ (inner.map ResetReq.dead).flatten, workLost := q.workLost || inner.any ResetReq.workLost }
    ({ s with resetReqs := s.resetReqs.filter (fun (x : ResetReq) => !(x.scope.within sc)) ++ [q] }).startResets

/-- A containment reset of a scope, for a fault detected now. -/
def State.beginReset (sc : Scope) (controller : Bool) (s : State) : State := s.requestReset { scope := sc, controller, began := s.now }

/-- R410: a smaller reset stops at the end of a step where a larger one waits that contains it: its work goes to the larger one, which begins. -/
def State.stepEnds (sc : Scope) (s : State) : State :=
  match s.resets.find? (fun r => r.scope = sc), s.resetReqs.find? (fun q => sc.within q.scope && q.scope != sc) with
  | some r, some q =>
    ({ s with
      resets := s.resets.filter (fun x => x.scope ≠ sc)
      resetReqs := s.resetReqs.map (fun (x : ResetReq) => if x.scope = q.scope then { x with
        cores := x.cores ++ r.cores, engines := x.engines ++ r.engines
        dead := x.dead ++ (if r.workLost then sc.cores.filter (fun c => !r.cores.contains c) else [])
        workLost := x.workLost || r.workLost, replayed := x.replayed || r.replayed } else x) }).startResets
  | _, _ => s

/-- Change the reset of a scope. -/
def State.onReset (sc : Scope) (f : ResetRun → ResetRun) (s : State) : State :=
  { s with resets := s.resets.map (fun r => if r.scope = sc then f r else r) }

/-- R375: the outstanding loads, RGETs, fetching ATOMs and hands of a core whose work is lost are absorbed: their outcomes go nowhere. -/
def State.absorb (c : Fin 192) (s : State) : State :=
  let s := s.onFab (fun f => { f with ops := f.ops.map (fun o =>
    if o.core = some c ∧ (o.kind = .load ∨ o.kind = .rget ∨ s.waitsFor o) then { o with core := none } else o) })
  let s := s.onHnd (fun h => { h with out := h.out.map (fun x => if x.core = c then { x with absorbed := true } else x) })
  s.onCore c (fun x => { x with stall := none })

/-- R373, R375: an uncorrectable word in the retired registers of a Dealer core: the core stops, and it is contained at Core scope with its
work lost. Its context cannot be carried over, and the core does not run again by itself (DEDUCED, log entry 22). -/
def State.coreLost (c : Fin 192) (s : State) : State :=
  ((s.onCore c Core.quiesce).absorb c).requestReset { scope := .core .dlr c, controller := false, began := s.now, dead := [c], workLost := true }

/-- PARTIAL_RESET (R407): a containment reset of a Core, Suit or Deck begins; `controller` where the fault lies in an HBM4 controller or its
interface. -/
def execPartialReset (sc : Scope) (controller : Bool) (s : State) : Host.Outcome State Fault Refusal :=
  inService s (State.beginReset sc controller)

/-! ### Steps 2 to 4 (R370, R378, R407) -/

/-- R370: what a Deck reset clears: Suit buffers and pip boards. -/
def State.clearDeck (d : Nat) (s : State) : State :=
  let inBuf (key : Nat) : Bool := decide (0x0100_0000_0000 ≤ key) && decide (key < 0x0102_0000_0000) && decide ((key - 0x0100_0000_0000) / 0x0800_0000 = d)
  let s := s.onMem (fun m => { m with
    cells := m.cells.filter (fun c => !(inBuf c.1)), poison := m.poison.filter (fun l => !(inBuf (l * 64))) })
  let s := { s with pdc := s.pdc.filter (fun l => !(inBuf (l * 64))) }
  s.onHbm (fun h => { h with
    pips := h.pips.filter (fun p => p / 4096 / 4 ≠ d), raised := h.raised.filter (fun p => p / 4096 / 4 ≠ d) })

/-- The tile registers of the Atomizers of a scope hold nothing after its reset. -/
def State.clearTiles (sc : Scope) (s : State) : State :=
  s.onEng (fun x => { x with tileRegs := Vector.ofFn (fun i => if sc.hasEngine .atm i then [] else x.tileRegs[i]) })

/-- R457: the counted units of a scope. -/
def Scope.scores (sc : Scope) : List ScoUnit :=
  sc.engines.map (fun e => scoEngine e.1 e.2.val) ++ sc.cores.map .dlr ++
    (match sc with
      | .deck d => (upTo 4).map (fun k => .mem (Fin.ofNat 16 (4 * d.val + k)))
      | _ => [])

/-- R457: a reset of a scope resets its units' counters; a Deck's zeroes its sample buffer. -/
def State.clearScores (sc : Scope) (s : State) : State :=
  let s := s.onSco (fun x => sc.scores.foldl (fun x u => x.resetUnit u) x)
  match sc with
  | .deck d => s.zeroSamples d.val
  | _ => s

/-- The reset of a scope at a step. -/
def State.resetAt (s : State) (sc : Scope) (step : Nat) : Option ResetRun := s.resets.find? (fun r => r.scope = sc ∧ r.step = step)

/-- R407 step 4: the first c+0 at least 6,000 ac after step 3 has ended. -/
def reentryOf (ended : Nat) : Nat := ceilDiv (ended + 6000) 60000

/-- R407, R408: step 2 takes a Deck the time that its HBM enters self-refresh, 2,000 ac (DEDUCED from the example of R408, log entry 22); the
others have nothing to do in it. -/
def memoryStep (sc : Scope) : Nat :=
  match sc with
  | .deck _ => 2000
  | _ => 0

/-- R378: a hand that this node has voted STAGED is neither shown nor folded yet. -/
def State.handsVoted (s : State) : Bool := s.hnd.inn.any (fun h => h.st == .voted)

/-- A cadence time in the form of R32. -/
def stampOf (t : Nat) : BitVec 64 := BitVec.ofNat 64 (t / 60000 * 65536 + t % 60000)

/-! ### A Package reset (R372, R378, R411) -/

/-- R375: what is absorbed when the package is reset: descriptors and collectives end with RESET, hands staged and not voted are folded with
reason RESET, a Decant and a Dry-down end. -/
def State.packageQuiesce (s : State) : State :=
  let s := { s with cores := s.cores.map Core.quiesce }
  let s := (Scope.package.engines.filter (fun e => !(s.engine e.1 e.2).fifo.isEmpty)).foldl (fun s e =>
    (s.quiesceEngine .package e.1 e.2).drainReset e.1 e.2 64) s
  let s := ((s.trkReset [0, 1, 2, 3]).ckpReset true).endReads ckInconsistent
  (s.hnd.inn.filter (fun h => h.st == .staged)).foldl (fun s h => s.foldVote h foldReset) s

/-- R391: the record of a Package reset, which readiness produces: no work of before is replayed. -/
def packageRecord (began : Nat) : ErrRec :=
  { cls := .contained, block := .flt, unit := 0, scope := 4, code := 0x0107, stamp := stampOf began, workLost := true }

/-- R378, R411: the quiesce of a Package reset ends when no voted hand is left: FENCED is sent, and power-on runs from step 3 with the
supply left running. -/
def State.packageEnd (s : State) : State :=
  match s.resets.find? (fun r => r.scope == .package) with
  | none => s
  | some r =>
    if s.handsVoted then s
    else (((s.retireFailing.sendFenced 0x0107).enterReset true).leaveReset s.pwr.straps).onBoot (fun b => { b with
      scopeReset := some (packageRecord r.began) })

/-- R410, R411: a Package reset begins; it supersedes all others. -/
def State.packageReset (s : State) : State :=
  if s.packageResetting then s
  else
    let run : ResetRun :=
      { scope := .package, step := 1, began := s.now, since := s.now, reentry := none, hbmKept := false, cores := [], engines := []
        workLost := true, replayed := false }
    { s.packageQuiesce with resets := [run], resetReqs := [] }.packageEnd

/-- PACKAGE_RESET (R411). -/
def execPackageReset (s : State) : Host.Outcome State Fault Refusal := live s State.packageReset

/-! ### Escalation (R371, R372) -/

/-- R371, R372: a fault is contained at a scope; the package's at once. -/
def State.contain (sc : Scope) (controller : Bool) (s : State) : State :=
  match sc with
  | .package => s.packageReset
  | _ => s.beginReset sc controller

/-- R372: a containment that has failed is recorded and moves to the next larger scope, its reset stopped where it stands; beyond Package the
fault is Uncontained. -/
def State.escalate (sc : Scope) (s : State) : State :=
  let src := sc.source
  match sc.larger with
  | some l =>
    (s.record { cls := .contained, block := src.1, unit := src.2, scope := l.code, code := 0x0108, detail := sc.code }).contain l false |>.stepEnds sc
  | none => s.fenceNode { cls := .uncontained, block := src.1, unit := src.2, scope := sc.code, code := 0x0108, detail := sc.code }

/-! ### Die-link lanes (R384, R371, R412) -/

/-- R384, R371: a link that needs a ninth spare is down, and its failure is contained. -/
def State.linkDown (link : Nat) (s : State) : State :=
  let s := s.onFlt (fun f => { f with err := f.err ||| 2 })
  let sc : Scope := match linkDeck link with
    | some d => .deck (Fin.ofNat 4 d)
    | none => .package
  (s.record { cls := .contained, block := .flt, unit := link, scope := sc.code, code := 1 }).contain sc false

/-- Does a Deck reset hold the link's retrain (R412)? -/
def State.linkInReset (s : State) (link : Nat) : Bool := s.resets.any (fun r => match r.scope with
  | .deck d => (deckLinks d).contains link
  | _ => false)

/-- R384: a lane of a link goes to a spare lane by a retrain of the link; with no spare lane left the link is down. -/
def State.repairLane (link : Fin 14) (s : State) : State :=
  if (s.flt.spares[link]).toNat < 8 then s.onFlt (fun f => { f with repairing := f.repairing ++ [(link, s.now)] }) else s.linkDown link

/-- R412: the lane repairs that waited begin, one for each link, once no reset and no repair holds their link. -/
def State.startRepairs (s : State) : State :=
  s.flt.repairReq.foldl (fun s l =>
    if s.flt.repairing.any (fun x => x.1 = l) ∨ s.linkInReset l then s.onFlt (fun f => { f with repairReq := f.repairReq ++ [l] })
    else s.repairLane l) (s.onFlt (fun f => { f with repairReq := [] }))

/-! ### Steps 2 to 4 of a partial reset -/

/-- R370, R407 step 3: the state of a scope is cleared. -/
def State.clearScope (sc : Scope) (s : State) : State :=
  let s := (s.clearTiles sc).clearScores sc
  let s := sc.cores.foldl (fun s c => s.onCore c (fun x => { x with cycle := 0 })) s
  match sc with
  | .deck d => s.clearDeck d
  | _ => s

/-- R407: step 2 of a reset ends: its logic is held in reset. -/
def State.holdLogic (sc : Scope) (s : State) : State :=
  match s.resetAt sc 2 with
  | none => s
  | some r =>
    if r.since + memoryStep sc ≤ s.now then
      ((s.clearScope sc).onReset sc (fun r => { r with step := 3, since := r.since + memoryStep sc })).stepEnds sc
    else s

/-- R407: step 3 of a reset ends after 1,000 ac: its re-entry release is set. -/
def State.setReentry (sc : Scope) (s : State) : State :=
  match s.resetAt sc 3 with
  | none => s
  | some r =>
    if r.since + 1000 ≤ s.now then
      (s.onReset sc (fun r => { r with
        step := 4, since := r.since + 1000, reentry := some (BitVec.ofNat 48 (reentryOf (r.since + 1000))) })).stepEnds sc
    else s

/-- R407: time passes for a reset in steps 2 and 3. -/
def State.resetTime (sc : Scope) (s : State) : State := (s.holdLogic sc).setReentry sc

/-- R407: time passes for every reset in progress. -/
def State.resetsTime (s : State) : State := s.resets.foldl (fun s r => s.resetTime r.scope) s

/-- RESET_QUIESCE_DONE (R378, R407): no voted hand is held: step 2 begins, unless a larger reset takes over (R410). -/
def execResetQuiesceDone (sc : Scope) (s : State) : Host.Outcome State Fault Refusal :=
  inService s (fun s =>
    match s.resetAt sc 1 with
    | none => s
    | some _ =>
      if s.handsVoted then s
      else if sc = .package then s.packageEnd
      else ((s.onReset sc (fun r => { r with step := 2, since := s.now })).stepEnds sc).holdLogic sc)

/-! ### Step 5 (R377, R407) -/

/-- The stacks of a Deck that are present. -/
def State.deckStacks (s : State) (d : Nat) : List Nat := ((upTo 4).map (fun k => 4 * d + k)).filter (fun k => vget s.inv.hbmc k .absent != .absent)

/-- R377, R401: the stacks of a Deck are written poisoned, and train anew from the highest rate. -/
def State.rewriteStacks (ks : List Nat) (s : State) : State :=
  let s := ks.foldl (fun (s : State) k => (s.onMem (fun m => m.loseStack k)).onCtl k (fun c => { c with trained := false })) s
  s.onBoot (fun b => { b with attempts := ks.foldl (fun v k => vput v k 0) b.attempts })

/-- R407, R412: every channel in service of the Deck's stacks retrains, all at once, keeping its rate (R21); retrains that were asked for wait. -/
def State.retrainStacks (ks : List Nat) (s : State) : State :=
  ks.foldl (fun s k => s.onCtl k (fun c => { c with
    retraining := BitVec.ofNat 32 (((upTo 32).filter (fun ch => !(c.fencedCh.getLsbD ch) && !(c.retired.getLsbD (2 * ch)))).foldl (fun n ch => n + 2 ^ ch) 0)
    retrainFails := [] })) s

/-- R407: step 5 of a reset ends when its stacks have trained, its channels retrained and its die links too; step 6 begins, unless a larger
reset takes over. -/
def State.fiveDone (sc : Scope) (s : State) : State :=
  match s.resetAt sc 5 with
  | none => s
  | some r =>
    let busy := match sc with
      | .deck d => (s.deckStacks d).any (fun k => (s.ctl k).retraining != 0)
      | _ => false
    if r.toTrain.isEmpty && r.links.isEmpty && !busy then (s.onReset sc (fun r => { r with step := 6, since := s.now })).stepEnds sc else s

/-- R407: step 4 of a reset ends, and step 5 begins: a Deck's channels and die links retrain, or its stacks are poisoned and train anew. -/
def State.enterFive (sc : Scope) (s : State) : State :=
  match s.resetAt sc 4 with
  | none => s
  | some r =>
    let ks := match sc with
      | .deck d => s.deckStacks d
      | _ => []
    let ls := match sc with
      | .deck d => deckLinks d
      | _ => []
    let s := s.onReset sc (fun r => { r with step := 5, since := s.now, marker := none, toTrain := if r.hbmKept then [] else ks, links := ls })
    let s := s.stepEnds sc
    if (s.resetAt sc 5).isNone then s
    else (if r.hbmKept then s.retrainStacks ks else s.rewriteStacks ks).fiveDone sc

/-- R31, R407 step 4: the re-entry release of a scope has come: its handshake begins at marker M = `c`, or is skipped where the scope holds no
crossing. -/
def State.reenter (sc : Scope) (c : Count) (s : State) : State :=
  match s.resetAt sc 4 with
  | none => s
  | some r =>
    if r.marker.isSome then s
    else if sc.crosses then s.onReset sc (fun r => { r with attempts := 0, marker := some c })
    else s.enterFive sc

/-- RESET_REENTRY (R31, R407): at the re-entry release the scope re-enters, or it does not, which fails its reset (R372). -/
def execResetReentry (e : Reentry) (s : State) : Host.Outcome State Fault Refusal :=
  inService s (fun s =>
    match s.resetAt e.scope 4 with
    | none => s
    | some r =>
      let c := r.reentry.getD 0
      if s.now < c.toNat * 60000 ∨ r.marker.isSome then s
      else if e.enters then s.reenter e.scope c
      else s.escalate e.scope)

/-! ### The alignment handshake (R29-R31) -/

/-- R30: the dies whose crossings mismatched are reported failed. -/
def State.reportDies (mismatch : BitVec 6) (s : State) : State :=
  s.onInv (fun v => { v with failedDies := v.failedDies ||| mismatch })

/-- R29, R30, R405: the samples of the package's handshake: on a mismatch it repeats from the next marker; at the third failure a Deck that mismatches is absent, and a mismatch on the F-die
or P-die fails bring-up. -/
def State.bootSamples (mismatch : BitVec 6) (s : State) : State :=
  match s.cad.markerM with
  | none => s
  | some m =>
    if s.cad.st ≠ .aligning ∨ s.now < (m.toNat + 4) * 60000 + 1024 then s
    else if mismatch = 0 then s.aligned
    else if s.cad.attempts < 2 then
      s.onCad (fun c => { c with attempts := c.attempts + 1, markerM := if c.alignFree then some (c.count + 1) else none })
    else
      let s := (s.reportDies mismatch).onInv (fun v =>
        { v with deckAbsent := Vector.ofFn (fun d => v.deckAbsent[d] || mismatch.getLsbD d) }.dropAbsent)
      if mismatch.getLsbD 4 || mismatch.getLsbD 5 then
        (s.onCad (fun c => { c with attempts := 3, markerM := none })).bootFail 1
      else s.aligned

/-- The die whose crossings a scope's handshake covers: its Deck, or the P-die. -/
def Scope.die (sc : Scope) : Nat := sc.deckOf.getD 5

/-- R31: the samples of a scope's handshake, at M+4, phase 1,024. -/
def State.scopeSamples (mismatch : BitVec 6) (r : ResetRun) (s : State) : State :=
  match r.marker with
  | none => s
  | some m =>
    if s.now < (m.toNat + 4) * 60000 + 1024 then s
    else if !(mismatch.getLsbD r.scope.die) then s.enterFive r.scope
    else if r.attempts < 2 then s.onReset r.scope (fun r => { r with attempts := r.attempts + 1, marker := some (s.cad.count + 1) })
    else (s.reportDies (BitVec.ofNat 6 (2 ^ r.scope.die))).escalate r.scope

/-- ALIGNMENT_HANDSHAKE (R29-R31): at M+4, phase 1,024, the samples of the crossings are in, of the package's handshake or of those of the
scopes that re-enter: bits 0-3 of `mismatch` name Decks with a mismatch, bit 4 the F-die, bit 5 the P-die. -/
def execAlignmentHandshake (mismatch : BitVec 6) (s : State) : Host.Outcome State Fault Refusal :=
  inService s (fun s =>
    (s.resets.filter (fun r => r.step = 4)).foldl (fun s r => s.scopeSamples mismatch r) (s.bootSamples mismatch))

/-! ### Steps 6 and 7 (R377, R404, R407, R409) -/

/-- Is a physical unit of a scope? -/
def UnitId.inScope (sc : Scope) (v : Inventory) (u : UnitId) : Bool :=
  match v.served u with
  | some (b, i) =>
    (match b.engKind with
      | some k => sc.hasEngine k i
      | none => if b = .dlr then sc.hasCore (Fin.ofNat 192 i) else match sc with
        | .deck d => b == .mem && i / 4 == d.val
        | _ => false)
  | none => match sc, u with
    | .deck d, .tbl e _ | .deck d, .atm e _ | .deck d, .dlr e _ | .deck d, .deckAdder e => e == d
    | .deck d, .lane l => (deckLinks d).contains l.val
    | _, _ => false

/-- R391, R409: the record of a unit that was spared or retired. -/
def State.unitRecord (b : Block) (i : Nat) (spared : Bool) (s : State) : State :=
  s.record (if spared then { cls := .contained, block := b, unit := i, scope := 1, code := 0x0104, replayed := true, spared := true }
    else { cls := .contained, block := b, unit := i, scope := 1, code := 0x0105, workLost := true })

/-- An engine of a scope returns to service: the descriptors that end with RESET complete, those kept are replayed, RUN is restored. -/
def State.resumeEngine (run : Bool) (k : EngKind) (i : Nat) (s : State) : State :=
  let s := s.drainReset k i 64
  let s := s.onHead k i (fun h => if h.phase = .finished ∧ !h.held then { h with phase := .waitPips } else h)
  s.onEngine k i (fun e => { e with runBit := run && s.inv.unitState k.block i != .absent })

/-- A Dealer core returns to service with its context. -/
def State.resumeCore (c : Fin 192) (s : State) : State :=
  if vget s.inv.dlr c .absent = .absent then s else s.onCore c (fun x => { x with runBit := true, halted := x.trapped })

/-- R407 step 7: the record of a reset. -/
def State.scopeRecord (r : ResetRun) (s : State) : State :=
  let deck := match r.scope with
    | .deck _ => true
    | _ => false
  let src := r.scope.source
  let lost := r.workLost || (deck && !r.hbmKept)
  s.record { cls := .contained, block := src.1, unit := src.2, scope := r.scope.code, code := 0x0107, stamp := stampOf r.began
             replayed := r.replayed || !lost, workLost := lost, holdAc := if deck then s.now - r.heldFrom else 0 }

/-- R407 step 7: a scope returns to service: what was held goes on (R377), and staged hands vote (R375). -/
def State.endReset (r : ResetRun) (s : State) : State :=
  let s := { s with resets := s.resets.filter (fun x => x.scope ≠ r.scope) }
  let s := match r.scope with
    | .deck d => (s.releaseHeldOps d).releaseHeldPips d
    | _ => s
  let s := s.goOn
  let s := r.scope.engines.foldl (fun s e => s.resumeEngine (r.engines.contains e) e.1 e.2) s
  let s := r.cores.foldl (fun s c => s.resumeCore c) s
  (s.scopeRecord r).startRepairs.startResets

/-- R404: the kind of unit whose part of the test set a unit runs. -/
def UnitId.kind : UnitId → UnitKind
  | .tbl _ _ => .tbl
  | .atm _ _ => .atm
  | .dlr _ _ | .pdlr _ => .dlr
  | .sol _ => .sol
  | .shf _ => .shf
  | .hbmc _ => .hbmc
  | .deckAdder _ | .lane _ => .deck
  | .fdie => .fdie
  | .pdie => .pdie

/-- R403, R404: a unit passes when its digest equals the expected digest of its kind. `runs` gives the digests of the units that differ from
it at least; a unit not named has it (log entry 27). -/
def State.failing (s : State) (runs : List (UnitId × BitVec 256)) : List UnitId :=
  (runs.filter (fun x => !(s.boot.testSet.parts.any (fun p => p.kind == x.1.kind && p.expected == x.2)))).map (·.1)

/-- RETURN_TO_SERVICE (R404, R407, R409): step 6 ends: the scope's units have run the test set; step 7 follows at once, and the scope works
again. -/
def execReturnToService (sc : Scope) (runs : List (UnitId × BitVec 256)) (s : State) : Host.Outcome State Fault Refusal :=
  inService s (fun s =>
    match s.resetAt sc 6 with
    | none => s
    | some r =>
      let us := (s.failing runs).filter (UnitId.inScope sc s.inv)
      let p := (s.persist us).failUnits us
      let s := p.2.foldl (fun s x => s.unitRecord x.1 x.2.1 x.2.2) p.1
      s.endReset r)

end Sys2Proof.Machine
end

