-- ==== Sys2Proof/Machine/Faults.lean ====
section
/-!
DEFINITION. Faults.lean: faults and their containment (R369-R374, R384-R387, R393, R486): arithmetic faults, SRAM errors, die-link lanes,
the end of a channel retrain (R247, R248), lockstep, fencing, and the registers of the fault unit.
-/
namespace Sys2Proof.Machine

open Sys2Proof

/-! ### Arithmetic faults (R373) -/

/-- R373, first occurrence: the record. -/
def State.arithRecord (b : Block) (i : Nat) (s : State) : State := s.record { cls := .corrected, block := b, unit := i, code := 0x0103, replayed := true }

/-- R372, R373, R383: the same fault again: a Tableau, an Atomizer or a Dealer core goes to its spare with its context, or, with no spare
free, its containment moves to the next larger scope; a Solitaire or Shuffle unit is reset in place. -/
def State.arithAgain (b : Block) (i : Fin 192) (s : State) : State :=
  match b with
  | .sol | .cmp | .shf => s.beginReset (.core b i) false
  | _ =>
    if (sparesFor b i).any (fun slot => s.inv.spare b slot == .free) then
      let s := (s.replaceUnit b i).1
      let s := if b = .atm then s.onEng (fun x => { x with tileRegs := vput x.tileRegs i [] }) else s
      s.unitRecord b i true
    else s.escalate (.core b i)

/-- R373: an arithmetic fault in an engine whose descriptor runs. -/
def State.arithEngine (b : Block) (k : EngKind) (i : Fin 192) (s : State) : State :=
  let e := s.engine k i
  match e.fifo with
  | [] => s
  | x :: _ =>
    if e.head.phase ≠ .running ∨ i.val ≥ k.count then s
    else
      let key := (k.block, i.val, x.seq.toNat)
      let s := s.rewind k i
      let seen := s.flt.faulted.contains key
      let rest := s.flt.faulted.filter (fun y => !(y.1 == key.1 && y.2.1 == key.2.1))
      let s := s.onFlt (fun f => { f with faulted := if seen then rest else key :: rest })
      if seen then s.arithAgain b i else s.arithRecord b i

/-- R373: an arithmetic fault in a Dealer core that executes an instruction; `retired` where its retired registers hold the word. -/
def State.arithCore (c : Fin 192) (retired : Bool) (s : State) : State :=
  if !(s.coreIssues c) then s
  else if retired then s.coreLost c
  else if (s.core c).faulted then (s.onCore c (fun x => { x with faulted := false })).arithAgain .dlr c
  else (s.onCore c (fun x => { x with faulted := true })).arithRecord .dlr c

/-- ARITH_REPLAY (R373). -/
def execArithReplay (b : Block) (u : FaultyUnit) (s : State) : Host.Outcome State Fault Refusal :=
  inService s (fun s =>
    match b, b.engKind with
    | .dlr, _ => s.arithCore u.idx u.retired
    | _, some k => s.arithEngine b k u.idx
    | _, none => s)

/-! ### SRAM errors (R371, R374, R486) -/

/-- R486: the block and instance of an on-die store; sample buffers are none of the stores of R371. -/
def Store.block : Store → Option (Block × Nat)
  | .organ i | .acc i => some (.tbl, i)
  | .tile i => some (.atm, i)
  | .suit i | .pip i => some (.suit, i)
  | .hbm | .sbuf _ => none

/-- A corrected word, or a line poisoned. -/
def State.sramRecord (b : Block) (i addr : Nat) (bad : Bool) (s : State) : State :=
  s.record (if bad then { cls := .contained, block := b, unit := i, code := 0x0102, addr := addr }
    else { cls := .corrected, block := b, unit := i, code := 0x0101, addr := addr })

/-- R111, R374: an accumulator store or tile registers that hold poison end the descriptor that uses them. -/
def State.storePoisoned (k : Store) (s : State) : State :=
  match k with
  | .acc i => if (s.engine .tbl i).head.phase = .running then s.finishPoison .tbl i else s
  | .tile i => if (s.engine .atm i).head.phase = .running then s.finishPoison .atm i else s
  | _ => s

/-- An error in a word at an address of an on-die store. -/
def State.sramStore (a : Nat) (bad : Bool) (s : State) : State :=
  match s.storeOf a with
  | none => s
  | some (_, _, k) =>
    match k.block with
    | none => s
    | some (b, i) =>
      let s := s.sramRecord b i (a / 64 * 64) bad
      if bad then (s.onMem (fun m => m.poisonLine (s.lineOf a))).storePoisoned k else s

/-- An error in a line that a cache holds: the mark stays with the line (R374; log entry 21). -/
def State.sramCache (b : Block) (i line : Nat) (bad : Bool) (s : State) : State :=
  if !((s.storeOfExtent (line / 64 * 64) 64).any Store.shared) then s
  else
    let s := s.sramRecord b i (line / 64 * 64) bad
    if bad then s.onMem (fun m => m.poisonLine (s.lineOf line)) else s

/-- R369, R371, R391: an uncorrectable word of the P-die's directory, or of the F-die's tables: recorded as a poisoned line, and contained at
Package scope, whose reset has a record of its own. -/
def State.packageFault (b : Block) (s : State) : State :=
  (s.record { cls := .contained, block := b, code := 0x0102 }).contain .package false

/-- SRAM_ERROR (R371, R374, R486). -/
def execSramError (site : SramSite) (uncorrectable : Bool) (s : State) : Host.Outcome State Fault Refusal :=
  inService s (fun s =>
    match site with
    | .store a => s.sramStore a.toNat uncorrectable
    | .dealerCache c line => s.sramCache .dlr c line.toNat uncorrectable
    | .pdieCache line => if s.pdc.contains (line.toNat / 64) then s.sramCache .pdie 0 line.toNat uncorrectable else s
    | .pdieDirectory => if uncorrectable then s.packageFault .pdie else s.sramRecord .pdie 0 0 false
    | .rrc line =>
      if s.fab.rrc.any (fun l => l.line = line) then
        let s := s.sramRecord .fab 0 (line * 256) false
        if uncorrectable then s.onFab (fun f => { f with rrc := f.rrc.filter (fun l => l.line ≠ line) }) else s
      else s
    | .fdieTable => if uncorrectable then s.packageFault .fab else s.sramRecord .fab 0 0 false)

/-! ### Die-link lanes (R384, R371) -/

/-- DLINK_LANE_REPAIR (R384, R412): a lane goes to a spare lane by a retrain of its link, which waits for one in progress and for a reset that
holds the link. -/
def execDlinkLaneRepair (link : Fin 14) (s : State) : Host.Outcome State Fault Refusal :=
  inService s (fun s => (s.onFlt (fun f => { f with repairReq := f.repairReq ++ [link] })).startRepairs)

/-- R407 step 5: a die link of Decks in reset has retrained. -/
def State.linkRetrained (link : Fin 14) (s : State) : State :=
  let s := { s with resets := s.resets.map (fun (r : ResetRun) => { r with links := r.links.filter (fun l => l ≠ link.val) }) }
  s.resets.foldl (fun s (r : ResetRun) => s.fiveDone r.scope) s

/-- DLINK_LANE_REPAIR_DONE (R384, R407): the retrain ends, and the traffic that it held goes on; or a link of a Deck in step 5 of its reset has
retrained. -/
def execDlinkLaneRepairDone (link : Fin 14) (s : State) : Host.Outcome State Fault Refusal :=
  inService s (fun s =>
    match s.flt.repairing.find? (fun x => x.1 = link) with
    | none => s.linkRetrained link
    | some x =>
      let s := (s.onFlt (fun f => { f with repairing := f.repairing.filter (fun y => y.1 ≠ link) })).useLane link
      (s.record { cls := .corrected, block := .flt, unit := link, code := 0x0106, holdAc := s.now - x.2, stamp := stampOf x.2 }).startRepairs.goOn)

/-! ### Channel retrains (R247, R248) -/

/-- The channel of a controller has retrained, or is fenced. -/
def HbmCtl.retrainEnds (ch : Nat) (c : HbmCtl) : HbmCtl :=
  { c with retraining := c.retraining &&& ~~~(BitVec.ofNat 32 (2 ^ ch)), retrainFails := c.retrainFails.filter (fun x => x.1 ≠ ch) }

/-- CHANNEL_RETRAIN_DONE (R247, R248, R407): the pattern check ends; it repeats the retrain, or reopens the queue, of a channel that it may have
fenced: what waited goes on. -/
def execChannelRetrainDone (ctl : Fin 16) (ch : Fin 32) (ok : Bool) (temp : BitVec 8) (s : State) : Host.Outcome State Fault Refusal :=
  inService s (fun s =>
    let c := s.ctl ctl
    let five (s : State) : State := s.fiveDone (.deck (Fin.ofNat 4 (ctl.val / 4)))
    if !(c.retraining.getLsbD ch) then s
    else if ok then five (s.onCtl ctl (fun c => { c.retrainEnds ch with
        trainTemp := vput c.trainTemp ch temp.toInt, correctedInCd := c.correctedInCd.filter (fun x => x.2.1 ≠ ch.val) })).goOn
    else if c.retrainFails.any (fun x => x.1 = ch.val) then five (((s.onCtl ctl (HbmCtl.retrainEnds ch)).fenceChannel ctl ch).ckpFenced).goOn
    else s.onCtl ctl (fun c => { c with retrainFails := (ch.val, 1) :: c.retrainFails }))

/-! ### Uncontained faults (R385, R386) -/

/-- R385: a record that the fault logic writes to FLT_LAST without the Banker. -/
def State.lastOnly (r : ErrRec) (s : State) : State :=
  let r := { r with jobTag := s.job.tag, rank := s.job.rank, seq := s.flt.nextSeq, stamp := s.stamp }
  (s.onFlt (fun f => { f with last := some r, uncontained := satAdd f.uncontained 1, nextSeq := f.nextSeq + 1 })).raiseIrq 16

/-- LOCKSTEP (R385, R405): the two Banker cores differ: the node fences itself; during bring-up the package ends FAILED. -/
def execLockstep (s : State) : Host.Outcome State Fault Refusal :=
  inService s (fun s =>
    if !s.boot.ready then s.bootFail 4
    else if s.flt.fenced then s
    else
      let s := (s.sendFenced 0x0109).lastOnly { cls := .uncontained, block := .bnk, code := 0x0109 }
      s.onFlt (fun f => { f with fenced := true }))

/-- The record of a node that fences itself. -/
def fencedRecord (b : Block) : ErrRec := { cls := .uncontained, block := b, code := 0x010A }

/-- R386, R387: a write of FLT_CTRL. -/
def State.writeFltCtrl (v : Nat) (s : State) : State :=
  let s := s.onFlt (fun f => { f with witnessEn := v.testBit 1 })
  if v.testBit 0 then s.fenceNode (fencedRecord .flt) else s

/-- FLT_FENCE_WRITE (R386): Banker firmware fences the node. -/
def execFltFenceWrite (s : State) : Host.Outcome State Fault Refusal := inService s (State.fenceNode (fencedRecord .flt))

/-- WITNESS_EN_WRITE (R387): Banker firmware writes FLT_CTRL. -/
def execWitnessEnWrite (v : W64) (s : State) : Host.Outcome State Fault Refusal := inService s (State.writeFltCtrl v.toNat)

/-! ### Registers (R393) -/

/-- The containment in progress with the largest scope. -/
def State.containing (s : State) : Nat := s.resets.foldl (fun n r => max n r.scope.code) 0

/-- R393: FLT_STATUS. -/
def State.fltStatus (s : State) : Nat :=
  s.containing * 2 ^ 9 + bit01 (!s.resets.isEmpty) * 2 ^ 8 + bit01 s.isWitness * 2 + bit01 s.flt.fenced

/-- R393: the 64-bit words of the fault unit by offset; none where no register stands. -/
def State.fltReg (s : State) (off : Nat) : Option Nat :=
  let f := s.flt
  if off = 0x000 then some (bit01 f.witnessEn * 2)
  else if off = 0x008 then some s.fltStatus
  else if off = 0x010 then some (f.uncontained.toNat * 2 ^ 48 + f.contained.toNat * 2 ^ 32 + f.corrected.toNat)
  else if off = 0x018 then some (f.dropped.toNat * 2 ^ 32 + f.nextSeq.toNat)
  else if off = 0x020 then some (f.counted.toNat * 2 ^ 32 + f.forwarded.toNat * 2 ^ 16 + f.entries.length)
  else if off = 0x028 then some ((List.zip (upTo 14) f.spares.toList).foldl (fun x is => x + is.2.toNat * 16 ^ is.1) 0)
  else if off = 0x030 then some f.err.toNat
  else if 0x040 ≤ off ∧ off < 0x080 then some (f.last.elim 0 (fun r => leAt r.bytes (off - 0x040) 8))
  else none

end Sys2Proof.Machine
end

