-- ==== Sys2Proof/Machine/Ports.lean ====
section
/-!
DEFINITION. Ports.lean: the link layer and the wavelengths of the optical ports (R259-R263, R286, R402).
-/
namespace Sys2Proof.Machine

open Sys2Proof

/-! ### Flits (R260) -/

/-- Is a flit whole: 256 bytes whose CRC checks? -/
def flitOk (f : List Byte) : Bool := f.length == 256 && leAt f 248 8 == crc64 (f.take 248)

/-- The flits before sequence number `ack` have arrived: the retry buffer forgets them. -/
def Port.acked (ack : BitVec 12) (x : Port) : Port :=
  { x with retryBuf := x.retryBuf.filter (fun f => decide ((f.1 - ack).toNat < retryRoom)) }

/-- R260: the flits from the named one on are sent again. -/
def Port.resend (from_ : BitVec 12) (x : Port) : Port :=
  let fs := x.retryBuf.filter (fun f => decide ((f.1 - from_).toNat < retryRoom))
  { x with txFlits := x.txFlits ++ fs.map (fun f => flitBytes f.1 x.rxNext 0 f.2), retried := satAdd x.retried fs.length }

/-- R260: a flit arrives: one whose CRC checks is taken where it is the next expected; any other is answered with a negative
acknowledgement. -/
def Port.receive (f : List Byte) (x : Port) : Port :=
  let nak (x : Port) : Port := { x with txFlits := x.txFlits ++ [flitBytes 0 x.rxNext 2 []] }
  if !(flitOk f) then nak x
  else
    let h := leAt f 0 8
    let seq : BitVec 12 := BitVec.ofNat 12 h
    let ack : BitVec 12 := BitVec.ofNat 12 (h / 2 ^ 12)
    let type := field h 27 24
    let x := x.acked ack
    let x := if type = 2 then x.resend ack else x
    let x := if type ≠ 0 then x
      else if seq = x.rxNext then
        let n := x.rxNext + 1
        { x with rxNext := n, rxData := x.rxData ++ slice f 8 240, txFlits := x.txFlits ++ [flitBytes 0 n 1 []] }
      else nak x
    x.pump x.waiting.length

/-! ### Wavelengths (R259, R261, R262, R402) -/

/-- All ten wavelengths. -/
def allW : BitVec 10 := 0x3FF

/-- The lowest `n` wavelengths of a set. -/
def lowestW (n : Nat) (ws : BitVec 10) : BitVec 10 := (((onesOf 10 ws.toNat).take n).foldl (fun x w => x ||| BitVec.ofNat 10 (2 ^ w)) 0)

/-- Working wavelengths. -/
def Port.working (x : Port) : BitVec 10 := allW &&& ~~~x.failed

/-- A spare wavelength: working and not active. -/
def Port.spareW (x : Port) : Option Nat := (onesOf 10 (x.working &&& ~~~x.activeW).toNat).head?

/-- R262: a port with fewer than four working wavelengths is down, one with fewer than eight active degraded. -/
def Port.judge (x : Port) : Port :=
  { x with degraded := decide (popCount 10 x.activeW.toNat < 8), up := x.up && decide (popCount 10 x.working.toNat ≥ 4) }

/-- R391: a FAB_ERR bit becomes 1. -/
def State.fabBit (bit : Nat) (s : State) : State :=
  if s.fab.err.getLsbD bit then s else (s.fabErr (2 ^ bit)).record { cls := .corrected, block := .fab, code := bit }

/-- R262: a port that was up and is down sets PORT_DOWN. -/
def State.portJudged (port : Fin 32) (s : State) : State :=
  let was := s.fab.ports[port].up
  let s := s.onPort port Port.judge
  if was && !(s.fab.ports[port].up) then s.fabBit 3 else s

/-- R261, R262: a working wavelength fails. An active one's share moves to a spare, one share after another, or the port degrades or goes
down. -/
def State.wavelengthFails (port : Fin 32) (w : Fin 10) (s : State) : State :=
  let x := s.fab.ports[port]
  if !x.up ∨ x.failed.getLsbD w then s
  else
    let bit : BitVec 10 := BitVec.ofNat 10 (2 ^ w.val)
    let spares := popCount 10 (x.working &&& ~~~x.activeW).toNat
    let moves := x.activeW.getLsbD w && decide (x.moving.length < spares)
    (s.onPort port (fun x => { x with
      failed := x.failed ||| bit, activeW := x.activeW &&& ~~~bit, switching := x.switching || moves
      moving := if moves then x.moving ++ [w] else x.moving })).portJudged port

/-- WAVELENGTH_FAILING (R261): a wavelength loses signal; one that exceeds FEC_LIMIT fails as the flits come (FLIT_RECEIVE). -/
def execWavelengthFailing (port : Fin 32) (w : Fin 10) (s : State) : Host.Outcome State Fault Refusal :=
  inService s (State.wavelengthFails port w)

/-- WAVELENGTH_SPARED (R261): a move ends: a spare carries the share, with a record; the next move begins. A spare that has failed
meanwhile takes no share. -/
def execWavelengthSpared (port : Fin 32) (s : State) : Host.Outcome State Fault Refusal :=
  inService s (fun s =>
    let x := s.fab.ports[port]
    if !x.switching then s
    else
      let rest := x.moving.drop 1
      let s := s.onPort port (fun x => { x with switching := !rest.isEmpty, moving := rest })
      match x.spareW with
      | none => s.portJudged port
      | some w =>
        let s := s.onPort port (fun x => { x with activeW := x.activeW ||| BitVec.ofNat 10 (2 ^ w) })
        ((s.fabErr 4).record { cls := .corrected, block := .fab, code := 2 }).portJudged port)

/-! ### Flits and their correction (R260, R261) -/

/-- R260, R261, R286: a codeword of a wavelength has arrived with symbols corrected: it is counted, and the symbols in the present cd. -/
def Port.corrected (cd : Count) (w : Fin 10) (n : Nat) (x : Port) : Port :=
  let old := if x.fecCd = cd then x.fecSyms else Vector.replicate 10 0
  { x with fecCorr := satAdd x.fecCorr (bit01 (decide (n > 0))), fecCd := cd, fecSyms := old.set w (old[w] + n) }

/-- R261: a codeword's corrections; more symbols in one cd than FEC_LIMIT make the wavelength failing. -/
def State.fecCount (port : Fin 32) (w : Fin 10) (n : Nat) (s : State) : State :=
  let s := s.onPort port (Port.corrected s.cad.count w n)
  let x := s.fab.ports[port]
  if x.fecSyms[w] > x.fecLimit.toNat then s.wavelengthFails port w else s

/-- FLIT_RECEIVE (R260, R261): a flit arrives, with the codewords that came with it. -/
def execFlitReceive (port : Fin 32) (f : FlitIn) (s : State) : Host.Outcome State Fault Refusal :=
  inService s (fun s =>
    if s.fab.ports[port].up then f.fec.foldl (fun s c => s.fecCount port c.1 c.2.val) (s.onLink port (Port.receive f.bytes)) else s)

/-! ### Training (R263, R402) -/

/-- R399: the wavelengths of a port that manufacture has marked bad. -/
def fuseBadW (port : Nat) : BitVec 10 := ~~~(BitVec.ofNat 10 (Config.fuseYield.toNat / 2 ^ (448 + 10 * port)))

/-- R402: a trained port: the eight lowest good wavelengths are active; its delay is measured. -/
def Port.train (bad : BitVec 10) (delay : BitVec 16) (x : Port) : Port :=
  let x := { x with failed := bad, delay, trained := true, switching := false, moving := [], up := true }
  { x with activeW := lowestW 8 x.working }.judge

/-- R462: a port goes dark: its laser is off and it is down. -/
def State.darkPort (port : Fin 32) (s : State) : State :=
  let was := s.fab.ports[port].up
  let s := s.onPort port (fun x => { x with up := false, trained := false, switching := false, moving := [] })
  if was then s.fabBit 3 else s

/-! ### Registers of a port (R286) -/

/-- FAB_PORT_CFG. -/
def Port.cfg (x : Port) : Nat := x.fecLimit.toNat * 2 ^ 16 + x.role.toNat

/-- FAB_PORT_STATUS. -/
def Port.status (x : Port) : Nat :=
  x.delay.toNat * 2 ^ 48 + x.failed.toNat * 2 ^ 32 + x.activeW.toNat * 2 ^ 16 + bit01 x.switching * 8 + bit01 x.degraded * 4 +
  bit01 x.trained * 2 + bit01 x.up

/-- FAB_PORT_CNT. -/
def Port.counts (x : Port) : Nat := x.retried.toNat * 2 ^ 32 + x.fecCorr.toNat

/-- R259, R286: a write of FAB_PORT_CFG; ROLE only while no job is attached. A port whose role becomes OFF is dark. -/
def State.writePortCfg (port : Fin 32) (v : Nat) (s : State) : State :=
  let s := s.onPort port (fun x => { x with fecLimit := BitVec.ofNat 16 (v / 2 ^ 16) })
  if s.job.attached then s
  else
    let s := s.onPort port (fun x => { x with role := BitVec.ofNat 2 v })
    if v % 4 = 0 then ((s.darkPort port).onBoot (fun b => { b with portsLeft := b.portsLeft.filter (fun p => p ≠ port.val) })).trainingDone else s

/-- PORT_ROLE_WRITE (R259): Banker firmware writes FAB_PORT_CFG. -/
def execPortRoleWrite (port : Fin 32) (v : W64) (s : State) : Host.Outcome State Fault Refusal := 
  inService s (fun s => (s.writePortCfg port v.toNat).noted .port port 0x000 0 v.toNat)

end Sys2Proof.Machine
end

