-- ==== Sys2Proof/Machine/Boot.lean ====
section
/-!
DEFINITION. Boot.lean: bring-up (R394-R406), firmware images at boot (R437, R438), the stored configuration (R434, R435), supply, power and
temperature (R462-R473), and what one cycle does when no command waits.
-/
namespace Sys2Proof.Machine

open Sys2Proof

/-! ### Supply and reset pins (R394-R396, R464) -/

/-- Set bits of PWR_ERR, with their records (R473). -/
def State.pwrErr (bits : Nat) (s : State) : State :=
  let old := s.pwr.err.toNat
  (s.onPwr (fun p => { p with err := p.err ||| BitVec.ofNat 5 bits })).errRecords .pwr 0 old bits

/-- SUPPLY_RAMP (R394): VIN_52 rises to a voltage, in units of 10 mV; at 44 V the converters start and PWR_OK is asserted. -/
def execSupplyRamp (vin : BitVec 16) (s : State) : Host.Outcome State Fault Refusal :=
  .next (
    let s := s.onPwr (fun p => { p with vin })
    if s.boot.supply ∨ vin.toNat < 4400 then s else s.onBoot (fun b => { b with supply := true, pwrOk := true }))

/-- UNDERVOLTAGE (R464): the package loses everything that is not in the flash or the fuses. -/
def execUndervoltage (s : State) : Host.Outcome State Fault Refusal :=
  .next (
    if !s.boot.supply then s
    else
      let s := s.enterReset s.boot.rstN
      { (s.onBoot (fun b => { b with supply := false, pwrOk := false })).onPwr
          (fun p => { Power.reset with vin := p.vin, detached := p.detached }) with jtag := Jtag.reset })

/-- RST_N_ASSERT (R395, R411): the whole package is in reset. -/
def execRstNAssert (s : State) : Host.Outcome State Fault Refusal :=
  .next (
    if !s.boot.rstN then s
    else (if s.pwr.tripped then s else s.retireFailing.sendFenced 0x0107).enterReset true)

/-- R470: the limits of a domain: throttle, THERM_N and critical temperature. -/
def limitsOf (hbm : Bool) : Int × Int × Int := if hbm then (85, 90, 95) else (95, 100, 110)

/-- The temperatures of the seven domains: Decks 0 to 3, F-die, P-die, HBM; and whether each is the stacks'. -/
def Power.temps (p : Power) : List (Int × Bool) :=
  (upTo 4).map (fun d => (toSigned 8 (p.tempDeck.toNat / 256 ^ d), false)) ++
    [(p.tempF.toInt, false), (p.tempP.toInt, false), (p.tempHbm.toInt, true)]

/-- R471: every domain is below its THERM_N limit. -/
def Power.cool (p : Power) : Bool := p.temps.all (fun t => decide (t.1 < (limitsOf t.2).2.1))

/-- RST_N_RELEASE (R394, R395, R465, R471): the straps are sampled, and the boot ROM and cadence acquisition start. -/
def execRstNRelease (straps : BitVec 2) (s : State) : Host.Outcome State Fault Refusal :=
  .next (
    if s.boot.rstN ∨ !s.boot.supply then s
    else if s.pwr.tripped then
      (if s.pwr.cool then
        ((s.onPwr (fun p => { p with tripped := false, thermN := false, tempHbm := 0, tempF := 0, tempP := 0, tempDeck := 0 })).onBoot (fun b => { b with pwrOk := true })).leaveReset straps
      else s)
    else if s.boot.pwrOk then s.leaveReset straps
    else s)

/-- R396, R423: a host mailbox is emptied; a command in hand runs on, and its response is discarded. -/
def Mailbox.perst (m : Mailbox) : Mailbox := { m with
  msg := MbxMsg.zero, xfer := if m.inHand.isSome then m.xfer else none, discard := m.inHand.isSome }

/-- PERST_N (R396): the endpoint is reset. -/
def execPerstN (s : State) : Host.Outcome State Fault Refusal :=
  live s (fun s => s.onBnk (fun b => { b with
    mbx := Vector.ofFn (fun m => if m.val < 16 then b.mbx[m].perst else b.mbx[m]), msix := Banker.reset.msix, msixPending := 0 }))

/-! ### Firmware images (R437-R439) -/

/-- R437: SVN of an image. -/
def imageSvn (img : List Byte) : Nat := leAt img 4 4

/-- R437: the check of an image, in the order of the rule: none where it is verified, else its status of R426. -/
def State.imageCheck (s : State) (img : List Byte) : Option Nat :=
  let h := slice img 0 128
  let bodyLen := Config.imageField h 0
  let certLen := Config.imageField h 1
  let cert := slice img 128 certLen
  let body := slice img (128 + certLen) bodyLen
  let sig := slice img (128 + certLen + bodyLen) sigLen
  let signer := Config.signerOf cert
  if img.length ≠ 128 + certLen + bodyLen + sigLen ∨ !(Config.chainOk cert signer) ∨ !(Config.verify signer (shake256 32 (h ++ cert)) sig) ∨
      (digest256 body).toNat ≠ Config.imageField h 2 then some 0x0108
  else if imageSvn img > 64 then some 0x0113
  else if imageSvn img < s.svnFuse then some 0x0109
  else none

/-! ### The yield map and the inventory (R399, R400) -/

/-- A bit of the yield map: 1 marks a good unit. -/
def yieldBit (off bit : Nat) : Bool := Config.fuseYield.getLsbD (8 * off + bit)

/-- R399: the units that manufacture has marked bad. -/
def fuseBad : List UnitId :=
  let deck (f : Fin 4 → Fin 17 → UnitId) (lo : Nat) : List UnitId :=
    ((List.finRange 4).map (fun d => ((List.finRange 17).filter (fun (p : Fin 17) => !(yieldBit (8 * d.val) (lo + p.val)))).map (f d))).flatten
  let four (f : Fin 16 → UnitId) (lo : Nat) : List UnitId :=
    ((List.finRange 16).filter (fun (i : Fin 16) => !(yieldBit (8 * (i.val / 4)) (lo + i.val % 4)))).map f
  deck .tbl 0 ++ deck .atm 17 ++ deck .dlr 34 ++ four .sol 51 ++ four .shf 55 ++ four .hbmc 59 ++
    ((List.finRange 136).filter (fun (p : Fin 136) => !(yieldBit 32 p.val))).map .pdlr

/-- R435: the persistent inventory in force: none whose tag fails. -/
def State.inventoryRecords (s : State) : List InvRecord := s.flash.records

/-- R246, R400: channels that the inventory records as retired are out of service. -/
def State.retireRecorded (s : State) : State :=
  s.inventoryRecords.foldl (fun s r => match r with
    | .channel k ch => s.onCtl k (fun c => { c with retired := c.retired ||| BitVec.ofNat 64 (3 * 4 ^ ch.val) })
    | .pseudo k p => s.onCtl k (fun c => { c with retired := c.retired ||| BitVec.ofNat 64 (2 ^ p.val) })
    | .unit _ => s) s

/-- R400: the units that the inventory records as retired. -/
def State.recordedUnits (s : State) : List UnitId := s.inventoryRecords.filterMap (fun r => match r with
  | .unit u => some u
  | _ => none)

/-- R400, step 5: spares are mapped for failed units, and units without a spare are retired. Which of several units of one kind gets the
spare R19 leaves open: units that the fuses mark come before recorded ones, and lower positions before higher (DESIGN CHOICE, log entry 22). -/
def State.mapSpares (s : State) : State := ((s.retireRecorded.failUnits (fuseBad ++ s.recordedUnits)).1).onInv Inventory.dropAbsent

/-! ### The stored configuration (R434, R435) -/

/-- R434: a value of PORT_ROLE is applied. -/
def State.applyRoles (v : Nat) (s : State) : State :=
  (List.finRange 32).foldl (fun s p => s.onPort p (fun x => { x with role := BitVec.ofNat 2 (v / 4 ^ p.val) })) s

/-- R434: a value of SCRUB_HOURS is applied. -/
def State.applyScrub (v : Nat) (s : State) : State :=
  allCtls.foldl (fun s k => s.onCtl k (fun c => { c with scrubHours := BitVec.ofNat 6 v })) s

/-- R398, R401, R434: the stored configuration is applied at boot. -/
def State.applyConfig (s : State) : State :=
  let field (id : Nat) (f : Nat → State → State) (s : State) : State := (s.configField id).elim s (fun v => f v.toNat s)
  field 3 (fun v s => s.writeCadCtrl (BitVec.ofNat 64 v))
    (field 5 State.applyScrub (field 4 State.applyRoles (field 2 State.writeSachet s)))

/-- R435: is a record bound to another package? -/
def boundElsewhere (id : Option (BitVec 256)) : Bool := id.any (fun x => x != Config.identity)

/-- R435: a stored configuration, or an inventory, whose tag fails is ignored, which is reported. -/
def State.judgeRecords (s : State) : State :=
  let report (elsewhere : Bool) (s : State) : State :=
    if elsewhere then (s.onBnk (fun b => { b with swapped := true })).bnkErr 4
    else (s.onBnk (fun b => { b with configDefault := true })).bnkErr 2
  let s := match s.flash.config with
    | some c => if c.tagGood then s else report (boundElsewhere (some c.boundId)) s
    | none => report false s
  if s.flash.invTagGood then s else report (boundElsewhere s.flash.invBound) s

/-- R394, R397: an image runs: the configuration is applied, the yield map read, and bring-up goes on to alignment and training. -/
def State.runImage (img : List Byte) (source : BitVec 2) (s : State) : State :=
  let stage := if s.cad.st = .acquiring then 4 else 6
  let s := s.onBoot (fun b => { b with running := img, image := source, mbxWait := false, stage })
  s.judgeRecords.applyConfig.mapSpares.bootAdvance

/-- R438: the slot that a boot record chooses: with no tries left the other one, else ACTIVE. -/
def BootRecord.slot (r : BootRecord) : Fin 2 := if r.trial ∧ r.tries = 0 then 1 - r.active else r.active

/-- R438: a boot of ACTIVE takes one try of a trial. -/
def BootRecord.spend (r : BootRecord) : BootRecord := if r.trial then { r with tries := r.tries - 1 } else r

/-- R438: the ROM rewrites the other copy of the boot record, with one try fewer where it boots ACTIVE as a trial. -/
def State.bootSlot (s : State) : Fin 2 × State :=
  let r := s.flash.boot
  (r.slot, s.onFlash (Flash.rewrite (fun x => if r.trial ∧ r.tries = 0 then x else x.spend)))

/-- R438: the image of a slot runs. -/
def State.runSlot (x : Fin 2) (s : State) : State :=
  let fallback := x ≠ s.flash.boot.active
  let s := s.onBnk (fun b => { b with fwTrial := s.flash.boot.trial && !fallback, fwFallback := fallback })
  let s := s.runImage s.flash.slots[x] (if x = 0 then 1 else 2)
  if fallback then s.bnkErr 32 else s

/-- FIRMWARE_VERIFIED (R397, R438): the ROM has tried the slot that the boot record chooses, then the other; with none verified, or a flash
that does not answer, it waits for an image through a mailbox. -/
def execFirmwareVerified (answers : Bool) (s : State) : Host.Outcome State Fault Refusal :=
  live s (fun s =>
    if s.boot.stage ≠ 3 ∨ s.boot.mbxWait then s
    else if !answers then s.onBoot (fun b => { b with mbxWait := true })
    else
      let c := s.bootSlot
      let s := c.2
      if (s.imageCheck s.flash.slots[c.1]).isNone then s.runSlot c.1
      else
        let s := s.bnkErr 64
        if (s.imageCheck s.flash.slots[1 - c.1]).isNone then s.runSlot (1 - c.1)
        else s.onBoot (fun b => { b with mbxWait := true }))

/-! ### Training (R232, R401, R402) -/

/-- R401: a stack that trains at no rate is absent. -/
def State.dropStack (k : Fin 16) (s : State) : State := s.onInv (fun v => v.setUnit .mem k .absent)

/-- A stack has trained at its attempt's rate (R233, R401). -/
def State.stackTrained (k : Fin 16) (temp : BitVec 8) (s : State) : State :=
  let n := vget s.boot.attempts k 0
  s.onCtl k (fun c => { c with trained := true, rate := BitVec.ofNat 3 n, trainTemp := Vector.replicate 32 temp.toInt })

/-- R401: a failed attempt is followed by one at the next lower rate; after the lowest, `gone`. -/
def State.nextRate (k : Fin 16) (gone : State → State) (s : State) : State :=
  let n := vget s.boot.attempts k 0
  if n < 3 then s.onBoot (fun b => { b with attempts := vput b.attempts k (n + 1) }) else gone s

/-- R21, R407: a stack that a Deck reset rewrites trains anew; one that trains at no rate is retired. It stays poisoned (R377). -/
def State.resetTraining (k : Fin 16) (ok : Bool) (temp : BitVec 8) (s : State) : State :=
  let leave (s : State) : State :=
    ({ s with resets := s.resets.map (fun (r : ResetRun) => { r with toTrain := r.toTrain.filter (fun x => x ≠ k.val) }) }).fiveDone (.deck (Fin.ofNat 4 (k.val / 4)))
  if ok then leave (s.stackTrained k temp)
  else s.nextRate k (fun s => (leave (s.replaceUnit .mem k).1).unitRecord .mem k false)

/-- HBM_TRAINING_DONE (R21, R401): an attempt at a rate ends: the stack is trained, or the next lower rate follows, or the stack is absent. -/
def execHbmTrainingDone (k : Fin 16) (ok : Bool) (temp : BitVec 8) (s : State) : Host.Outcome State Fault Refusal :=
  inService s (fun s =>
    if s.resets.any (fun r => r.toTrain.contains k.val) then s.resetTraining k ok temp
    else if s.boot.stage ≠ 7 ∨ !(s.boot.stacksLeft.contains k.val) then s
    else
      let leave (s : State) : State := (s.onBoot (fun b => { b with stacksLeft := b.stacksLeft.filter (fun x => x ≠ k.val) })).trainingDone
      if ok then leave ((s.onMem (fun m => m.zeroStack k)).stackTrained k temp)
      else s.nextRate k (fun s => leave (s.dropStack k)))

/-- PORT_TRAINING_DONE (R263, R398, R402, R462): a port's training ends with its delay measured and the wavelengths that failed. Before step
7 only the cadence ports train, for their delay; a reattached block's ports train in service. -/
def execPortTrainingDone (port : Fin 32) (delay : BitVec 16) (bad : BitVec 10) (s : State) : Host.Outcome State Fault Refusal :=
  inService s (fun s =>
    let x := s.fab.ports[port]
    if x.role = 0 ∨ s.pwr.detached.getLsbD (port.val / 8) then s
    else if s.boot.stage.toNat < 7 then
      (if port.val = s.cad.primary.toNat ∨ port.val = s.cad.secondary.toNat then s.onPort port (fun x => { x with delay }) else s)
    else if x.trained then s
    else
      let s := s.onPort port (Port.train (bad ||| fuseBadW port) delay)
      let s := if s.fab.ports[port].up then s else s.fabBit 3
      (s.onBoot (fun b => { b with portsLeft := b.portsLeft.filter (fun p => p ≠ port.val) })).trainingDone)

/-! ### Known answers and readiness (R403-R405) -/

/-- R405: step 9: readiness, or NO_DECK. -/
def State.makeReady (s : State) : State :=
  if s.inv.deckAbsent.toList.all id then s.bootFail 5
  else
    -- a Package reset that has come back is recorded now (R391, R407)
    let s := s.boot.scopeReset.elim s s.record
    (s.onBoot (fun b => { b with
      scopeReset := none, stage := 9, ready := true, katDone := true, freeRun := s.cad.st == .freeRun
      frozenMs := some (BitVec.ofNat 16 (satTo 65535 (s.cad.refAc / 600000))) })).raiseIrq 16

/-- KNOWN_ANSWER_RUN (R403-R405): every unit has run its part of the test set; `dies` and `runs` give the digests of those that differ at
least. -/
def execKnownAnswerRun (dies : DieRuns) (runs : List (UnitId × BitVec 256)) (s : State) : Host.Outcome State Fault Refusal :=
  inService s (fun s =>
    let failed := s.failing (dies.runs ++ runs)
    if s.boot.stage ≠ 8 then s
    else if !s.boot.setGood then s.bootFail 2
    else if failed.contains .fdie ∨ failed.contains .pdie then (s.persist failed).bootFail 3
    else ((s.persist failed).failUnits failed).1.makeReady)

/-! ### Fibre blocks (R462) -/

/-- The ports of a fibre connector block (R11). -/
def blockPorts (b : Fin 4) : List (Fin 32) := (List.finRange 32).filter (fun p => p.val / 8 = b.val)

/-- R462: the ports of a block whose interlock has opened while the package is powered: dark, and no training waits for them. -/
def State.blockDark (b : Fin 4) (s : State) : State :=
  let s := (blockPorts b).foldl (fun s p => s.darkPort p) s
  ((s.onBoot (fun x => { x with portsLeft := x.portsLeft.filter (fun p => p / 8 ≠ b.val) })).trainingDone).pwrErr 16

/-- BLOCK_DETACH (R462): a block may be detached whether the package runs, is in reset or has failed; powered, its ports go dark. -/
def execBlockDetach (b : Fin 4) (s : State) : Host.Outcome State Fault Refusal :=
  .next (
    if s.pwr.detached.getLsbD b then s
    else
      let s := s.onPwr (fun p => { p with detached := p.detached ||| BitVec.ofNat 4 (2 ^ b.val) })
      if s.boot.supply && !s.pwr.tripped then s.blockDark b else s)

/-- BLOCK_REATTACH (R462): the ports of the block may train again. -/
def execBlockReattach (b : Fin 4) (s : State) : Host.Outcome State Fault Refusal :=
  .next (s.onPwr (fun p => { p with detached := p.detached &&& ~~~(BitVec.ofNat 4 (2 ^ b.val)) }))

/-! ### Temperature (R470, R471) -/

/-- R471: one cd after a critical trip the regulators are off. -/
def State.tripDue (s : State) : State :=
  match s.pwr.tripAt with
  | some t =>
    if t ≤ s.cad.refAc then
      let old := s.pwr
      ((s.enterReset true).onPwr (fun p => { p with tripped := true, thermN := true }.keepTemps old)).onBoot (fun b => { b with rstN := true, pwrOk := false })
    else s
  | none => s

/-- R470: a sample's effect on the power unit, but for its error bits. -/
def Power.sample (p : Power) (decks : BitVec 32) (f pd hbm : BitVec 8) : Power :=
  let p := { p with tempDeck := decks, tempF := f, tempP := pd, tempHbm := hbm }
  let ts := p.temps
  let hotNow := ts.any (fun t => decide (t.1 ≥ (limitsOf t.2).1))
  let warn := ts.any (fun t => decide (t.1 ≥ (limitsOf t.2).2.1))
  let calmed := ts.all (fun t => decide (t.1 ≤ (limitsOf t.2).2.1 - 3))
  { p with
    hot := p.hot || hotNow
    thermN := warn || (p.thermN && !calmed)
    critical := Vector.ofFn (fun i => match ts[i.val]? with
      | some t => if t.1 ≥ (limitsOf t.2).2.2 then p.critical[i] + 1 else 0
      | none => 0) }

/-- R470, R471: a sample's effect: THERM_N and its warning, and at the third critical sample in a row the fence and the trip. -/
def State.thermal (decks : BitVec 32) (f p hbm : BitVec 8) (s : State) : State :=
  let was := s.pwr.thermN
  let s := s.onPwr (fun x => x.sample decks f p hbm)
  let s := if s.pwr.thermN && !was then s.pwrErr 4 else s
  let s := if s.pwr.tripAt.isNone && s.pwr.critical.toList.any (fun n => decide (n ≥ 3)) then
      let fresh := !s.flt.fenced
      let s := s.fenceNode (fencedRecord .pwr)
      let s := if fresh then s.forwardRecord (s.lastRecord.getD (fencedRecord .pwr)) else s
      s.onPwr (fun x => { x with tripAt := some (s.cad.refAc + 60000) })
    else s
  s.tripDue

/-- THERMAL_SAMPLE (R470, R471). A tripped package holds THERM_N, and takes notice of its temperatures alone, by which it may leave the
trip. -/
def execThermalSample (decks : BitVec 32) (f p hbm : BitVec 8) (s : State) : Host.Outcome State Fault Refusal :=
  if s.pwr.tripped then .next (s.onPwr (fun x => { x with tempDeck := decks, tempF := f, tempP := p, tempHbm := hbm }))
  else live s (State.thermal decks f p hbm)

/-! ### Budgets and throttling (R466, R469) -/

/-- R466: the budgets of a profile: Decks, HBM, F-die, P-die, conversion and control, package. -/
def budgets (profile : BitVec 2) : List Nat := if profile = 0 then [760, 340, 220, 140, 40, 1500] else [1680, 560, 300, 220, 40, 2800]

/-- R466: the averages in the order of the budgets; conversion and control takes what the package takes beyond its other domains. -/
def averages (package pd f hbm decks : BitVec 12) : List Nat :=
  let dies := decks.toNat + hbm.toNat + f.toNat + pd.toNat
  [decks.toNat, hbm.toNat, f.toNat, pd.toNat, package.toNat - dies, package.toNat]

/-- R469: the largest throttle level. -/
def levelMax (profile : BitVec 2) : Nat := if profile = 0 then 27 else 54

/-- R469: the power unit after the cd whose averages are given, and the PWR_ERR bits of a rise. -/
def Power.throttle (p : Power) (package pd f hbm decks : BitVec 12) : Power × Nat :=
  let excess := (List.zip (averages package pd f hbm decks) (budgets p.profile)).any (fun x => decide (x.1 > x.2))
  let bad := p.hot || excess
  let calm := if bad then 0 else p.calm + 1
  let up := bad && decide (p.level < levelMax p.profile)
  ({ p with
    avgPackage := package, avgP := pd, avgF := f, avgHbm := hbm, avgDecks := decks
    hot := false, calm
    level := if up then p.level + 1 else if calm ≥ 4 then p.level - 1 else p.level },
   if up then bit01 p.hot + 2 * bit01 excess else 0)

/-- THROTTLE_UPDATE (R469): at c+0, once, from the averages of the previous cd. -/
def execThrottleUpdate (package p f hbm decks : BitVec 12) (s : State) : Host.Outcome State Fault Refusal :=
  inService s (onlyIf (s.cad.phase == 0 && s.pwr.throttled != some s.cad.count) (fun s =>
    let r := s.pwr.throttle package p f hbm decks
    let s := s.onPwr (fun _ => { r.1 with throttled := some s.cad.count })
    (if r.2 = 0 then s else s.pwrErr r.2).dutyStep))

/-- DUTY_SLOT (R467, R468): the present slot enables or holds the slot-gated work. -/
def execDutySlot (s : State) : Host.Outcome State Fault Refusal := inService s State.dutyStep

/-- VIN_LOW (R473): VIN_52 below 46 V and not below 42 V. -/
def execVinLow (vin : BitVec 16) (s : State) : Host.Outcome State Fault Refusal :=
  live s (fun s => if 4200 ≤ vin.toNat ∧ vin.toNat < 4600 then (s.onPwr (fun p => { p with vin })).pwrErr 8 else s)

/-! ### Registers (R414, R473) -/

/-- R473: slots enabled and not withheld in the current cd; before RST_N is first released, the register's reset value (log entry 26). -/
def State.enabledSlots (s : State) : Nat := if !s.boot.rstN then 60 else (if s.pwr.profile = 0 then 33 else 60) - s.pwr.level

/-- R473: the words of the power unit by offset. -/
def State.pwrReg (s : State) (off : Nat) : Option Nat :=
  let p := s.pwr
  if off = 0x000 then some (p.vin.toNat * 2 ^ 48 + s.enabledSlots * 2 ^ 32 + p.level * 2 ^ 24 + p.straps.toNat * 16 + p.profile.toNat)
  else if off = 0x008 then some (p.tempHbm.toNat * 2 ^ 48 + p.tempF.toNat * 2 ^ 40 + p.tempP.toNat * 2 ^ 32 + p.tempDeck.toNat)
  else if off = 0x010 then
    some (p.avgPackage.toNat * 2 ^ 48 + p.avgP.toNat * 2 ^ 36 + p.avgF.toNat * 2 ^ 24 + p.avgHbm.toNat * 2 ^ 12 + p.avgDecks.toNat)
  else if off = 0x018 then some p.err.toNat
  else none

/-- R414: BNK_BOOT. -/
def State.bnkBoot (s : State) : Nat :=
  let b := s.boot
  let ms := (b.frozenMs.map BitVec.toNat).getD (satTo 65535 (s.cad.refAc / 600000))
  b.failCode.toNat * 2 ^ 32 + ms * 2 ^ 16 + bit01 b.freeRun * 2 ^ 11 + bit01 b.mbxWait * 2 ^ 10 + b.image.toNat * 2 ^ 8 + bit01 b.ready * 16 +
  b.stage.toNat

/-- R413: does BNK_RST_STATUS d report a reset? -/
def resetReg (d : Nat) (sc : Scope) : Bool :=
  match sc.deckOf with
  | some x => x == d
  | none => d == 4

/-- R414: BNK_RST_STATUS d. -/
def State.rstStatus (s : State) (d : Nat) : Nat :=
  match s.resets.find? (fun r => resetReg d r.scope) with
  | none => 0
  | some r => (r.reentry.getD 0).toNat * 2 ^ 16 + r.scope.source.2 * 2 ^ 8 + r.step * 16 + r.scope.code * 2 + 1

/-! ### Time (R26, R303) -/

/-- What every cycle does beside counting: a new phase 0 confirms what it may (R275) and sends the service frames, a new slot sets the duty, resets go on, released work has its first
effect, a critical trip comes due. -/
def State.afterTick (s : State) : State :=
  let s := if s.cad.phase = 0 then s.confirmQuiet else s
  let s := s.observePips.flushSends
  let s := (if s.cad.phase % 1000 = 0 then s.dutyStep else s).resetsTime
  let s := if s.cad.phase = 0 ∧ s.cad.st ≠ .acquiring ∧ !s.failed then s.beat else s
  s.trkAdvance.ckpAdvance.tripDue

end Sys2Proof.Machine
end

