-- ==== Sys2Proof/Machine/Score.lean ====
section
/-!
DEFINITION. Score.lean: the Scorecard's registers (R449, R451, R452, R455, R458).
-/
namespace Sys2Proof.Machine

open Sys2Proof

/-- R458: SCO_CTL as the register reads. -/
def ScoCtl.word (c : ScoCtl) : Nat :=
  c.thresh.toNat * 2 ^ 48 + c.cmp.toNat * 2 ^ 46 + bit01 c.edge * 2 ^ 45 + bit01 c.gated * 2 ^ 44 + bit01 c.enable * 2 ^ 43 +
  bit01 c.badEvent * 2 ^ 42 + c.sub.toNat * 2 ^ 32 + c.event.toNat

/-- R458: SCO_CNT as the register reads. -/
def ScoCounter.word (k : ScoCounter) : Nat := bit01 k.lost * 2 ^ 49 + bit01 k.ovf * 2 ^ 48 + k.count.toNat

/-- R449: a write of SCO_CTL takes effect in the next cycle; of several in one cycle the last, with the bits of BAD_EVENT that any of them
clears. -/
def ScoCounter.writeCtl (v : Nat) (k : ScoCounter) : ScoCounter :=
  { k with next := some (BitVec.ofNat 64 v ||| ((k.next.getD 0) &&& BitVec.ofNat 64 (2 ^ 42))) }

/-- R449: a write of SCO_CNT: the written count stands at the end of this cycle, until which the count reads as before. -/
def ScoCounter.writeCnt (v : Nat) (k : ScoCounter) : ScoCounter :=
  { k with written := some (BitVec.ofNat 48 v), lost := k.lost && !v.testBit 49, ovf := k.ovf && !v.testBit 48 }

/-- Change counter `i` of a unit. -/
def ScoInst.onCounter (i : Nat) (f : ScoCounter → ScoCounter) (x : ScoInst) : ScoInst :=
  { x with counters := (List.zip (upTo x.counters.length) x.counters).map (fun jk => if jk.1 = i then f jk.2 else jk.2) }

/-- The model's own: a unit whose registers have been written counts from now on. -/
def State.watch (u : ScoUnit) (s : State) : State :=
  if s.sco.watched.contains u then s else s.onSco (fun x => { x with watched := x.watched ++ [u] })

/-- R449: a write of SCO_CTL i. -/
def State.writeScoCtl (u : ScoUnit) (i v : Nat) (s : State) : State :=
  if i < u.counters then (s.watch u).onSco (fun x => x.onInst u (ScoInst.onCounter i (ScoCounter.writeCtl v))) else s

/-- R449: a write of SCO_CNT i. -/
def State.writeScoCnt (u : ScoUnit) (i v : Nat) (s : State) : State :=
  if i < u.counters then (s.watch u).onSco (fun x => x.onInst u (ScoInst.onCounter i (ScoCounter.writeCnt v))) else s

/-- R452: a write of SCO_SAMPLE: completions are counted from here; the F-die and the controllers do not sample. -/
def State.writeScoSample (u : ScoUnit) (v : Nat) (s : State) : State :=
  match u with
  | .mem _ | .fdie => s
  | _ => s.onSco (fun x => x.onInst u (fun y => { y with period := BitVec.ofNat 32 v, done := 0 }))

/-- R479: the block and the instance of a unit's SCO_ window. -/
def scoBlock : ScoUnit → RegBlk × Nat
  | .tbl i => (.sco (.eng .tbl), i)
  | .atm i => (.sco (.eng .atm), i)
  | .sol i => (.sco (.eng .sol), i)
  | .shf i => (.sco (.eng .shf), i)
  | .dlr i => (.sco .dlr, i)
  | .mem i => (.sco .mem, i)
  | .fdie => (.scoF, 0)

/-- R481: a write of a unit's own SCO_ register is remembered to the end of its ac. -/
def State.noteSco (u : ScoUnit) (o v : Nat) (s : State) : State := s.noted (scoBlock u).1 (scoBlock u).2 o 0 v

/-- R458: a bound of the gate: a value above 59,999 leaves it. -/
def gateField (old : BitVec 16) (v : Nat) : BitVec 16 := if v ≤ 59999 then BitVec.ofNat 16 v else old

/-- R451, R458: a write of SCO_GATE_PHASE. -/
def ScoInst.writePhase (v : Nat) (x : ScoInst) : ScoInst :=
  { x with pStart := gateField x.pStart (field v 15 0), pEnd := gateField x.pEnd (field v 31 16) }

/-- R451, R458: a write of SCO_GATE_CD. -/
def ScoInst.writeCd (v : Nat) (x : ScoInst) : ScoInst :=
  { x with startCd := BitVec.ofNat 48 (field v 63 16), lenCd := BitVec.ofNat 16 (field v 15 0) }

/-- R458: the registers of a unit's SCO_ window by offset; none where there is none. -/
def State.scoReg (s : State) (u : ScoUnit) (o : Nat) : Option Nat :=
  let x := s.sco.inst u
  if o < 16 * u.counters then
    (x.counters[o / 16]?).bind (fun k => if o % 16 = 0 then some k.ctl.word else if o % 16 = 8 then some k.word else none)
  else if o = 0x100 then some (x.pEnd.toNat * 2 ^ 16 + x.pStart.toNat)
  else if o = 0x108 then some (x.startCd.toNat * 2 ^ 16 + x.lenCd.toNat)
  else if o = 0x110 ∧ u.samples then some x.period.toNat
  else none

/-- R458: a write to a unit's SCO_ window. -/
def State.writeSco (u : ScoUnit) (o v : Nat) (s : State) : State :=
  if o < 16 * u.counters then (if o % 16 = 0 then s.writeScoCtl u (o / 16) v else if o % 16 = 8 then s.writeScoCnt u (o / 16) v else s)
  else if o = 0x100 then s.onSco (fun x => x.onInst u (ScoInst.writePhase v))
  else if o = 0x108 then s.onSco (fun x => x.onInst u (ScoInst.writeCd v))
  else if o = 0x110 then s.writeScoSample u v
  else s

/-- R458: the registers of a sample buffer. -/
def State.sbufReg (s : State) (b o : Nat) : Option Nat :=
  if o = 0 then some (vget s.sco.sbHead b 0).toNat
  else if o = 8 then some (vget s.sco.sbTail b 0).toNat
  else if o = 16 then some (vget s.sco.sbDrop b 0).toNat
  else none

/-- R455: a write of SCO_SB_HEAD. -/
def State.writeSbHead (b v : Nat) (s : State) : State := s.onSco (fun x => { x with sbHead := vput x.sbHead b (BitVec.ofNat 32 v) })

/-- SCO_CTL_WRITE (R448-R450). -/
def execScoCtlWrite (u : ScoUnit) (i : Fin 16) (v : W64) (s : State) : Host.Outcome State Fault Refusal :=
  inService s (fun s => (s.writeScoCtl u i v.toNat).noteSco u (16 * i) v.toNat)

/-- SCO_CNT_WRITE (R449, R481). -/
def execScoCntWrite (u : ScoUnit) (i : Fin 16) (v : W64) (s : State) : Host.Outcome State Fault Refusal :=
  inService s (fun s => (s.writeScoCnt u i v.toNat).noteSco u (16 * i + 8) v.toNat)

/-- SCO_SAMPLE_WRITE (R452). -/
def execScoSampleWrite (u : ScoUnit) (v : W64) (s : State) : Host.Outcome State Fault Refusal :=
  inService s (fun s => (s.writeScoSample u v.toNat).noteSco u 0x110 v.toNat)

end Sys2Proof.Machine
end

