-- ==== Sys2Proof/Machine/DealerCtl.lean ====
section
/-!
DEFINITION. DealerCtl.lean: the registers of a Dealer core (R231): RUN and safepoints, and context images (R229, R230).
-/
namespace Sys2Proof.Machine

open Sys2Proof

/-! ### RUN and safepoints (R228, R231) -/

/-- R228: a SUBMIT held at a port is abandoned. -/
def State.abandonSubmit (c : Fin 192) (s : State) : State :=
  let drop (e : Engine) : Engine := { e with port := e.port.filter (fun x => x.core != some c) }
  s.onEng (fun x => { x with tbl := x.tbl.map drop, atm := x.atm.map drop, sol := x.sol.map drop, shf := x.shf.map drop })

/-- R231: a core whose RUN is cleared halts: at this boundary, or at its safepoint; one that waits for an operation halts when it retires,
but for a SUBMIT, which is abandoned (R228). -/
def State.stopCore (c : Fin 192) (safe : Bool) (s : State) : State :=
  let x := s.core c
  if x.halted then s
  else if safe then s.onCore c (fun x => { x with haltingSince := some (x.haltingSince.getD x.cycle) })
  else
    let s := s.onCore c (fun x => { x with haltingSince := none })
    match x.stall with
    | none => s.onCore c (fun x => { x with halted := true })
    | some .submit => (s.abandonSubmit c).onCore c (fun x => { x with halted := true, stall := none })
    | some _ => s

/-- R231: a write of DLR_CTRL. -/
def State.writeDlrCtrl (c : Fin 192) (v : Nat) (s : State) : State :=
  let run := v.testBit 0
  let safe := v.testBit 1
  let s := s.onCore c (fun x => { x with runBit := run, haltAtSafe := safe })
  if run then s.onCore c (fun x => { x with halted := false, trapped := false, atSafepoint := false, haltingSince := none })
  else s.stopCore c safe

/-- DLR_CTRL_WRITE (R231). -/
def execDlrCtrlWrite (c : Fin 192) (v : W64) (s : State) : Host.Outcome State Fault Refusal := 
  inService s (fun s => (s.writeDlrCtrl c v.toNat).noted .dlr c 0x000 0 v.toNat)

/-- SAFEPOINT_HALT (R228, R231): a core that halts under HALT_AT_SAFE has reached a SETVL with SAFE 1, or its limit of 65,536 dc, when it
halts as without HALT_AT_SAFE. -/
def execSafepointHalt (c : Fin 192) (s : State) : Host.Outcome State Fault Refusal :=
  inService s (fun s =>
    let x := s.core c
    match x.haltingSince with
    | none => s
    | some t =>
      if x.halted then s
      else if (x.cycle - t).toNat ≥ 65536 then s.stopCore c false
      else if x.stall.isSome then s
      else s.onCore c (fun x => { x with halted := true, haltingSince := none, atSafepoint := true }))

/-- R219, R229: does the pc address a SETVL with SAFE 1? -/
def State.setvlSafe (s : State) (c : Fin 192) : Bool :=
  let pc := (s.core c).pc.toNat
  (s.storeOfExtent pc 4).isSome && (let w := s.readNat pc 4; field w 31 26 == 0x2F && w.testBit 15)

/-- R231: halted at a SETVL with SAFE 1. -/
def State.atSafepoint (s : State) (c : Fin 192) : Bool := (s.core c).halted && ((s.core c).atSafepoint || s.setvlSafe c)

/-! ### Context images (R229, R230) -/

/-- R229: the fields of an image before the registers. -/
def Core.imageHead (safe : Bool) (x : Core) : List Byte :=
  leBytes 2 2 ++ leBytes 1 0x80 ++ leBytes 1 (bit01 safe) ++ leBytes 2 x.cause.toNat ++ leBytes 2 x.vfault.toNat ++ leBytes 8 x.pc.toNat ++
  leBytes 8 x.acr.toNat ++ leBytes 8 x.fflags.toNat ++ leBytes 2 x.vl.toNat ++ leBytes 2 x.vtype.toNat ++ leBytes 4 0 ++
  joinBytes ((List.finRange 8).map (fun m => leBytes 2 (x.kr m).toNat)) ++
  leBytes 8 x.tvec.toNat ++ leBytes 8 x.epc.toNat ++ leBytes 8 x.vfaddr.toNat

/-- R229: a context image of this core: 848 bytes. -/
def Core.image (safe : Bool) (x : Core) : List Byte :=
  x.imageHead safe ++ joinBytes ((x.g.toList.drop 1).map (fun g => leBytes 8 g.toNat)) ++ leBytes 8 0 ++
  joinBytes (x.v.toList.map (fun v => leBytes 16 v.toNat))

/-- R230: an image applied to a core; of a 64-bit image, the upper halves of V and the upper bytes of K are zero. -/
def Core.restore (b : List Byte) (x : Core) : Core :=
  let wide := leAt b 2 1 == 0x80
  let w := if wide then 16 else 8
  { x with
    atSafepoint := (leAt b 3 1).testBit 0
    cause := BitVec.ofNat 16 (leAt b 4 2), vfault := BitVec.ofNat 16 (leAt b 6 2), pc := BitVec.ofNat 64 (leAt b 8 8)
    acr := BitVec.ofNat 64 (leAt b 16 8 % 8), fflags := BitVec.ofNat 64 (leAt b 24 8 % 256)
    vl := BitVec.ofNat 5 (leAt b 32 2), vtype := BitVec.ofNat 8 (leAt b 34 2 % 32)
    k := Vector.ofFn (fun m => if m = 0 then 0xFFFF else
      let y := leAt b (40 + 2 * m.val) 2; BitVec.ofNat 16 (if wide then y else y % 256))
    tvec := BitVec.ofNat 64 (leAt b 56 8), epc := BitVec.ofNat 64 (leAt b 64 8), vfaddr := BitVec.ofNat 64 (leAt b 72 8)
    g := Vector.ofFn (fun n => if n.val = 0 then 0 else BitVec.ofNat 64 (leAt b (80 + 8 * (n.val - 1)) 8))
    v := Vector.ofFn (fun n => BitVec.ofNat 128 (leAt b (336 + w * n.val) w)) }

/-- R231: a context command ends with a result. -/
def State.ctxEnd (c : Fin 192) (result : BitVec 8) (s : State) : State := s.onCore c (fun x => { x with ctxResult := result, ctxDone := true })

/-- R231: a context command starts: DONE is cleared. A core that is not halted is BUSY. -/
def State.ctxCommand (c : Fin 192) (act : State → State) (s : State) : State :=
  let s := s.onCore c (fun x => { x with ctxDone := false })
  if (s.core c).halted then act s else s.ctxEnd c 4

/-- R229: a save to BASE. Where BASE names no HBM window or Suit buffer nothing is written, and the result is not given: a free value (log
entry 6). -/
def State.ctxSave (c : Fin 192) (s : State) : State :=
  s.ctxCommand c (fun s =>
    let x := s.core c
    let a := x.ctxBase.toNat
    if (s.storeOfExtent a 848).any Store.shared then (s.writeMem a (x.image (s.atSafepoint c))).ctxEnd c 0
    else
      let r := s.free
      r.2.ctxEnd c (r.1.setWidth 8))

/-- R230: a restore from BASE; an image of another version or width, or one that cannot be read, is refused. -/
def State.ctxRestore (c : Fin 192) (s : State) : State :=
  s.ctxCommand c (fun s =>
    let a := (s.core c).ctxBase.toNat
    let n := if s.readNat (a + 2) 1 = 0x80 then 848 else 592
    let s := s.settle a n
    let b := s.readMem a n
    let w := leAt b 2 1
    if (s.storeOfExtent a n).any Store.shared ∧ !(s.poisonedIn a n) ∧ leAt b 0 2 = 2 ∧ (w = 0x80 ∨ w = 0x40) then
      (s.onCore c (Core.restore b)).ctxEnd c 0
    else (s.ctxEnd c 3).dlrErr c 4)

/-- CTX_SAVE (R229, R231): a write of DLR_CTX_CMD with CMD 1. -/
def execCtxSave (c : Fin 192) (s : State) : Host.Outcome State Fault Refusal := inService s (State.ctxSave c)

/-- CTX_RESTORE (R230, R231): a write of DLR_CTX_CMD with CMD 2. -/
def execCtxRestore (c : Fin 192) (s : State) : Host.Outcome State Fault Refusal := inService s (State.ctxRestore c)

/-- R231: a write of DLR_CTX_CMD. -/
def State.writeCtxCmd (c : Fin 192) (v : Nat) (s : State) : State :=
  if v % 4 = 1 then s.ctxSave c
  else if v % 4 = 2 then s.ctxRestore c
  else s.onCore c (fun x => { x with ctxDone := false })

/-! ### Registers (R231) -/

/-- R231: DLR_STATUS. -/
def State.dlrStatus (s : State) (c : Fin 192) : Nat :=
  let x := s.core c
  bit01 (x.stall == some .submit) * 16 + bit01 x.onSpare * 8 + bit01 (s.atSafepoint c) * 4 + bit01 x.halted * 2 + bit01 x.trapped

/-- R231: a register of a core by offset. -/
def State.dlrReg (s : State) (c : Fin 192) (o : Nat) : Option Nat :=
  let x := s.core c
  if o = 0x000 then some (bit01 x.haltAtSafe * 2 + bit01 x.runBit)
  else if o = 0x008 then some (s.dlrStatus c)
  else if o = 0x010 then some x.ctxBase.toNat
  else if o = 0x018 then some (x.ctxResult.toNat * 2 ^ 16 + bit01 x.ctxDone * 2 ^ 8)
  else if o = 0x020 then some x.cycle.toNat
  else if o = 0x028 then some x.err.toNat
  else none

/-- R231: a write to a register of a core. -/
def State.writeDlr (c : Fin 192) (o v : Nat) (s : State) : State :=
  if o = 0x000 then s.writeDlrCtrl c v
  else if o = 0x010 then s.onCore c (fun x => { x with ctxBase := BitVec.ofNat 64 (v / 64 * 64) })
  else if o = 0x018 then s.writeCtxCmd c v
  else if o = 0x028 then s.onCore c (fun x => { x with err := x.err &&& ~~~(BitVec.ofNat 3 v) })
  else s

end Sys2Proof.Machine
end

