-- ==== Sys2Proof/Machine/Regs.lean ====
section
/-!
DEFINITION. Regs.lean: register space (R6, R116, R478-R482): blocks and windows, the value of every register, the effect of every register
write, who may reach what (R427, R428, R456, R482).
-/
namespace Sys2Proof.Machine

open Sys2Proof

/-! ### Blocks and windows (R479, R480) -/

/-- The windows of a block. -/
inductive RegWin where
  | inst (i : Nat)
  | group
  | all
  deriving DecidableEq, Repr

/-- R479: instances of a block. -/
def RegBlk.count : RegBlk → Nat
  | .eng k => k.count
  | .cmp | .mem => 16
  | .port => 32
  | .dlr => 192
  | .sco b => b.count
  | _ => 1

/-- R479: the replicated blocks by their region's number in units of 512 KiB. -/
def replicated (r : Nat) : Option RegBlk :=
  match r with
  | 0 => some (.eng .tbl)
  | 1 => some (.eng .atm)
  | 2 => some (.eng .sol)
  | 3 => some .cmp
  | 4 => some (.eng .shf)
  | 5 => some .mem
  | 6 => some .port
  | 8 | 9 => some .dlr
  | 10 => some (.sco (.eng .tbl))
  | 11 => some (.sco (.eng .atm))
  | 12 => some (.sco (.eng .sol))
  | 13 => some (.sco (.eng .shf))
  | 14 => some (.sco .mem)
  | 16 | 17 => some (.sco .dlr)
  | _ => none

/-- R479: the single blocks, at 4 KiB windows from 0x38_0000. -/
def singleBlock (n : Nat) : Option RegBlk :=
  [RegBlk.cad, .fab, .hnd, .trk, .flt, .ckp, .bnk, .pwr, .sbuf 0, .sbuf 1, .sbuf 2, .sbuf 3, .sbuf 4][n]?

/-- R479: block and window of the 4 KiB window that holds an offset of register space. -/
def windowOf (off : Nat) : Option (RegBlk × RegWin) :=
  let r := off / 0x8_0000
  let n := off / 0x1000
  if r = 7 then
    if n < 0x390 then (singleBlock (n - 0x380)).map (fun b => (b, .inst 0))
    else if n = 0x390 then some (.scoF, .inst 0)
    else if n = 0x391 then some (.scoF, .group)
    else if n = 0x392 then some (.scoF, .all)
    else none
  else match replicated r with
    | none => none
    | some b =>
      let big := r = 8 ∨ r = 9 ∨ r = 16 ∨ r = 17
      let w := if big then n % 0x100 else n % 0x80
      let g := if big then 0xC0 else 0x40
      if w < b.count then some (b, .inst w)
      else if w = g then some (b, .group)
      else if w = g + 1 then some (b, .all)
      else none

/-- The counted unit of an SCO_ instance. -/
def scoUnitOf (b : RegBlk) (i : Nat) : ScoUnit :=
  match b with
  | .eng k => scoEngine k i
  | .mem => .mem (Fin.ofNat 16 i)
  | .dlr => .dlr (Fin.ofNat 192 i)
  | _ => .fdie

/-! ### Values (R6) -/

/-- R116, R160, R188, R211: a register of an engine that every kind has. -/
def State.engReg (s : State) (k : EngKind) (i o : Nat) : Option Nat :=
  let e := s.engine k i
  if o < 0x080 then some 0
  else if o = 0x080 then some (bit01 e.runBit)
  else if o = 0x088 then some (s.engStatus k i)
  else if o = 0x090 then some e.cq.base.toNat
  else if o = 0x098 then some e.cq.sizeLog2.toNat
  else if o = 0x0A0 then some e.cq.head.toNat
  else if o = 0x0A8 then some e.cq.tail.toNat
  else if o = 0x0B8 then some e.pipLimit.toNat
  else if o = 0x0C0 then some e.err.toNat
  else none

/-- R188: SOL_STATUS.CUR_PROB. -/
def State.curProb (s : State) (i : Nat) : Nat := (((s.engine .sol i).head.run.problems.find? (fun p => !p.done)).elim 0 (·.idx)) % 4096

/-- R189: the registers of a Compounder. -/
def State.cmpReg (s : State) (i o : Nat) : Option Nat :=
  let c := vget s.eng.cmp i ⟨0, 0⟩
  let e := s.engine .sol i
  let running := e.head.phase == .running
  let left := running && decide (e.head.run.assembled < e.solHead.nprob)
  let held := e.head.run.problems.length
  -- a lane group waits for a buffer: the next one, or the one assembled, whose problems beyond the 8 of the work area wait
  let stalled := (left && decide (held ≥ 8)) || (running && decide (held > 8))
  if o = 0 then some (c.rangeCount.toNat * 2 ^ 16 + bit01 stalled * 2 + bit01 (left && decide (held < 8)))
  else if o = 8 then some c.err.toNat
  else none

/-- R211: the registers of the Shuffle state. -/
def State.shfReg (s : State) (i o : Nat) : Option Nat :=
  let u := vget s.eng.shfState i ShfState.reset
  let slot (n : Nat) : SeqSlot := vget u.slots n ⟨false, 0, 0⟩
  if o = 0x0D0 ∨ o = 0x0E0 then let x := slot ((o - 0x0D0) / 16); some (bit01 x.active * 2 ^ 32 + x.stream.toNat)
  else if o = 0x0D8 ∨ o = 0x0E8 then some (slot ((o - 0x0D8) / 16)).pos.toNat
  else if o = 0x0F0 then some 0
  else if 0x100 ≤ o ∧ o < 0x500 ∧ o % 8 = 0 then
    let p := (vget u.lanes ((o - 0x100) / 16) 0).toNat
    some (if o % 16 = 0 then p % 2 ^ 64 else p / 2 ^ 64)
  else none

/-- R253, R258: a MEM_AREG register at controller `k`. -/
def State.aregReg (s : State) (k o : Nat) : Option Nat :=
  let x := (o - 0x100) / 32
  let r := vget s.hbm.areg x ⟨0, 0, 0, false, false, false⟩
  match (o - 0x100) % 32 with
  | 0 => some r.base.toNat
  | 8 => some r.size.toNat
  | 16 => some (r.anchor.toNat * 2 ^ 16 + bit01 r.flush * 4 + bit01 r.fp64Class * 2 + bit01 r.valid)
  | 24 => some (vget (s.ctl k).aregStat x 0).toNat
  | _ => none

/-- R237, R258: a window register, which is 0 at reset and follows the geometry from the training of the stacks on (log entry 8). -/
def State.windowReg (s : State) (v : Nat) : Nat := if s.hbm.trainedOnce then v else 0

/-- R258: a register of controller `k`. -/
def State.memReg (s : State) (k o : Nat) : Option Nat :=
  let c := s.ctl k
  let sachet := s.hbm.sachet.toNat
  if o = 0x000 then some (s.hbm.winSplit.toNat * 2 ^ 16 + sachet * 2 ^ 8 + c.scrubHours.toNat)
  else if o = 0x008 then
    some (c.retraining.toNat * 2 ^ 32 + ((upTo 32).filter (fun ch => c.retired.getLsbD (2 * ch) || c.retired.getLsbD (2 * ch + 1))).length * 2 ^ 24 + bit01 (c.fencedCh != 0) * 2 ^ 9 + bit01 c.trained * 2 ^ 8 +
      s.hbm.sachetNow.toNat * 16 + c.rate.toNat)
  else if o = 0x010 then some (s.windowReg (s.deckWinBase (k / 4)))
  else if o = 0x018 then some (s.windowReg (s.deckWinSize (k / 4)))
  else if o = 0x020 then some (s.windowReg (s.deckWinBase 4))
  else if o = 0x028 then some (s.windowReg s.pkgWinSize)
  else if o = 0x030 then some c.failing.toNat
  else if o = 0x038 then some c.retired.toNat
  else if o = 0x040 then some (c.uncorr.toNat * 2 ^ 32 + c.corr.toNat)
  else if o = 0x048 then some 0
  else if o = 0x050 then some c.err.toNat
  else if 0x100 ≤ o ∧ o < 0x900 then s.aregReg k o
  else none

/-- R44: PRI_VALID: the selected source is valid; under forced free-run the primary port, or CAD_IN (log entry 14). -/
def Cadence.priValid (c : Cadence) : Bool :=
  match c.selected with
  | some x => c.valid x
  | none => c.valid (Fin.ofNat 33 c.primary.toNat) || c.valid 32

/-- R44: a register of the cadence unit. -/
def State.cadReg (s : State) (o : Nat) : Option Nat :=
  let c := s.cad
  if o = 0x000 then some c.ctrl
  else if o = 0x008 then
    some (c.freerunCd.toNat * 2 ^ 32 + ofSigned 16 c.phaseErr * 2 ^ 16 + bit01 c.aligned * 2 ^ 8 + bit01 (c.valid c.secondarySrc) * 2 ^ 7 +
      bit01 c.priValid * 2 ^ 6 + c.st.code)
  else if o = 0x010 then some s.stamp.toNat
  else if o = 0x018 then some c.events.toNat
  else if o = 0x020 then some c.jumpDelta.toNat
  else none

/-- R286, R314: a register of the fabric unit. -/
def State.fabReg (s : State) (o : Nat) : Option Nat :=
  let f := s.fab
  if o = 0x000 then
    some (f.incarnation.toNat * 2 ^ 32 + f.rackBase.toNat * 2 ^ 16 + f.mySlot.toNat * 2 ^ 8 + bit01 f.rrcEn * 2 + bit01 f.enable)
  else if o = 0x008 then some s.outstandingWrites
  else if o = 0x010 then some (f.lateAck.toNat * 2 ^ 32 + f.unknown.toNat)
  else if o = 0x018 then some (f.limit.toNat * 2 ^ 32 + f.timeout.toNat)
  else if o = 0x020 then some f.err.toNat
  else if o = 0x028 then some (f.epoch.toNat * 2 ^ 32 + f.jobTag.toNat)
  else if o = 0x030 then some (f.notClean.toNat * 2 ^ 48 + f.staleEpoch.toNat * 2 ^ 32 + f.foreignTag.toNat)
  else none

/-- R286: a register of a port. -/
def State.portReg (s : State) (p o : Nat) : Option Nat :=
  let x := s.fab.ports[Fin.ofNat 32 p]
  if o = 0x000 then some x.cfg else if o = 0x008 then some x.status else if o = 0x010 then some x.counts else none

/-- R314: HND_RXQ_CFG. -/
def RxQueue.cfg (q : RxQueue) : Nat :=
  q.pipBase.toNat * 2 ^ 32 + q.suit.toNat * 2 ^ 28 + q.slotLog2.toNat * 2 ^ 24 + q.slots.toNat * 2 + bit01 q.valid

/-- R314: a register of the hand and message unit. -/
def State.hndReg (s : State) (o : Nat) : Option Nat :=
  if o = 0x000 then some (s.stagedHands * 2 ^ 32 + s.stagedBytes)
  else if o = 0x008 then some s.hnd.err.toNat
  else if 0x100 ≤ o ∧ o < 0x500 then
    let q := vget s.hnd.rxq ((o - 0x100) / 16) ⟨0, 0, 0, 12, 0, false, []⟩
    if o % 16 = 0 then some q.base.toNat else if o % 16 = 8 then some q.cfg else none
  else none

/-- R346: a register of the Trick engine. -/
def State.trkReg (s : State) (o : Nat) : Option Nat :=
  let t := s.trk
  if o = 0x000 then some 0
  else if o = 0x080 then some (bit01 t.runBit)
  else if o = 0x088 then some s.trkStatus
  else if o = 0x090 then some t.cq.base.toNat
  else if o = 0x098 then some t.cq.sizeLog2.toNat
  else if o = 0x0A0 then some t.cq.head.toNat
  else if o = 0x0A8 then some t.cq.tail.toNat
  else if o = 0x0C0 then some t.err.toNat
  else if o = 0x0C8 then some (t.crcRetry.toNat * 2 ^ 48 + t.residueRetry.toNat * 2 ^ 32 + t.stale.toNat)
  else none

/-- R368: a register of the checkpoint unit. -/
def State.ckpReg (s : State) (o : Nat) : Option Nat :=
  if o = 0x000 then some 0
  else if o = 0x008 then some (bit01 s.ckp.dryPause)
  else if o = 0x010 then some s.ckpStatus
  else if o = 0x018 then some s.ckp.sachetStep.toNat
  else if o = 0x020 then some s.ckp.err.toNat
  else none

/-- R446: BNK_SEC. -/
def State.bnkSec (s : State) : Nat :=
  let b := s.bnk
  s.svnFuse % 256 * 2 ^ 32 + bit01 b.debugOpen * 16 + bit01 b.configDefault * 8 + bit01 b.swapped * 4 + bit01 b.fwTrial * 2 + bit01 b.fwFallback

/-- R446: BNK_MBX. -/
def State.bnkMbx (s : State) : Nat :=
  let own (f : Mailbox → Bool) (lo : Nat) : Nat := (upTo 16).foldl (fun x m => x + bit01 (f (vget s.bnk.mbx (lo + m) Mailbox.reset)) * 2 ^ m) 0
  s.bnk.dropped.toNat * 2 ^ 48 + own (fun m => m.inHand.isSome) 16 * 2 ^ 16 + own (fun m => m.msg.own) 0

/-- R413, R414, R446: a register of the Banker. -/
def State.bnkReg (s : State) (o : Nat) : Option Nat :=
  if o = 0x000 then some s.bnkMbx
  else if o = 0x008 then some s.bnkSec
  else if o = 0x010 then some (bit01 s.job.attached * 2 ^ 63 + s.job.tag.toNat * 2 ^ 32 + s.job.rank.toNat)
  else if o = 0x018 then some s.bnk.err.toNat
  else if 0x040 ≤ o ∧ o < 0x060 then some (Config.identity.toNat / 2 ^ (8 * (o - 0x040)) % 2 ^ 64)
  else if o = 0x200 then some s.bnkBoot
  else if 0x208 ≤ o ∧ o < 0x230 then some (s.rstStatus ((o - 0x208) / 8))
  else if 0x240 ≤ o ∧ o < 0x2A0 then some (Config.fuseYield.toNat / 2 ^ (8 * (o - 0x240)) % 2 ^ 64)
  else none

/-- R6: the value of a register of an instance; none where the offset holds none. -/
def State.instReg (s : State) (b : RegBlk) (i o : Nat) : Option Nat :=
  match b with
  | .eng .tbl => if o = 0x0B0 then some (vget s.eng.organSplit i 0).toNat else s.engReg .tbl i o
  | .eng .atm => s.engReg .atm i o
  | .eng .sol => if o = 0x088 then some (s.engStatus .sol i + s.curProb i * 2 ^ 24) else s.engReg .sol i o
  | .eng .shf => match s.engReg .shf i o with
    | some v => some v
    | none => s.shfReg i o
  | .cmp => s.cmpReg i o
  | .mem => s.memReg i o
  | .port => s.portReg i o
  | .dlr => s.dlrReg (Fin.ofNat 192 i) o
  | .cad => s.cadReg o
  | .fab => s.fabReg o
  | .hnd => s.hndReg o
  | .trk => s.trkReg o
  | .flt => s.fltReg o
  | .ckp => s.ckpReg o
  | .bnk => s.bnkReg o
  | .pwr => s.pwrReg o
  | .sbuf n => s.sbufReg n o
  | .sco b => s.scoReg (scoUnitOf b i) o
  | .scoF => s.scoReg .fdie o

/-! ### Group masks (R116) -/

/-- The mask register at an offset of a group window: which 64 instances it selects. -/
def maskAt (b : RegBlk) (o : Nat) : Option Nat :=
  match b with
  | .dlr => if o = 0x0E8 then some 0 else if o = 0x0F0 then some 1 else if o = 0x0F8 then some 2 else none
  | .sco .dlr => if o = 0x1E8 then some 0 else if o = 0x1F0 then some 1 else if o = 0x1F8 then some 2 else none
  | .sco _ | .scoF => if o = 0x1F8 then some 0 else none
  | .eng _ | .cmp | .mem | .port => if o = 0x0F8 then some 0 else none
  | _ => none

/-- The group mask in force. -/
def State.maskNow (s : State) (b : RegBlk) (n : Nat) : Nat :=
  match b with
  | .eng .tbl => s.eng.tblMask.toNat
  | .eng .atm => s.eng.atmMask.toNat
  | .eng .sol => s.eng.solMask.toNat
  | .eng .shf => s.eng.shfMask.toNat
  | .cmp => s.eng.cmpMask.toNat
  | .mem => s.hbm.grpMask.toNat
  | .port => s.fab.portMask.toNat
  | .dlr => (vget s.dlrMask n 0).toNat
  | .sco (.eng .tbl) => s.sco.tblMask.toNat
  | .sco (.eng .atm) => s.sco.atmMask.toNat
  | .sco (.eng .sol) => s.sco.solMask.toNat
  | .sco (.eng .shf) => s.sco.shfMask.toNat
  | .sco .mem => s.sco.memMask.toNat
  | .sco .dlr => (vget s.sco.dlrMask n 0).toNat
  | .scoF => s.sco.fdieMask.toNat
  | _ => 0

/-- The bits of a mask register. -/
def RegBlk.maskBits : RegBlk → Nat
  | .eng .sol | .eng .shf | .cmp | .mem | .sco (.eng .sol) | .sco (.eng .shf) | .sco .mem => 16
  | .port => 32
  | .scoF => 1
  | _ => 64

/-- R481: the value of a group mask register: the one last written, which selects instances from the next ac on. -/
def State.maskReg (s : State) (b : RegBlk) (n : Nat) : Nat :=
  match s.bus.masks.reverse.find? (fun m => m.1 == b && m.2.1 == n) with
  | some m => m.2.2 % 2 ^ b.maskBits
  | none => s.maskNow b n

/-- A group mask takes effect. -/
def State.writeMask (b : RegBlk) (n v : Nat) (s : State) : State :=
  match b with
  | .eng .tbl => s.onEng (fun x => { x with tblMask := BitVec.ofNat 64 v })
  | .eng .atm => s.onEng (fun x => { x with atmMask := BitVec.ofNat 64 v })
  | .eng .sol => s.onEng (fun x => { x with solMask := BitVec.ofNat 16 v })
  | .eng .shf => s.onEng (fun x => { x with shfMask := BitVec.ofNat 16 v })
  | .cmp => s.onEng (fun x => { x with cmpMask := BitVec.ofNat 16 v })
  | .mem => s.onHbm (fun x => { x with grpMask := BitVec.ofNat 16 v })
  | .port => s.onFab (fun x => { x with portMask := BitVec.ofNat 32 v })
  | .dlr => { s with dlrMask := vput s.dlrMask n (BitVec.ofNat 64 v) }
  | .sco (.eng .tbl) => s.onSco (fun x => { x with tblMask := BitVec.ofNat 64 v })
  | .sco (.eng .atm) => s.onSco (fun x => { x with atmMask := BitVec.ofNat 64 v })
  | .sco (.eng .sol) => s.onSco (fun x => { x with solMask := BitVec.ofNat 16 v })
  | .sco (.eng .shf) => s.onSco (fun x => { x with shfMask := BitVec.ofNat 16 v })
  | .sco .mem => s.onSco (fun x => { x with memMask := BitVec.ofNat 16 v })
  | .sco .dlr => s.onSco (fun x => { x with dlrMask := vput x.dlrMask n (BitVec.ofNat 64 v) })
  | .scoF => s.onSco (fun x => { x with fdieMask := BitVec.ofNat 1 v })
  | _ => s

/-- R481: an ac ends: the masks written in it take effect, and its writes are past. -/
def State.endBus (s : State) : State :=
  (s.bus.masks.foldl (fun s m => s.writeMask m.1 m.2.1 m.2.2) s).onBus (fun _ => ⟨[], []⟩)

/-- R116: the instances that a window reaches. -/
def State.selected (s : State) (b : RegBlk) (w : RegWin) : List Nat :=
  match w with
  | .inst i => [i]
  | .all => upTo b.count
  | .group => (upTo b.count).filter (fun i => (s.maskNow b (i / 64)).testBit (i % 64))

/-! ### Writes (R6, R116) -/

/-- R116: a write to a ring register that every engine has: its base, or its size, 6 to 12. -/
def Cq.write (o v : Nat) (q : Cq) : Cq :=
  if o = 0x090 then { q with base := BitVec.ofNat 64 (v / 4096 * 4096) }
  else if o = 0x098 then (let n := v % 16; if 6 ≤ n ∧ n ≤ 12 then { q with sizeLog2 := BitVec.ofNat 4 n } else q)
  else q

/-- R116, R160, R188, R211: a write to a register of an engine. -/
def State.writeEng (k : EngKind) (i o v : Nat) (s : State) : State :=
  if o = 0x080 then s.writeEngRun k i (v.testBit 0)
  else if o = 0x090 ∨ o = 0x098 then s.onEngine k i (fun e => { e with cq := e.cq.write o v })
  else if o = 0x0A0 then s.writeEngHead k i v
  else if o = 0x0B0 ∧ k = .tbl then s.writeOrganSplit i v
  else if o = 0x0B8 then s.onEngine k i (fun e => { e with pipLimit := BitVec.ofNat 16 v })
  else if o = 0x0C0 then s.onEngine k i (fun e => { e with err := e.err &&& ~~~(BitVec.ofNat 6 v) })
  else if k = .shf ∧ 0x0D0 ≤ o then s.writeShfState i o v
  else s

/-- R253: a write to a MEM_AREG register of entry `x` reaches every controller. -/
def State.writeAreg (o v : Nat) (s : State) : State :=
  let x := (o - 0x100) / 32
  match (o - 0x100) % 32 with
  | 0 => s.onHbm (fun h => { h with areg := vmod h.areg x (fun r => { r with base := BitVec.ofNat 64 (v / 256 * 256) }) })
  | 8 => s.onHbm (fun h => { h with areg := vmod h.areg x (fun r => { r with size := BitVec.ofNat 64 (v / 256 * 256) }) })
  | 16 => s.writeAregCfg x v
  | 24 => allCtls.foldl (fun s k => s.onCtl k (fun c => { c with aregStat := vmod c.aregStat x (fun f => f &&& ~~~(BitVec.ofNat 5 v)) })) s
  | _ => s

/-- Is the offset that of a MEM_AREG_STAT? -/
def isAregStat (o : Nat) : Bool := decide (0x100 ≤ o) && decide (o < 0x900) && (o - 0x100) % 32 == 24

/-- R258: a write to a register of controller `k` other than a MEM_AREG entry, whose flags are the controller's own. -/
def State.writeMemReg (k o v : Nat) (s : State) : State :=
  if isAregStat o then
    s.onCtl k (fun c => { c with aregStat := vmod c.aregStat ((o - 0x100) / 32) (fun f => f &&& ~~~(BitVec.ofNat 5 v)) })
  else if o = 0x000 then s.writeMemCtrl k v
  else if o = 0x048 then s.writeRetrain k v
  else if o = 0x050 then s.onCtl k (fun c => { c with err := c.err &&& ~~~(BitVec.ofNat 8 v) })
  else s

/-- R283, R286: a write of FAB_CTRL: with RRC_EN 0 the remote-read cache is emptied. -/
def State.writeFabCtrl (v : Nat) (s : State) : State :=
  s.onFab (fun f => { f with
    rackBase := BitVec.ofNat 16 (field v 31 16), mySlot := BitVec.ofNat 6 (field v 13 8), rrcEn := v.testBit 1, enable := v.testBit 0
    rrc := if v.testBit 1 then f.rrc else [] })

/-- R276: a write of FAB_RETRY, ignored where (LIMIT + 1)·TIMEOUT is above 900,000 ac. -/
def State.writeFabRetry (v : Nat) (s : State) : State :=
  let limit := field v 35 32
  let timeout := field v 19 0
  if (limit + 1) * timeout > 900000 then s.fabBit 4
  else s.onFab (fun f => { f with limit := BitVec.ofNat 4 limit, timeout := BitVec.ofNat 20 timeout })

/-- R286, R314: a write to a register of the fabric unit. -/
def State.writeFabReg (o v : Nat) (s : State) : State :=
  if o = 0x000 then s.writeFabCtrl v
  else if o = 0x018 then s.writeFabRetry v
  else if o = 0x020 then s.onFab (fun f => { f with err := f.err &&& ~~~(BitVec.ofNat 5 v) })
  else if o = 0x028 then s.onFab (fun f => { f with jobTag := BitVec.ofNat 16 v })
  else s

/-- R346: a write to a register of the Trick engine. -/
def State.writeTrkReg (flush : Bool) (o v : Nat) (s : State) : State :=
  if o = 0x000 then s.trkLaunch flush (BitVec.ofNat 64 v)
  else if o = 0x080 then s.onTrk (fun t => { t with runBit := v.testBit 0 })
  else if o = 0x090 ∨ o = 0x098 then s.onTrk (fun t => { t with cq := t.cq.write o v })
  else if o = 0x0A0 then s.writeTrkHead v
  else if o = 0x0C0 then s.onTrk (fun t => { t with err := t.err &&& ~~~(BitVec.ofNat 5 v) })
  else s

/-- R314: a write to a register of the hand and message unit. -/
def State.writeHndReg (o v : Nat) (s : State) : State :=
  if o = 0x008 then s.onHnd (fun h => { h with err := h.err &&& ~~~(BitVec.ofNat 4 v) })
  else if 0x100 ≤ o ∧ o < 0x500 ∧ o % 8 = 0 then s.writeRxq ((o - 0x100) / 16) (o % 16 == 8) v
  else s

/-- R368: a write to a register of the checkpoint unit. -/
def State.writeCkpReg (o v : Nat) (s : State) : State :=
  if o = 0x000 then s.decantLaunch (BitVec.ofNat 64 v)
  else if o = 0x008 then s.onCkp (fun k => { k with dryPause := v.testBit 0 })
  else if o = 0x020 then s.onCkp (fun k => { k with err := k.err &&& ~~~(BitVec.ofNat 4 v) })
  else s

/-- R6: a write of `v` to a register of an instance, by the type of each field; `flush` is the writing context's ACR.FLUSH. -/
def State.writeInst (flush : Bool) (b : RegBlk) (i o v : Nat) (s : State) : State :=
  match b with
  | .eng k => s.writeEng k i o v
  | .cmp => if o = 8 then s.onEng (fun x => { x with cmp := vmod x.cmp i (fun c => { c with err := c.err &&& ~~~(BitVec.ofNat 1 v) }) }) else s
  | .mem => s.writeMemReg i o v
  | .port => if o = 0 then s.writePortCfg (Fin.ofNat 32 i) v else s
  | .dlr => s.writeDlr (Fin.ofNat 192 i) o v
  | .cad =>
    if o = 0x000 then s.writeCadCtrl (BitVec.ofNat 64 v)
    else if o = 0x018 then s.onCad (fun c => { c with events := c.events &&& ~~~(BitVec.ofNat 6 v) })
    else s
  | .fab => s.writeFabReg o v
  | .hnd => s.writeHndReg o v
  | .trk => s.writeTrkReg flush o v
  | .flt =>
    if o = 0x000 then s.writeFltCtrl v
    else if o = 0x030 then s.onFlt (fun f => { f with err := f.err &&& ~~~(BitVec.ofNat 3 v) })
    else s
  | .ckp => s.writeCkpReg o v
  | .bnk => if o = 0x018 then s.onBnk (fun b => { b with err := b.err &&& ~~~(BitVec.ofNat 7 v) }) else s
  | .pwr => if o = 0x018 then s.onPwr (fun p => { p with err := p.err &&& ~~~(BitVec.ofNat 5 v) }) else s
  | .sbuf n => if o = 0 then s.writeSbHead n v else s
  | .sco b => s.writeSco (scoUnitOf b i) o v
  | .scoF => s.writeSco .fdie o v

/-! ### Accesses -/

/-- R475, R479: the block, window and offset of a register-space address. -/
def regAddr (a : Nat) : Option (RegBlk × RegWin × Nat) :=
  let off := a - 0x0F00_0000_0000
  if a < 0x0F00_0000_0000 ∨ off ≥ 0x100_0000 ∨ a % 8 ≠ 0 then none
  else (windowOf off).map (fun bw => (bw.1, bw.2, off % 0x1000))

/-- R93: the submission port of an engine's instance window. -/
def isPort (b : RegBlk) (w : RegWin) (o : Nat) : Bool :=
  match b, w with
  | .eng _, .inst _ => decide (o < 0x080)
  | _, _ => false

/-- R116, R478: does the offset hold a register in this window? -/
def State.hasReg (s : State) (b : RegBlk) (w : RegWin) (o : Nat) : Bool :=
  match w with
  | .inst i => (s.instReg b i o).isSome
  | .group => (maskAt b o).isSome || (match b with
    | .eng _ => decide (o ≥ 0x080) && (s.instReg b 0 o).isSome
    | _ => (s.instReg b 0 o).isSome)
  | .all => match b with
    | .eng _ => decide (o ≥ 0x080) && (s.instReg b 0 o).isSome
    | _ => (s.instReg b 0 o).isSome

/-- R116: the value that a window gives: a mask's own value, else the OR over the instances that `ok` admits. -/
def State.winRead (s : State) (ok : Nat → Bool) (b : RegBlk) (w : RegWin) (o : Nat) : Nat :=
  match w, maskAt b o with
  | .group, some n => s.maskReg b n
  | _, _ => ((s.selected b w).filter ok).foldl (fun x i => x ||| (s.instReg b i o).getD 0) 0

/-- R253, R258: is the offset a register of a MEM_AREG entry? -/
def isAreg (b : RegBlk) (o : Nat) : Bool := b == .mem && decide (0x100 ≤ o) && decide (o < 0x900)

/-- R481: has the block group and all windows? -/
def RegBlk.grouped : RegBlk → Bool
  | .eng _ | .cmp | .mem | .port | .dlr | .sco _ | .scoF => true
  | _ => false

/-- A write through an instance window. -/
def State.oneWrite (flush : Bool) (b : RegBlk) (i o v : Nat) (s : State) : State :=
  let s' := s.writeInst flush b i o v
  if b.grouped then s'.noted b i o ((s.instReg b i o).getD 0) v else s'

/-- R481: a write through a group or all window at one instance. One through its instance window in the same ac stands: it acts after this
one, so the register acts as if it came now, a ring's head from the place it had before (log entry 2). -/
def State.groupWrite (flush : Bool) (b : RegBlk) (o v i : Nat) (s : State) : State :=
  let before := s.bus.written.filter (fun w => w.blk == b && w.unit == i && w.off == o)
  let s := match b, before with
    | .eng k, w :: _ => if o = 0x0A0 then s.onEngine k i (fun e => { e with cq := { e.cq with head := BitVec.ofNat 32 w.old } }) else s
    | _, _ => s
  before.foldl (fun s w => s.writeInst flush b i o w.value) (s.writeInst flush b i o v)

/-- R116, R253: a write through a window reaches the instances that `ok` admits; MEM_AREG entries only through the all window, and there
every controller. A controller's MEM_AREG_STAT is reached through every window. A mask takes effect from the next ac (R481). -/
def State.winWrite (flush : Bool) (ok : Nat → Bool) (b : RegBlk) (w : RegWin) (o v : Nat) (s : State) : State :=
  match w, maskAt b o with
  | .group, some n => s.onBus (fun x => { x with masks := x.masks ++ [(b, n, v)] })
  | .inst i, _ => if (isAreg b o && !(isAregStat o)) || !(ok i) then s else s.oneWrite flush b i o v
  | _, _ =>
    if isAreg b o && (w == .all || !(isAregStat o)) then (if w = .all then s.writeAreg o v else s)
    else ((s.selected b w).filter ok).foldl (fun s i => s.groupWrite flush b o v i) s

/-! ### Dealer access (R456, R482) -/

/-- R482: does the image name the unit of an instance? -/
def Uses.namesReg (u : Uses) (b : RegBlk) (i : Nat) : Bool :=
  match b with
  | .eng k => u.names (scoEngine k i)
  | .cmp => u.sol.getLsbD i
  | .mem => u.mem.getLsbD i
  | .dlr => u.dlr.getLsbD i
  | .sco b => u.names (scoUnitOf b i)
  | _ => true

/-- R456: the policy bit that admits Dealer programs to the counters of a unit kind: `bit` 0 for loads, 1 for stores. -/
def Job.scorePolicy (j : Job) (bit : Nat) (shared : Bool) : Bool := j.policy.getLsbD bit && (!shared || j.policy.getLsbD 2)

/-- R456: may a Dealer program reach sample buffer `b`: does it belong to a unit that the image names? -/
def Job.sbufNamed (j : Job) (b : Nat) : Bool := allScoUnits.any (fun u => j.uses.names u && u.samples && (sampleBuf u).val == b)

/-- R456: may a Dealer program load from sample buffer `b`? -/
def State.sbufLoad (s : State) (b : Nat) : Bool := s.job.attached && s.job.scorePolicy 0 false && s.job.sbufNamed b

/-- R456: are these counters those of the F-die or of the controllers? -/
def RegBlk.shared : RegBlk → Bool
  | .sco .mem | .scoF => true
  | _ => false

/-- R458: is the offset an SCO_CNT register? -/
def isCnt (o : Nat) : Bool := decide (o < 0x100) && o % 16 == 8

/-- R482: may a Dealer program load a register? -/
def State.dealerLoads (s : State) (b : RegBlk) (w : RegWin) (o : Nat) : Bool :=
  let named := match w with
    | .inst i => s.job.uses.namesReg b i
    | _ => true
  s.job.attached && (match b with
    | .bnk | .pwr => false
    | .sco _ | .scoF => s.job.scorePolicy 0 b.shared && isCnt o && named
    | .sbuf n => s.sbufLoad n
    | _ => named)

/-- R482: may a Dealer program store to a register? -/
def State.dealerStores (s : State) (b : RegBlk) (w : RegWin) (o : Nat) : Bool :=
  let named := match w with
    | .inst i => s.job.uses.namesReg b i
    | _ => true
  s.job.attached && (match b with
    | .eng _ | .cmp | .dlr => named
    | .mem => if isAreg b o then w == .all else named && (o == 0x048 || o == 0x050)
    | .cad => o == 0x018
    | .fab => o == 0x020
    | .flt => o == 0x030
    | .port | .bnk | .pwr => false
    | .hnd => decide (0x100 ≤ o)
    | .trk => o == 0x000 || o == 0x090 || o == 0x098 || o == 0x0A0
    | .ckp => o == 0x000 || o == 0x008
    | .sco _ | .scoF => s.job.scorePolicy 1 b.shared && named && (maskAt b o).isNone
    | .sbuf n => o == 0 && s.job.scorePolicy 1 false && s.job.sbufNamed n)

/-- R478, R482: the cause for which a Dealer's 64-bit access to register space traps. -/
def State.regFault (s : State) (store : Bool) (a : Nat) : Option Nat :=
  if a % 8 ≠ 0 then some causeAlign
  else match regAddr a with
    | none => some causeAddr
    | some (b, w, o) =>
      if store ∧ isPort b w o then some causeAlign
      else if !(s.hasReg b w o) then some causeAddr
      else if !(if store then s.dealerStores b w o else s.dealerLoads b w o) then some causePerm
      else none

/-- R482: a Dealer program's load of a register. -/
def State.dealerRead (s : State) (a : Nat) : Nat :=
  match regAddr a with
  | none => 0
  | some (b, w, o) => s.winRead (s.job.uses.namesReg b) b w o

/-- R19, R94, R350: does a store to a launch port have to wait at the core? -/
def State.launchHeld (s : State) (a : Nat) : Bool :=
  match regAddr a with
  | some (.trk, _, 0) => decide (s.trk.queued ≥ trkQueueMax)
  | some (.ckp, _, 0) => decide (s.ckp.queued ≥ decantQueueMax)
  | _ => false

/-- R6, R482: a write by an agent to a register-space address. -/
def State.regWrite (agent : Agent) (a v : Nat) (s : State) : State :=
  match regAddr a with
  | none => s
  | some (b, w, o) =>
    if isPort b w o then s
    else match agent with
      | .banker => s.winWrite false (fun _ => true) b w o v
      | .dealer c => if (s.regFault true a).isSome then s else s.winWrite (s.flushOf (.dealer c)) (s.job.uses.namesReg b) b w o v

/-- R427: Banker firmware's read of a register; none where the address holds none. -/
def State.bankerRead (s : State) (a : Nat) : Option Nat :=
  match regAddr a with
  | none => none
  | some (b, w, o) => if s.hasReg b w o then some (s.winRead (fun _ => true) b w o) else none

/-- R416: the word that BAR2 returns at an offset. -/
def State.bar2 (s : State) (off : Nat) : Nat := (s.bankerRead (0x0F00_0000_0000 + off)).getD 0

/-- R416, R480: the byte that BAR0 returns at an offset: host mailboxes, the BNK_ registers, the MSI-X table and its pending bit array; 0 at
any other. -/
def State.bar0 (s : State) (off : Nat) : Byte :=
  if off < 0x1_0000 then (vget s.bnk.mbx (off / 4096) Mailbox.reset).msg.bytes.getD (off % 4096) 0
  else if off < 0x1_1000 then BitVec.ofNat 8 ((s.bnkReg ((off - 0x1_0000) / 8 * 8)).getD 0 / 256 ^ (off % 8))
  else if 0x2_0000 ≤ off ∧ off < 0x2_0110 then BitVec.ofNat 8 ((vget s.bnk.msix ((off - 0x2_0000) / 16) 0).toNat / 256 ^ (off % 16))
  else if 0x2_1000 ≤ off ∧ off < 0x2_1008 then BitVec.ofNat 8 (s.bnk.msixPending.toNat / 256 ^ (off % 8))
  else 0

/-- R415: what the endpoint reports of itself. -/
structure PciFunction where
  classCode : BitVec 24
  deviceId : BitVec 16
  vendorId : BitVec 16
  /-- lanes, and the rate of each in units of 0.1 GT/s -/
  width : Nat
  rate : Nat
  functions : Nat
  vectors : Nat
  sriov : Bool
  ats : Bool
  peerToPeer : Bool
  /-- BAR0 and BAR2: 64-bit, prefetchable, bytes -/
  bar0 : Bool × Bool × Nat
  bar2 : Bool × Bool × Nat
  deriving DecidableEq, Repr

/-- R415, R416: the endpoint's one function, trained at x4, x2 or x1 and at a rate from 2.5 to 64 GT/s (free values, log entry 7); R396: none
answers while the package is in reset or has no supply. -/
def State.pciFunction (s : State) : Option PciFunction :=
  if s.boot.rstN then some
    { classCode := 0x120000, deviceId := 0x0C02, vendorId := Config.vendorId
      width := [4, 2, 1].getD Config.linkWidth.val 1, rate := [25, 50, 80, 160, 320, 640].getD Config.linkRate.val 25
      functions := 1, vectors := 17, sriov := false, ats := false, peerToPeer := false
      bar0 := (true, false, 256 * 1024), bar2 := (true, true, 16 * 1024 * 1024) }
  else none

/-- R428: may REG_ACCESS write a register? The registers that a chapter reserves to Banker firmware, submission and launch ports, and
MEM_AREG entries are refused. -/
def regProtected (b : RegBlk) (w : RegWin) (o : Nat) : Bool :=
  isPort b w o || isAreg b o ||
  (match b with
    | .mem => o == 0x000
    | .cad => o == 0x000
    | .fab => o == 0x000 || o == 0x018 || o == 0x028
    | .port => o == 0x000
    | .flt => o == 0x000
    | .trk | .ckp => o == 0x000
    | .bnk | .pwr => o == 0x018
    | _ => false)

/-- R428: does a write reach a register of a unit that the job's image names? -/
def State.jobOwned (s : State) (b : RegBlk) (w : RegWin) (o : Nat) : Bool :=
  s.job.attached && (match b with
    | .eng _ | .cmp | .mem | .dlr | .sco _ => match w, maskAt b o with
      | .group, some _ => false
      | _, _ => (s.selected b w).any (s.job.uses.namesReg b)
    | _ => false)

/-! ### Rows -/

/-- R405: does an address lie in the BNK_ block, which stays in service when bring-up has FAILED? -/
def bnkAddr (a : Nat) : Bool :=
  match regAddr a with
  | some (.bnk, _, _) => true
  | _ => false

/-- REGISTER_WRITE (R6, R116, R481). -/
def execRegisterWrite (agent : Agent) (addr v : W64) (s : State) : Host.Outcome State Fault Refusal :=
  live s (fun s => if s.failed && !bnkAddr addr.toNat then s else s.regWrite agent addr.toNat v.toNat)

/-- CQ_HEAD_WRITE (R112). -/
def execCqHeadWrite (o : RingOwner) (v : W64) (s : State) : Host.Outcome State Fault Refusal :=
  inService s (fun s => match o with
    | .eng k i => (s.writeEngHead k i v.toNat).noted (.eng k) i 0x0A0 (s.engine k i).cq.head.toNat v.toNat
    | .trick => s.writeTrkHead v.toNat)

/-- CTRL_RUN_WRITE (R116, R346). -/
def execCtrlRunWrite (o : RingOwner) (v : W64) (s : State) : Host.Outcome State Fault Refusal :=
  inService s (fun s => match o with
    | .eng k i => (s.writeEngRun k i (v.getLsbD 0)).noted (.eng k) i 0x080 (bit01 (s.engine k i).runBit) v.toNat
    | .trick => s.onTrk (fun t => { t with runBit := v.getLsbD 0 }))

/-- FAB_RETRY_WRITE (R276). -/
def execFabRetryWrite (v : W64) (s : State) : Host.Outcome State Fault Refusal := inService s (State.writeFabRetry v.toNat)

/-- FAB_CTRL_WRITE (R283, R286). -/
def execFabCtrlWrite (v : W64) (s : State) : Host.Outcome State Fault Refusal := inService s (State.writeFabCtrl v.toNat)

end Sys2Proof.Machine
end

