-- ==== Sys2Proof/Machine/Attach.lean ====
section
/-!
DEFINITION. Attach.lean: the attach record and the stream behind it (R430, R431), and what Banker firmware does with each part of a streamed
transfer as it comes (R421).
-/
namespace Sys2Proof.Machine

open Sys2Proof

/-! ### The attach record (R430) -/

/-- R430: region entry `i` of the record. -/
def regionOf (b : List Byte) (i : Nat) : Region :=
  let w := leAt b (128 + 16 * i) 8
  ⟨w / 256 * 256, leAt b (136 + 16 * i) 8, BitVec.ofNat 2 w⟩

/-- R430: NREGIONS. -/
def recRegions (b : List Byte) : Nat := leAt b 3 1
/-- R430: NRANKS. -/
def recRanks (b : List Byte) : Nat := leAt b 8 4
/-- R430: IMAGE_BASE. -/
def recBase (b : List Byte) : Nat := leAt b 24 8
/-- R430: IMAGE_LEN. -/
def recLen (b : List Byte) : Nat := leAt b 32 8
/-- R430: bytes of the record. -/
def recBytes (b : List Byte) : Nat := 128 + 16 * recRegions b

/-- R34, R430, R431, R456: is a field of the record out of range, or START too near? `first` is when the first part was taken in. -/
def State.recordBad (s : State) (b : List Byte) (first : Nat) : Bool :=
  let tag := leAt b 0 2
  let start := leAt b 104 8
  let n := recRegions b
  let split := leAt b 112 2
  tag == 0 || tag == 0xFFFF || decide (leAt b 2 1 ≥ 8) || n == 0 || decide (n > 64) || recRanks b == 0 || decide (recRanks b > 65536) ||
  decide (leAt b 12 4 > 65535) || recBase b % 64 != 0 || decide (split * 2 ^ 20 > s.liveBytes) ||
  start % 65536 != 0 || !(relValid s start) || decide (relTime start < first + 60000) ||
  (upTo n).any (fun i => field (leAt b (128 + 16 * i) 1) 7 2 != 0 || leAt b (128 + 16 * i) 1 % 4 == 3 || leAt b (136 + 16 * i) 8 % 256 != 0) ||
  !((s.onHbm (fun h => { h with winSplit := BitVec.ofNat 11 split })).inOneWindow (recBase b) (recLen b))

/-- R430: the rank entries of a stream. -/
def rankEntries (b : List Byte) : List (Nat × BitVec 64) := (upTo (recRanks b)).map (fun r => (r, BitVec.ofNat 64 (leAt b (recBytes b + 8 * r) 8)))

/-- R430: the image of a stream. -/
def streamImage (b : List Byte) : List Byte := (b.drop (recBytes b + 8 * recRanks b)).take (recLen b)

/-- R430: the USE fields of an image. -/
def usesOf (img : List Byte) : Uses :=
  ⟨BitVec.ofNat 64 (leAt img 16 8), BitVec.ofNat 64 (leAt img 24 8), BitVec.ofNat 192 (leAt img 32 24), BitVec.ofNat 16 (leAt img 56 2),
   BitVec.ofNat 16 (leAt img 58 2), BitVec.ofNat 16 (leAt img 60 2)⟩

/-- R19: does the image name a unit that is absent? -/
def State.namesAbsent (s : State) (u : Uses) : Bool :=
  let bad (b : Block) (n x : Nat) : Bool := (onesOf n x).any (fun i => s.inv.unitState b i == .absent)
  bad .tbl 64 u.tbl.toNat || bad .atm 64 u.atm.toNat || bad .dlr 192 u.dlr.toNat || bad .sol 16 u.sol.toNat || bad .shf 16 u.shf.toNat ||
  bad .mem 16 u.mem.toNat

/-- R430, R431: a record that fails its ranges, or a stream that is not of the length that the record gives. -/
def State.attachBad (s : State) (b : List Byte) (first : Nat) : Bool :=
  s.recordBad b first || decide (b.length ≠ recBytes b + 8 * recRanks b + recLen b)

/-! ### Parts of a stream (R421, R430, R439) -/

/-- R430: bytes from `o` on of a joined stream come in: with the record, WIN_SPLIT is written and the rank table emptied (log entry 23); the
rank entries that are then whole go to the rank table, and image bytes upward from IMAGE_BASE. -/
def State.takeAttach (b : List Byte) (o : Nat) (s : State) : State :=
  let r0 := recBytes b
  let r1 := r0 + 8 * recRanks b
  let whole (n : Nat) : Nat := (min n r1 - r0) / 8
  let s := if o = 0 then (s.writeWinSplit 0 (leAt b 112 2)).onFab (fun f => { f with ranks := [] }) else s
  let s := s.onFab (fun f => { f with ranks :=
    (((rankEntries b).take (whole b.length)).drop (whole o)).foldl (fun rs x => setRank rs x.1 x.2) f.ranks })
  let from_ := max o r1
  if b.length ≤ from_ then s else s.writeMem (recBase b + (from_ - r1)) (b.drop from_)

/-- R439: the slot that is not running; of an image from a mailbox, the one that is not ACTIVE (log entry 13). -/
def State.spareSlot (s : State) : Fin 2 := if s.boot.image = 1 then 1 else if s.boot.image = 2 then 0 else 1 - s.flash.boot.active

/-- Bytes written over others from an offset on; what is erased between them reads as 0xFF. -/
def writeOver (l : List Byte) (o : Nat) (d : List Byte) : List Byte := l.take o ++ List.replicate (o - l.length) 0xFF ++ d ++ l.drop (o + d.length)

/-- R439: a part of an image goes into the slot that is not running, which the first one finds erased. -/
def State.takeImage (b : List Byte) (o : Nat) (s : State) : State :=
  let x := s.spareSlot
  let s := s.onFlash (fun f => { f with slots := vmod f.slots x (fun old => writeOver (if o = 0 then [] else old) o (b.drop o)) })
  s.onBnk (fun x => { x with staged := false })

/-- R421: what a part of a streamed transfer does as it comes: the joined payloads, and how many bytes of them came before. A seal's
statements have no effect before the last (R360). -/
def State.consume (cmd : Nat) (b : List Byte) (o : Nat) (s : State) : State :=
  if cmd = 0x0301 then s.takeAttach b o else if cmd = 0x0901 then s.takeImage b o else s

end Sys2Proof.Machine
end

