-- ==== Sys2Proof/Machine/Mbx.lean ====
section
/-!
DEFINITION. Mbx.lean: the mailboxes of Banker firmware (R418-R426): handing over, taking up, parts and answers; and the commands that ask
for no job and no checkpoint: inventory, configuration, registers, log, identity, firmware, resets and debug (R425-R445).
-/
namespace Sys2Proof.Machine

open Sys2Proof

/-! ### Statuses (R426) -/

/-- OK. -/
def mbOk : Nat := 0
/-- BAD_CMD. -/
def mbBadCmd : Nat := 0x0100
/-- BAD_LEN. -/
def mbBadLen : Nat := 0x0101
/-- BAD_PART. -/
def mbBadPart : Nat := 0x0102
/-- BUSY. -/
def mbBusy : Nat := 0x0103
/-- HOST_ONLY. -/
def mbHostOnly : Nat := 0x0104
/-- NOT_ATTACHED. -/
def mbNotAttached : Nat := 0x0105
/-- ATTACHED. -/
def mbAttached : Nat := 0x0106
/-- NOT_READY. -/
def mbNotReady : Nat := 0x0107
/-- AUTH_FAIL. -/
def mbAuthFail : Nat := 0x0108
/-- REG_ADDR. -/
def mbRegAddr : Nat := 0x010A
/-- REG_PROTECTED. -/
def mbRegProtected : Nat := 0x010B
/-- JOB_OWNED. -/
def mbJobOwned : Nat := 0x010C
/-- SLOT_IN_USE. -/
def mbSlotInUse : Nat := 0x010D
/-- PROG_REFUSED. -/
def mbProgRefused : Nat := 0x010E
/-- ATTACH_INVENTORY. -/
def mbAttachInventory : Nat := 0x0110
/-- DEBUG_OPEN. -/
def mbDebugOpen : Nat := 0x0111
/-- IMAGE_BAD. -/
def mbImageBad : Nat := 0x0112

/-! ### Answers (R419, R423, R424) -/

/-- A mailbox: 0-15 the host's, 16-31 the job manager's. -/
def State.mbx (s : State) (m : Fin 32) : Mailbox := s.bnk.mbx[m]

/-- Change a mailbox. -/
def State.onMbx (m : Fin 32) (f : Mailbox → Mailbox) (s : State) : State := s.onBnk (fun b => { b with mbx := vmod b.mbx m f })

/-- Is it a fabric mailbox? -/
def isFabricMbx (m : Fin 32) : Bool := decide (16 ≤ m.val)

/-- R419, R424: the answer is announced: a vector for the host, a frame for the job manager. -/
def State.announce (m : Fin 32) (msg : MbxMsg) (s : State) : State :=
  if !(isFabricMbx m) then s.raiseIrq m.val
  else
    let s := s.onMbx m (fun x => { x with kept := some msg })
    match (s.mbx m).from_.bind s.partner with
    | some p => s.sendMbxRsp (m.val - 16) p msg
    | none => s

/-- R419: Banker firmware answers in place: payload, RSP_LEN, STATUS, and OWN cleared; R423: a response whose mailbox PERST_N has emptied is
discarded. -/
def State.mbxAnswer (m : Fin 32) (status : Nat) (rsp : List Byte) (s : State) (arg : Option Nat := none) (last : Option Bool := none) : State :=
  let box := s.mbx m
  let s := s.onBnk (fun b => if b.stateCmd = some m then { b with stateCmd := none, resetOf := none } else b)
  if box.discard then s.onMbx m (fun x => { x with inHand := none, discard := false, xfer := none })
  else
    let msg : MbxMsg := { box.msg with
      status := BitVec.ofNat 16 status, rspLen := BitVec.ofNat 16 rsp.length, own := false
      arg := arg.elim box.msg.arg (BitVec.ofNat 64), last := last.getD box.msg.last
      payload := rsp ++ box.msg.payload.drop rsp.length }
    let s := s.onMbx m (fun x => { x with msg, inHand := none, xfer := if x.inHand.isSome then none else x.xfer })
    s.announce m msg

/-- The request in hand, its payload cut to its length, where it is of this command. -/
def State.inHand (s : State) (m : Fin 32) (cmd : Nat) : Option MbxMsg := (s.mbx m).inHand.filter (fun x => x.cmd.toNat = cmd)

/-- A command in hand acts; a package that has FAILED answers NOT_READY (R405, R426). -/
def onCmd (m : Fin 32) (cmd : Nat) (s : State) (f : MbxMsg → State → State) : Host.Outcome State Fault Refusal :=
  live s (fun s => match s.inHand m cmd with
    | none => s
    | some x => if s.failed then s.mbxAnswer m mbNotReady [] else f x s)

/-- A command that needs an attached job (R426). -/
def needsJob (m : Fin 32) (f : State → State) (s : State) : State := if s.job.attached then f s else s.mbxAnswer m mbNotAttached []

/-! ### Handing over (R419) -/

/-- MAILBOX_HANDOFF (R419): a request whose OWN bit the host sets; with OWN already 1 its `writes` are dropped and counted. -/
def execMailboxHandoff (m : Fin 16) (writes : BitVec 16) (r : MbxReq) (s : State) : Host.Outcome State Fault Refusal :=
  live s (fun s =>
    let k : Fin 32 := m.castLE (by decide)
    if (s.mbx k).msg.own then
      (if writes = 0 then s else (s.onBnk (fun b => { b with dropped := satAdd b.dropped writes.toNat })).bnkErr 1)
    else s.onMbx k (fun x => { x with msg := { x.msg with
      seq := r.seq, cmd := r.cmd, reqLen := r.reqLen, part := r.part, arg := r.arg, own := true, last := r.last, payload := r.payload.take 4064 } }))

/-! ### Taking up (R420-R422, R425) -/

/-- R425: the commands. -/
def mbxCommands : List Nat :=
  [0x0101, 0x0102, 0x0201, 0x0202, 0x0301, 0x0302, 0x0303, 0x0401, 0x0501, 0x0601, 0x0701, 0x0702, 0x0703, 0x0704, 0x0705, 0x0706,
   0x0801, 0x0802, 0x0901, 0x0902, 0x0903, 0x0904, 0x0A01, 0x0B01]

/-- R425: host-only commands; SCOPED_RESET in Package scope. -/
def hostOnly (x : MbxMsg) : Bool :=
  [0x0102, 0x0202, 0x0901, 0x0902, 0x0903, 0x0904, 0x0B01].contains x.cmd.toNat || (x.cmd == 0x0A01 && x.arg.toNat % 8 == 4)

/-- R421, R425: commands that take their request in parts. -/
def multiPart (cmd : Nat) : Bool := [0x0301, 0x0303, 0x0401, 0x0703, 0x0901, 0x0904].contains cmd

/-- R421: transfers that Banker memory buffers. -/
def bufferedCmd (cmd : Nat) : Bool := [0x0303, 0x0401, 0x0904].contains cmd

/-- R422: state commands. -/
def stateCommand (cmd : Nat) : Bool := [0x0202, 0x0301, 0x0302, 0x0303, 0x0401, 0x0902, 0x0903, 0x0A01, 0x0B01].contains cmd

/-- R359: bytes of a sealed manifest, by its header. -/
def manifestLen (b : List Byte) : Nat := 128 + 64 * leAt b 88 4 + sigLen

/-- A sealed manifest longer than a mailbox comes in parts too (log entry 13): does the request lack some of it? -/
def manifestMissing (cmd : Nat) (data : List Byte) : Bool :=
  (cmd == 0x0704 && decide (data.length < manifestLen data)) || (cmd == 0x0706 && decide (data.length < 64 + manifestLen (data.drop 64)))

/-- ARG outside the range of its command. -/
def badArg (x : MbxMsg) : Bool :=
  (x.cmd == 0x0401 && !([1, 2, 3, 4].contains (x.arg.toNat % 16))) || (x.cmd == 0x0B01 && decide (x.arg.toNat > 1))

/-- R422: is a state command in hand, other than one of this mailbox? A JOB_ATTACH is from its first part on (DEDUCED, log entry 23). -/
def State.stateBusy (s : State) (m : Fin 32) : Bool :=
  s.bnk.stateCmd.isSome || (List.finRange 32).any (fun k => k != m && (s.mbx k).xfer.any (fun t => t.cmd == 0x0301))

/-- R422: a whole request is taken up, unless it is a state command and another is in hand. -/
def State.takeWhole (m : Fin 32) (x : MbxMsg) (s : State) : State :=
  let state := stateCommand x.cmd.toNat
  if state ∧ s.stateBusy m then (s.onMbx m (fun b => { b with xfer := none })).mbxAnswer m mbBusy []
  else if badArg x then (s.onMbx m (fun b => { b with xfer := none })).mbxAnswer m mbBadLen []
  else
    let s := if state then s.onBnk (fun b => { b with stateCmd := some m }) else s
    s.onMbx m (fun b => { b with inHand := some x })

/-- Bytes that buffered transfers hold in Banker memory. -/
def State.buffered (s : State) : Nat :=
  s.bnk.mbx.toList.foldl (fun n b => n + (b.xfer.elim 0 (fun t => if bufferedCmd t.cmd.toNat then t.data.length else 0))) 0

/-- The largest image (R437). -/
def imageMax : Nat := 2 ^ 24

/-- R421, R422, R430, R431: why a part ends its transfer: payloads joined, how many bytes came before, and when the first part came. The first
part of a JOB_ATTACH is the record, which is checked before anything is written (DEDUCED, log entry 23). -/
def State.partRefused (s : State) (m : Fin 32) (cmd : Nat) (b : List Byte) (o first : Nat) : Option Nat :=
  if bufferedCmd cmd then (if b.length > 2 ^ 25 ∨ s.buffered + (b.length - o) > 2 ^ 26 then some mbBadLen else none)
  else if cmd = 0x0901 then (if b.length > imageMax then some mbBadLen else none)
  else if cmd ≠ 0x0301 then none
  else if o > 0 then (if b.length > recBytes b + 8 * recRanks b + recLen b then some mbBadLen else none)
  else if s.stateBusy m then some mbBusy
  else if s.job.attached then some mbAttached
  else if s.bnk.debugOpen then some mbDebugOpen
  else if b.length ≠ recBytes b ∨ s.recordBad b first then some mbBadLen
  else none

/-- R421: a part is taken in: the next one in order, or the transfer is discarded. -/
def State.takePart (m : Fin 32) (x : MbxMsg) (s : State) : State :=
  let old := (s.mbx m).xfer
  let fits := match old with
    | some t => t.cmd == x.cmd && t.seq == x.seq && t.next == x.part.toNat
    | none => x.part == 0
  let drop (status : Nat) (s : State) : State := (s.onMbx m (fun b => { b with xfer := none })).mbxAnswer m status []
  if !fits then drop mbBadPart s
  else
    let before := old.elim [] (·.data)
    let data := before ++ slice x.payload 0 x.reqLen.toNat
    let t : Transfer := ⟨x.cmd, x.seq, x.part.toNat + 1, data, old.elim s.now (·.firstAt)⟩
    match s.partRefused m x.cmd.toNat data before.length t.firstAt with
    | some st => drop st s
    | none =>
      let s := (s.onMbx m (fun b => { b with xfer := some t })).consume x.cmd.toNat data before.length
      if !x.last && (multiPart x.cmd.toNat || manifestMissing x.cmd.toNat data) then s.mbxAnswer m mbOk []
      else s.takeWhole m { x with payload := data, last := true }

/-- R420: a mailbox whose OWN is 1 and whose request is not in hand is taken up: it is refused, taken in part, or in hand. -/
def State.takeUp (m : Fin 32) (s : State) : State :=
  let x := (s.mbx m).msg
  let cmd := x.cmd.toNat
  if !x.own ∨ (s.mbx m).inHand.isSome then s
  else if s.failed then s.mbxAnswer m mbNotReady []
  else if s.boot.mbxWait ∧ cmd ≠ 0x0904 then s.mbxAnswer m mbNotReady []
  else if (s.mbx m).xfer.isSome then
    (if x.reqLen.toNat > 4064 then (s.onMbx m (fun b => { b with xfer := none })).mbxAnswer m mbBadLen [] else s.takePart m x)
  else if !(mbxCommands.contains cmd) ∨ (cmd = 0x0904 ∧ !s.boot.mbxWait) then s.mbxAnswer m mbBadCmd []
  else if isFabricMbx m ∧ hostOnly x then s.mbxAnswer m mbHostOnly []
  else if x.reqLen.toNat > 4064 then s.mbxAnswer m mbBadLen []
  else if multiPart cmd ∨ cmd = 0x0704 ∨ cmd = 0x0706 then s.takePart m x
  else s.takeWhole m { x with payload := slice x.payload 0 x.reqLen.toNat }

/-- Commands that have waited for the checkpoint unit and have ended are answered. -/
def State.answerEnded (s : State) : State :=
  let done := s.ckp.answers
  done.foldl (fun (s : State) a =>
    let m : Fin 32 := Fin.ofNat 32 a.1
    if (s.mbx m).inHand.isSome then s.mbxAnswer m a.2 [] else s) (s.onCkp (fun k => { k with answers := [] }))

/-- R420: is the present ac one of the poll's: a phase that is a multiple of 3,750, or such a cycle of the Banker's own counter where the node
is in free-run, or has no phase yet (DEDUCED, log entry 23)? -/
def State.pollPoint (s : State) : Bool :=
  (if s.cad.st.locked ∨ s.cad.aligned ∧ s.cad.st ≠ .freeRun then s.cad.phase else s.cad.refAc) % 3750 == 0

/-- R420: does anything poll the mailboxes now: the boot ROM that waits for an image, or firmware? -/
def State.polls (s : State) : Bool := s.pollPoint && (s.failed || s.boot.mbxWait || !s.boot.running.isEmpty)

/-- MAILBOX_POLL (R420): host mailboxes first, then fabric mailboxes. -/
def execMailboxPoll (s : State) : Host.Outcome State Fault Refusal :=
  live s (fun s => if s.polls then (List.finRange 32).foldl (fun s m => s.takeUp m) s.answerEnded else s)

/-! ### Inventory (R404, R405, R425) -/

/-- INVENTORY_READ (R425): the inventory of R405, then the records of the persistent inventory. -/
def execInventoryRead (m : Fin 32) (s : State) : Host.Outcome State Fault Refusal :=
  onCmd m 0x0101 s (fun _ s => s.mbxAnswer m mbOk ((s.inventoryBytes ++ joinBytes (s.inventoryRecords.map InvRecord.bytes)).take 4064))

/-- INVENTORY_CLEAR (R404, R425): the record that ARG numbers is removed. -/
def execInventoryClear (m : Fin 32) (s : State) : Host.Outcome State Fault Refusal :=
  onCmd m 0x0102 s (fun x s =>
    let rs := s.inventoryRecords
    if x.arg.toNat ≥ rs.length then s.mbxAnswer m mbBadLen []
    else
      (s.onFlash (Flash.putRecords (rs.take x.arg.toNat ++ rs.drop (x.arg.toNat + 1)))).mbxAnswer m mbOk [])

/-! ### Configuration (R434, R435) -/

/-- R434: entry `i` of a CONFIG_WRITE. -/
def configEntryOf (b : List Byte) (i : Nat) : BitVec 16 × BitVec 256 :=
  (BitVec.ofNat 16 (leAt b (40 * i) 2), BitVec.ofNat 256 (leAt b (40 * i + 8) 32))

/-- R276, R382: is a FAB_RETRY value within both bounds? -/
def retryOk (v : Nat) : Bool := let n := (field v 35 32 + 1) * field v 19 0; decide (241400 ≤ n) && decide (n ≤ 900000)

/-- R434: is an entry within its field's values? -/
def configOk (x : BitVec 16 × BitVec 256) : Bool :=
  let v := x.2.toNat
  match x.1.toNat with
  | 0x01 => decide (v ≤ 3)
  | 0x02 => decide (v ≤ 4)
  | 0x03 | 0x04 => decide (v < 2 ^ 64)
  | 0x05 => decide (1 ≤ v) && decide (v ≤ 48)
  | 0x06 => decide (v < 2 ^ 64) && retryOk v
  | 0x28 => decide (v ≤ 7)
  | n => (decide (0x10 ≤ n) && decide (n ≤ 0x13)) || (decide (0x20 ≤ n) && decide (n ≤ 0x27))

/-- R434: the record with an entry rewritten. -/
def configSet (fs : List (BitVec 16 × BitVec 256)) (x : BitVec 16 × BitVec 256) : List (BitVec 16 × BitVec 256) :=
  fs.filter (fun y => y.1 ≠ x.1) ++ [x]

/-- R434: what takes effect at once. -/
def State.configNow (x : BitVec 16 × BitVec 256) (s : State) : State :=
  match x.1.toNat with
  | 0x03 => s.writeCadCtrl (x.2.setWidth 64)
  | 0x04 => s.applyRoles x.2.toNat
  | 0x05 => s.applyScrub x.2.toNat
  | _ => s

/-- CONFIG_READ (R425, R434). -/
def execConfigRead (m : Fin 32) (s : State) : Host.Outcome State Fault Refusal := onCmd m 0x0201 s (fun _ s => s.mbxAnswer m mbOk s.configBytes)

/-- CONFIG_WRITE (R434, R435): every entry or none; the record is rewritten and bound to this package. -/
def execConfigWrite (m : Fin 32) (s : State) : Host.Outcome State Fault Refusal :=
  onCmd m 0x0202 s (fun x s =>
    let n := x.payload.length / 40
    let es := (upTo n).map (configEntryOf x.payload)
    if x.payload.length % 40 ≠ 0 ∨ n = 0 ∨ n > 101 ∨ !(es.all configOk) then s.mbxAnswer m mbBadLen []
    else if s.job.attached ∧ es.any (fun e => e.1 == 0x04) then s.mbxAnswer m mbAttached []
    else
      let old := match s.flash.config with
        | some c => if c.tagGood then c.fields else []
        | none => []
      let s := s.onFlash (fun f => { f with config := some (ConfigRecord.bound (es.foldl configSet old)) })
      (es.foldl (fun s e => s.configNow e) s).mbxAnswer m mbOk [])

/-! ### Registers and log (R425, R427, R428) -/

/-- R427, R428: why an entry of REG_ACCESS stops the command. -/
def State.regRefused (s : State) (m : Fin 32) (write : Bool) (a : Nat) : Option Nat :=
  match regAddr a with
  | none => some mbRegAddr
  | some (b, w, o) =>
    if !(s.hasReg b w o) then some (if write ∧ isPort b w o then mbRegProtected else mbRegAddr)
    else if !write then none
    else if regProtected b w o then some mbRegProtected
    else if !(isFabricMbx m) && s.jobOwned b w o then some mbJobOwned
    else none

/-- R427: the entries in order: the state, the entries as returned, and the first refusal with its index. -/
def State.regEntries (m : Fin 32) (data : List Byte) : List Nat → State → List Byte → State × List Byte × Option (Nat × Nat)
  | [], s, out => (s, out, none)
  | i :: rest, s, out =>
    let word := leAt data (16 * i) 8
    let a := word / 2 * 2
    let write := word.testBit 0
    match s.regRefused m write a with
    | some st => (s, out ++ data.drop (16 * i), some (i, st))
    | none =>
      if write then s.regWrite .banker a (leAt data (16 * i + 8) 8) |>.regEntries m data rest (out ++ slice data (16 * i) 16)
      else s.regEntries m data rest (out ++ slice data (16 * i) 8 ++ leBytes 8 ((s.bankerRead a).getD 0))

/-- REG_ACCESS (R427, R428). -/
def execRegAccess (m : Fin 32) (s : State) : Host.Outcome State Fault Refusal :=
  onCmd m 0x0501 s (fun x s =>
    let n := x.payload.length / 16
    if x.payload.length % 16 ≠ 0 ∨ n = 0 ∨ n > 254 then s.mbxAnswer m mbBadLen []
    else
      let r := s.regEntries m x.payload (upTo n) []
      match r.2.2 with
      | none => r.1.mbxAnswer m mbOk r.2.1
      | some (i, st) => r.1.mbxAnswer m st r.2.1 (some i))

/-- LOG_READ (R392, R425): up to 63 records from the SEQ in ARG on. -/
def execLogRead (m : Fin 32) (s : State) : Host.Outcome State Fault Refusal :=
  onCmd m 0x0601 s (fun x s =>
    let rs := (s.flt.log.filter (fun r => decide (x.arg.toNat % 2 ^ 32 ≤ r.seq.toNat))).take 63
    s.mbxAnswer m mbOk (joinBytes (rs.map ErrRec.bytes)))

/-! ### Identity (R440, R441) -/

/-- ATTEST (R441). -/
def execAttest (m : Fin 32) (s : State) : Host.Outcome State Fault Refusal :=
  onCmd m 0x0801 s (fun x s => if x.payload.length ≠ 32 then s.mbxAnswer m mbBadLen [] else s.mbxAnswer m mbOk (s.attestation x.payload))

/-- CERT_READ (R425, R440): the part of the chain that PART numbers; LAST with the last one. -/
def execCertRead (m : Fin 32) (s : State) : Host.Outcome State Fault Refusal :=
  onCmd m 0x0802 s (fun x s =>
    let off := 4064 * x.part.toNat
    if off > 0 ∧ off ≥ Config.certificate.length then s.mbxAnswer m mbBadPart []
    else s.mbxAnswer m mbOk ((Config.certificate.drop off).take 4064) none (some (decide (off + 4064 ≥ Config.certificate.length))))

/-! ### Firmware (R437-R439) -/

/-- An image check's status, with BNK_ERR.AUTH_FAIL where it is that (R446). -/
def State.noteImage (st : Option Nat) (s : State) : State := if st = some mbAuthFail then s.bnkErr 64 else s

/-- FW_STAGE (R439): the image has gone part by part into the slot that is not running; OK where it reads back verified. -/
def execFwStage (m : Fin 32) (s : State) : Host.Outcome State Fault Refusal :=
  onCmd m 0x0901 s (fun x s =>
    if x.payload.length > imageMax then s.mbxAnswer m mbBadLen []
    else
      let st := s.imageCheck (vget s.flash.slots s.spareSlot [])
      ((s.onBnk (fun b => { b with staged := st.isNone })).noteImage st).mbxAnswer m (st.getD mbOk) [])

/-- FW_ACTIVATE (R439): the staged slot becomes ACTIVE, as a trial; with no verified image staged there is none, which is AUTH_FAIL (log
entry 13). -/
def execFwActivate (m : Fin 32) (s : State) : Host.Outcome State Fault Refusal :=
  onCmd m 0x0902 s (fun _ s =>
    if !s.bnk.staged then s.mbxAnswer m mbAuthFail []
    else (s.onFlash (Flash.rewrite (fun r => { r with active := s.spareSlot, trial := true, tries := 3 }))).mbxAnswer m mbOk [])

/-- FW_CONFIRM (R439): the trial ends, and the fused counter rises to the running image's SVN. -/
def execFwConfirm (m : Fin 32) (s : State) : Host.Outcome State Fault Refusal :=
  onCmd m 0x0903 s (fun _ s =>
    let s := s.onFlash (fun f => { f.rewrite (fun r => { r with trial := false }) with svnRaised := max f.svnRaised (imageSvn s.boot.running) })
    (s.onBnk (fun b => { b with fwTrial := false })).mbxAnswer m mbOk [])

/-- BOOT_LOAD (R397, R439): the waiting boot ROM verifies an image and runs it. -/
def execBootLoad (m : Fin 32) (s : State) : Host.Outcome State Fault Refusal :=
  onCmd m 0x0904 s (fun x s =>
    if !s.boot.mbxWait then s.mbxAnswer m mbBadCmd []
    else if x.payload.length > imageMax then s.mbxAnswer m mbBadLen []
    else match s.imageCheck x.payload with
      | some st => (s.noteImage (some st)).mbxAnswer m st []
      | none => (s.runImage x.payload 3).mbxAnswer m mbOk [])

/-! ### Resets (R370, R408, R411, R425) -/

/-- The scope in ARG: bits [2:0] its code, [15:8] the block of a Core, [31:16] the number (log entry 13). -/
def scopeOfArg (arg : Nat) : Option Scope :=
  let n := field arg 31 16
  let core (b : Block) (k : Nat) : Option Scope := if n < k then some (.core b (Fin.ofNat 192 n)) else none
  match arg % 8 with
  | 1 => match field arg 15 8 with
    | 1 => core .tbl 64
    | 2 => core .atm 64
    | 3 => core .sol 16
    | 5 => core .shf 16
    | 6 => core .dlr 192
    | _ => none
  | 2 => if n < 16 then some (.suit (Fin.ofNat 16 n)) else none
  | 3 => if n < 4 then some (.deck (Fin.ofNat 4 n)) else none
  | 4 => some .package
  | _ => none

/-- SCOPED_RESET (R408, R411, R425): a Package reset happens at once; a smaller one is begun, and answered when it has returned to service. -/
def execScopedReset (m : Fin 32) (s : State) : Host.Outcome State Fault Refusal :=
  onCmd m 0x0A01 s (fun x s =>
    match scopeOfArg x.arg.toNat with
    | none => s.mbxAnswer m mbBadLen []
    | some .package => s.packageReset
    | some sc =>
      let running (s : State) : Bool := s.resets.any (fun r => sc.within r.scope) || s.resetReqs.any (fun q => sc.within q.scope)
      if s.bnk.resetOf.isSome then (if running s then s else s.mbxAnswer m mbOk [])
      else if !(s.scopeExists sc) then s.mbxAnswer m mbBadLen []
      else
        let s := s.beginReset sc false
        if running s then s.onBnk (fun b => { b with resetOf := some sc }) else s)

/-! ### Debug (R444) -/

/-- DEBUG_UNLOCK with ARG 0 (R444): a fresh challenge. -/
def execDebugUnlockChallenge (m : Fin 32) (s : State) : Host.Outcome State Fault Refusal :=
  onCmd m 0x0B01 s (fun x s =>
    if x.arg ≠ 0 then s
    else
      let c := Config.entropy s.freeCtr
      let s := { s with freeCtr := s.freeCtr + 1 }
      (s.onBnk (fun b => { b with challenge := some c })).mbxAnswer m mbOk (digestBytes c))

/-- R444: is a debug token good? -/
def State.tokenGood (s : State) (b : List Byte) : Bool :=
  let token := slice b 0 72
  let key := BitVec.ofNat 256 (Config.imageField (slice s.boot.running 0 128) 3)
  Config.verify key (shake256 32 token) (slice b 72 sigLen) && BitVec.ofNat 256 (leAt token 8 32) == Config.identity &&
    s.bnk.challenge == some (BitVec.ofNat 256 (leAt token 40 32))

/-- DEBUG_UNLOCK with ARG 1 (R444): a token of level 1 opens the scan chains. -/
def execDebugUnlockToken (m : Fin 32) (s : State) : Host.Outcome State Fault Refusal :=
  onCmd m 0x0B01 s (fun x s =>
    if x.arg ≠ 1 then s
    else if x.payload.length ≠ 72 + sigLen ∨ leAt x.payload 2 1 ≠ 1 then s.mbxAnswer m mbBadLen []
    else if s.job.attached then s.mbxAnswer m mbAttached []
    else if !(s.tokenGood x.payload) then (s.bnkErr 64).mbxAnswer m mbAuthFail []
    else ((s.onBnk (fun b => { b with debugOpen := true })).bnkErr 16).mbxAnswer m mbOk [])

/-! ### Management bus and boundary scan (R443, R445) -/

/-- SMBUS_BLOCK_READ (R445): BNK_BOOT, BNK_SEC or BNK_ID; any other command is refused with a NACK. -/
def execSmbusBlockRead (cmd : Byte) (s : State) : Host.Outcome State Fault Refusal :=
  live s (fun s =>
    let ans := match cmd.toNat with
      | 0 => some (leBytes 8 s.bnkBoot)
      | 1 => some (leBytes 8 s.bnkSec)
      | 2 => some (digestBytes Config.identity)
      | _ => none
    s.onBnk (fun b => { b with smbus := ans }))

/-- R443: an instruction of the JTAG port, which works in reset too, while the package has its supply. -/
def scan (s : State) (f : Jtag → Jtag) : Host.Outcome State Fault Refusal := .next (if s.boot.supply then { s with jtag := f s.jtag } else s)

/-- BYPASS (R443): the one-bit bypass register, which captures 0 (IEEE 1149.1; log entry 13). -/
def execBypass (s : State) : Host.Outcome State Fault Refusal := scan s (fun j => { j with ir := .bypass, dr := 0 })

/-- IDCODE (R443). -/
def execIdcode (s : State) : Host.Outcome State Fault Refusal :=
  scan s (fun j => { j with ir := .idcode, dr := Config.jtagIdcode.setWidth 64 })

/-- SAMPLE/PRELOAD (R443): the lands are captured, and the boundary cells loaded. -/
def execSamplePreload (pins preload : BitVec 40) (s : State) : Host.Outcome State Fault Refusal :=
  scan s (fun _ => ⟨.samplePreload, pins.setWidth 64, preload⟩)

/-- EXTEST (R443): the boundary cells drive the lands, and the lands are captured. -/
def execExtest (pins : BitVec 40) (s : State) : Host.Outcome State Fault Refusal :=
  scan s (fun j => { j with ir := .extest, dr := pins.setWidth 64 })

end Sys2Proof.Machine
end

