-- ==== Sys2Proof/Machine/Jobs.lean ====
section
/-!
DEFINITION. Jobs.lean: jobs (R430-R433): attach, START and detach; rank updates (R300), warm profiles (R308), and small programs (R255, R256,
R429).
-/
namespace Sys2Proof.Machine

open Sys2Proof

/-! ### Attach (R430, R431) -/

/-- R190: the job's key. -/
def jobKey (seed salt : Nat) : BitVec 128 := BitVec.ofNat 128 (leNat (shake256 16 (leBytes 1 1 ++ leBytes 8 seed ++ leBytes 8 salt)))

/-- R430, R431: the job of a record and its image. -/
def jobOf (b : List Byte) (m : Fin 32) : Job :=
  let img := streamImage b
  { Job.none with
    attached := true, tag := BitVec.ofNat 16 (leAt b 0 2), policy := BitVec.ofNat 8 (leAt b 2 1), nodeCount := BitVec.ofNat 32 (leAt b 4 4)
    rank := BitVec.ofNat 32 (leAt b 12 4), seed := BitVec.ofNat 64 (leAt b 16 8), salt := BitVec.ofNat 64 (leAt img 8 8)
    start := BitVec.ofNat 64 (leAt b 104 8), imageBase := recBase b, imageLen := recLen b
    imageDigest := digest256 img, configDigest := digest256 (b.take (recBytes b))
    regions := (upTo (recRegions b)).map (regionOf b), chunks := inputChunks ((upTo (recRegions b)).map (regionOf b)), uses := usesOf img, entry := leAt img 62 2
    profile := BitVec.ofNat 256 (leAt b 72 32), attachMbx := some m }

/-- R431: every check has passed: key, FAB_CTRL, FAB_RETRY, job tag and epoch 1 are written, and the counters of the named units reset
(R457). -/
def State.attach (j : Job) (s : State) : State :=
  let s := s.onJob (fun _ => j)
  let s := s.onEng (fun e => { e with key := jobKey j.seed.toNat j.salt.toNat })
  let s := s.onFab (fun f => { f with
    rackBase := BitVec.ofNat 16 (64 * (j.rank.toNat / 64)), mySlot := BitVec.ofNat 6 (j.rank.toNat % 64), enable := true
    jobTag := j.tag, epoch := 1 })
  let s := (s.configField 6).elim s (fun v => s.writeFabRetry v.toNat)
  (s.onCkp (fun k => { k with lastStep := none })).scoreJob j.uses

/-- JOB_ATTACH (R430, R431): the checks in order; the node that passes them is attached and waits for START. -/
def execJobAttach (m : Fin 32) (s : State) : Host.Outcome State Fault Refusal :=
  onCmd m 0x0301 s (fun x s =>
    let b := x.payload
    if s.job.attachMbx = some m then s
    else if s.job.attached then s.mbxAnswer m mbAttached []
    else if s.bnk.debugOpen then s.mbxAnswer m mbDebugOpen []
    else if s.attachBad b ((s.mbx m).xfer.elim s.now (·.firstAt)) then s.mbxAnswer m mbBadLen []
    else
      let img := streamImage b
      let failed (status : Nat) : State := (s.onFab (fun f => { f with ranks := [] })).mbxAnswer m status []
      if (digest256 img).toNat ≠ leAt b 40 32 ∨ img.length < 64 ∨ leAt img 0 2 ≠ 1 then failed mbImageBad
      else if s.namesAbsent (usesOf img) then failed mbAttachInventory
      else s.attach (jobOf b m))

/-! ### START (R42, R308, R431) -/

/-- R308: a held profile whose members have all passed attestation and reported clean: they are admitted with the first epoch. -/
def State.warmAdmit (s : State) : State :=
  match s.fab.profiles.find? (fun p => p.digest = s.job.profile) with
  | none => s
  | some w =>
    let ms := w.members.filter (fun id => id != Config.identity)
    if ms.all (fun id => (s.partner id).any (fun p => p.attested && p.clean)) then
      s.admitWhere s.cad.count (fun p => ms.contains p.identity)
    else s

/-- R431: a Dealer core that the image names starts at ENTRY. -/
def Core.startAt (pc : Nat) (x : Core) : Core :=
  { x with pc := BitVec.ofNat 64 pc, runBit := true, halted := false, trapped := false, atSafepoint := false, haltingSince := none, stall := none }

/-- R431: RUN in every engine that the image names, and in the Trick engine; the named cores start. -/
def State.startUnits (j : Job) (s : State) : State :=
  let s := [EngKind.tbl, .atm, .sol, .shf].foldl (fun s k => (upTo k.count).foldl (fun s i =>
    if j.uses.names (scoEngine k i) then s.writeEngRun k i true else s) s) s
  let s := s.onTrk (fun t => { t with runBit := true })
  (List.finRange 192).foldl (fun s (c : Fin 192) => if j.uses.dlr.getLsbD c then s.onCore c (Core.startAt (j.imageBase + 64 * j.entry)) else s) s

/-- R431: at START the job runs, and JOB_ATTACH is answered. -/
def State.startJob (s : State) : State :=
  match s.job.attachMbx with
  | none => s
  | some m =>
    if !(relReached s s.job.start.toNat) then s
    else
      let s := s.digestChunks.onJob (fun j => { j with started := true, attachMbx := none })
      (s.warmAdmit.startUnits s.job).mbxAnswer m mbOk []

/-- ATTACH_START (R431). -/
def execAttachStart (s : State) : Host.Outcome State Fault Refusal := inService s State.startJob

/-! ### Detach (R308, R433) -/

/-- R299: the 8 bytes of a rank-table entry. -/
def RankEntry.bytes (e : RankEntry) : List Byte := leBytes 8 (2 ^ 63 + e.node.rack.toNat * 2 ^ 32 + e.node.pslot.toNat * 2 ^ 24)

/-- The rank table in rank order (`fuel` entries at most). -/
def rankOrder : Nat → List RankEntry → List RankEntry
  | 0, _ => []
  | n + 1, rs =>
    match rs with
    | [] => []
    | r :: rest =>
      let lo := rest.foldl (fun (a b : RankEntry) => if b.rank < a.rank then b else a) r
      lo :: rankOrder n (rs.filter (fun x => x.rank ≠ lo.rank))

/-- R308: the routes and the rank table are kept as a warm profile, in place of the oldest of four. -/
def State.keepProfile (s : State) : State :=
  let rs := rankOrder s.fab.ranks.length s.fab.ranks
  let ids := rs.filterMap (fun e =>
    if e.rank = s.job.rank.toNat then some Config.identity else (s.fab.partners.find? (fun p => p.rank.toNat = e.rank)).map (·.identity))
  let d := digest256 (joinBytes (rs.map RankEntry.bytes) ++ joinBytes (ids.map digestBytes))
  s.onFab (fun f =>
    let rest := f.profiles.filter (fun p => p.digest ≠ d)
    { f with profiles := rest.drop (rest.length - 3) ++ [⟨d, rs, ids⟩] })

/-- R433, step 1: cores halt, every engine stops and its queued work completes with RESET. -/
def State.stopUnits (s : State) : State :=
  let s := (List.finRange 192).foldl (fun s c => (s.onCore c (fun x => { x with runBit := false })).stopCore c false) s
  let s := [EngKind.tbl, .atm, .sol, .shf].foldl (fun s k => (upTo k.count).foldl (fun s i =>
    (s.writeEngRun k i false).resetEngine k i) s) s
  (s.onTrk (fun t => { t with runBit := false })).trkClear

/-- R433, steps 3 and 4: key, receive queues, anchored regions and rank entries are cleared, JOB_TAG is 0 and the epoch closed. No hand is
left, and a VERIFIED step is INCOMPLETE (R347). -/
def State.clearJob (s : State) : State :=
  let s := s.onEng (fun e => { e with key := 0 })
  let s := s.onHnd (fun h => { h with rxq := HandUnit.reset.rxq, out := [], inn := [], waiting := [], unsent := [], claims := [] })
  let s := s.onHbm (fun h => { h with areg := MemUnit.reset.areg })
  let s := s.onTrk (fun t => { t with done := [], early := [] })
  let s := (s.onCkp (fun k => if k.st = .verified then { k with st := .incomplete } else k)).endCommit ckInconsistent
  s.onFab (fun f => { f with
    ranks := [], rankUpdate := none, rrc := [], epoch := 0, prevJobTag := f.jobTag, jobTag := 0
    partners := f.partners.map (fun p => { p with admitted := false, clean := false, readySince := none }) })

/-- R433: the job is gone: the named units' counters are reset (R457), and failing channels retire (R246). -/
def State.endJob (m : Fin 32) (s : State) : State :=
  let s := s.scoreJob s.job.uses
  ((s.onJob (fun _ => Job.none)).retireFailing).mbxAnswer m mbOk []

/-- R433, step 5 and the answer: when every replay table is empty. -/
def State.detachEnd (m : Fin 32) (s : State) : State := if s.fab.replay.isEmpty ∧ s.fab.msgReplay.isEmpty then s.endJob m else s

/-- R294, R433: a voted hand that a Detach waits for: one that is kept held for want of an answer is discarded by it. -/
def HandIn.waited (h : HandIn) : Bool := h.st == .voted && !h.stuck

/-- R433, steps 2 to 4: when no voted hand is awaited. -/
def State.detachClear (m : Fin 32) (keep : Bool) (s : State) : State :=
  if s.hnd.inn.any HandIn.waited then s
  else
    let s := if keep then s.keepProfile else s
    ((s.clearJob).onJob (fun j => { j with detachStep := 5 })).detachEnd m

/-- JOB_DETACH (R433): the sequence goes as far as it can; taken again, it goes on. -/
def execJobDetach (m : Fin 32) (s : State) : Host.Outcome State Fault Refusal :=
  onCmd m 0x0302 s (fun x => needsJob m (fun s =>
    let keep := x.arg.getLsbD 0
    match s.job.detachStep with
    | 0 => (s.stopUnits.onJob (fun j => { j with detachStep := 2 })).detachClear m keep
    | 2 => s.detachClear m keep
    | _ => s.detachEnd m))

/-! ### Rank updates (R300) -/

/-- RANK_UPDATE (R34, R300): EPOCH at byte 0, the number of pairs at 4, the release at 8, then 16 bytes a pair: rank at 0, entry at 8 (log
entry 13). -/
def execRankUpdate (m : Fin 32) (s : State) : Host.Outcome State Fault Refusal :=
  onCmd m 0x0303 s (fun x => needsJob m (fun s =>
    let b := x.payload
    let n := leAt b 4 4
    let rel := leAt b 8 8
    let es := (upTo n).map (fun i => (leAt b (16 + 16 * i) 4, BitVec.ofNat 64 (leAt b (24 + 16 * i) 8)))
    if b.length ≠ 16 + 16 * n ∨ n > 4096 ∨ rel % 65536 ≠ 0 ∨ !(relValid s rel) ∨ relTime rel < s.now + 60000 ∨
        leAt b 0 4 ≠ s.fab.epoch.toNat + 1 ∨ s.fab.rankUpdate.isSome ∨ es.any (fun e => decide (e.1 > 65535)) then s.mbxAnswer m mbBadLen []
    else (s.onFab (fun f => { f with rankUpdate := some ⟨BitVec.ofNat 32 (leAt b 0 4), BitVec.ofNat 64 rel, es⟩ })).mbxAnswer m mbOk []))

/-! ### Small programs (R429) -/

/-- R429: PROGRAM_LOAD of one kind. -/
def onProgram (m : Fin 32) (kind : Nat) (s : State) (f : Nat → List Byte → State → State) : Host.Outcome State Fault Refusal :=
  onCmd m 0x0401 s (fun x s => if x.arg.toNat % 16 = kind then f (x.arg.toNat / 256) x.payload s else s)

/-- R429: an image that is written into HBM, at an address in an attached region, when its checks pass. -/
def State.placeImage (m : Fin 32) (bad : Bool) (a : Nat) (b : List Byte) (s : State) : State :=
  if a % 64 ≠ 0 ∨ s.storeOfExtent a b.length ≠ some .hbm ∨ !(s.job.regions.any (fun r => inside a b.length r.base r.len)) then s.mbxAnswer m mbBadLen []
  else if bad then s.mbxAnswer m mbProgRefused []
  else (s.writeMem a b).mbxAnswer m mbOk []

/-- R80, R164, R166, R429: the checks of a formula that need no descriptor; loads are held against no record stride. -/
def formulaRefused (b : List Byte) : Bool :=
  let f := formulaOf b
  decide (b.length < formulaSize (slice b 0 64)) || formulaBad f (2 ^ 64) (2 ^ 64) || decide (f.sigA < -960) || decide (f.sigA > 960)

/-- FORMULA_LOAD (R429). -/
def execFormulaLoad (m : Fin 32) (s : State) : Host.Outcome State Fault Refusal :=
  onProgram m 1 s (fun a b => needsJob m (State.placeImage m (formulaRefused b) a b))

/-- R141, R143: does a micro-operation fail on its own? -/
def badImageOp (m : MicroOp) : Bool :=
  match aopOf m.opc with
  | none => true
  | some o =>
    !(o.types.contains m.ty) || (o.writes && (decide (m.dst > 31) || (m.ty == 3 && o != .cmp && m.dst % 2 == 1))) ||
    (match o with
      | .ld | .red | .cmp => decide (m.aux > 3)
      | .st => !(m.aux == 4 || m.aux == 5)
      | .cvt => decide (m.aux > 4)
      | _ => false)

/-- R137, R141, R143, R429: the checks of an Atomizer program that need no descriptor. -/
def atmImageRefused (b : List Byte) : Bool :=
  let g := atmProg b
  decide (b.length < 192 + 8 * g.nops) || g.nops == 0 || decide (g.nops > 256) || g.nphase == 0 || decide (g.nphase > 3) || g.l0 == 0 ||
  g.l0 + g.l1 + g.l2 != g.nops || (decide (g.nphase < 2) && g.l1 != 0) || (decide (g.nphase < 3) && g.l2 != 0) || g.ops.any badImageOp

/-- ATOMIZER_PROGRAM_LOAD (R429). -/
def execAtomizerProgramLoad (m : Fin 32) (s : State) : Host.Outcome State Fault Refusal :=
  onProgram m 2 s (fun a b => needsJob m (State.placeImage m (atmImageRefused b) a b))

/-- R317, R429: reserved codes of a Trick program. -/
def trkImageRefused (b : List Byte) : Bool :=
  decide (b.length < 320) || !([1, 2, 3, 0x11, 0x12, 0x13, 0x14, 0x15].contains (tKind b)) ||
  (tReduce b && tOp b == 3) || decide (tRmode b ≥ 2) || (tFmtIn b).isNone || (tFmtOut b).isNone ||
  (upTo 4).any (fun l => decide ((tLevel b l).alg > 4))

/-- R318: does an unfinished collective use the slot? -/
def State.slotInUse (s : State) (n : Nat) : Bool :=
  s.trk.running.any (fun c => c.progSlot == n) || s.trk.queue.any (fun q => leAt (s.readMem q.rec_ 64) 0 1 % 64 == n)

/-- TRICK_PROGRAM_LOAD (R318, R429). -/
def execTrickProgramLoad (m : Fin 32) (s : State) : Host.Outcome State Fault Refusal :=
  onProgram m 3 s (fun n b s =>
    if n > 63 then s.mbxAnswer m mbBadLen []
    else if s.slotInUse n then s.mbxAnswer m mbSlotInUse []
    else if trkImageRefused b then s.mbxAnswer m mbProgRefused []
    else (s.onTrk (fun t => { t with progs := vput t.progs n (b.take 320) })).mbxAnswer m mbOk [])

/-- R256: the words of a recipe. -/
def recipeWords (b : List Byte) : List Nat := (upTo (leAt b 0 1)).map (fun i => leAt b (64 + 8 * i) 8)

/-- R256: the APPLY words of a recipe. -/
def recipeApplies (b : List Byte) : List Nat := (recipeWords b).filter (fun w => field w 63 56 == 7)

/-- R256: why a load refuses a recipe. -/
def recipeRefused (b : List Byte) : Bool :=
  let ws := recipeWords b
  let as_ := recipeApplies b
  decide (b.length < 64 + 8 * ws.length) || ws.isEmpty || decide (ws.length > 32) || ws.any (fun w => decide (field w 63 56 > 7)) ||
  ws.getLast?.map (fun w => field w 63 56) != some 0 || decide (as_.length > 8) || decide (as_.foldl (fun n w => n + field w 37 29) 0 > 256) ||
  as_.any (fun w =>
    let code := field w 46 43
    let fmt := field w 42 38
    code == 0 || decide (code > 10) || !(msTakes code fmt) || decide (field w 8 0 + field w 37 29 * msSource_ code fmt > 256)) ||
  (ws.filter (fun w => field w 63 56 == 1)).any (fun w => decide (field w 8 0 + 2 ^ (field w 10 9) > 256))

/-- RECIPE_LOAD (R255, R429): the recipe enters the slot of every controller. -/
def execRecipeLoad (m : Fin 32) (s : State) : Host.Outcome State Fault Refusal :=
  onProgram m 4 s (fun n b s =>
    if n > 15 then s.mbxAnswer m mbBadLen []
    else if recipeRefused b then s.mbxAnswer m mbProgRefused []
    else (s.onHbm (fun h => { h with recipes := vput h.recipes n (slice b 0 (64 + 8 * leAt b 0 1)) })).mbxAnswer m mbOk [])

end Sys2Proof.Machine
end

