-- ==== Sys2Proof/Machine/CkpCmds.lean ====
section
/-!
DEFINITION. CkpCmds.lean: the mailbox commands of the checkpoint unit (R356, R358-R364). The spec does not give the layout of their payloads;
log entry 13 says which the model takes.
-/
namespace Sys2Proof.Machine

open Sys2Proof

/-! ### Dry-down (R356) -/

/-- CKP_DRYDOWN (R356): the payload has the fields of a Decant record; the step that the Sachet holds starts to drain. DRY_STATUS goes to
the record of its Decant. -/
def execCkpDrydown (m : Fin 32) (s : State) : Host.Outcome State Fault Refusal :=
  onCmd m 0x0701 s (fun x => needsJob m (fun s =>
    let r := decantRec 0 (slice x.payload 0 64)
    if x.payload.length < 64 ∨ r.dryBudget = 0 ∨ r.dryBudget > 1023 ∨ r.drySlots = 0 ∨ r.drySlots > 4095 then s.mbxAnswer m mbBadLen []
    else if s.ckp.st ≠ .held ∨ r.step ≠ s.ckp.sachetStep then s.mbxAnswer m ckInconsistent []
    else (s.startDry { r with addr := s.ckp.lastRec.elim 0 (·.addr) }).mbxAnswer m mbOk []))

/-! ### Statements and sealing (R358-R360) -/

/-- R359: the shard entry of this node for the step that its Sachet holds. -/
def State.shardEntry (s : State) : List Byte :=
  let set := s.ckp.set
  leBytes 4 s.job.rank.toNat ++ leBytes 2 set.length ++ leBytes 2 0 ++ leBytes 8 (shardLen set) ++
  digestBytes (shardDigest s.ckp.index) ++ setDigest set

/-- R358: the shard statement, 108 bytes. -/
def State.shardStatement (s : State) : List Byte :=
  s.shardEntry ++ leBytes 8 s.ckp.sachetStep.toNat ++ leBytes 4 s.job.nodeCount.toNat ++ digestBytes s.job.imageDigest

/-- CKP_STATEMENT (R358): statement and signature, once the Dry-down has completed. -/
def execCkpStatement (m : Fin 32) (s : State) : Host.Outcome State Fault Refusal :=
  onCmd m 0x0702 s (fun _ => needsJob m (fun s =>
    if s.ckp.st ≠ .drained then s.mbxAnswer m ckInconsistent []
    else let t := s.shardStatement; s.mbxAnswer m mbOk (t ++ signed t)))

/-- R359: NSHARDS. -/
def manShards (b : List Byte) : Nat := leAt b 88 4

/-- R359: shard entry `i` of a manifest. -/
def manEntry (b : List Byte) (i : Nat) : List Byte := slice b (128 + 64 * i) 64

/-- R359: bytes of a manifest before its signature. -/
def manBody (b : List Byte) : List Byte := slice b 0 (128 + 64 * manShards b)

/-- The identity that holds a rank of the job, as this node knows it (log entry 13). -/
def State.identityOf (s : State) (rank : Nat) : Option (BitVec 256) :=
  if rank = s.job.rank.toNat then some Config.identity
  else (s.fab.partners.find? (fun p => p.attested && p.rank.toNat == rank)).map (·.identity)

/-- R360: does a statement with its signature agree with its entry and the header? -/
def State.statementGood (s : State) (b entry st sig : List Byte) : Bool :=
  (s.identityOf (leAt entry 0 4)).any (fun id => Config.verify id (shake256 32 st) sig) &&
    slice st 0 6 == slice entry 0 6 && slice st 8 56 == slice entry 8 56 && slice st 64 8 == slice b 8 8 && slice st 72 4 == slice b 4 4 && slice st 76 32 == slice b 24 32

/-- R360: may this node seal the step: it holds rank 0, the manifest is whole, its entries stand in rank order, and every statement is good? -/
def State.sealGood (s : State) (x : List Byte) : Bool :=
  let n := manShards x
  let b := manBody x
  let at_ (i : Nat) : Nat := b.length + i * (108 + sigLen)
  s.job.rank == 0 && leAt b 0 2 == 1 && leAt b 4 4 == n && decide (n > 0) && slice b 96 32 == digestBytes Config.identity &&
    x.length == b.length + n * (108 + sigLen) &&
    (upTo n).all (fun i => decide (i = 0 ∨ leAt (manEntry b (i - 1)) 0 4 < leAt (manEntry b i) 0 4) &&
      s.statementGood b (manEntry b i) (slice x (at_ i) 108) (slice x (at_ i + 108) sigLen))

/-- R360: the signed manifest. A response is one payload of 4,064 bytes (R418), which a manifest of more than 9 ranks does not fit: its
signature alone is then returned (DESIGN CHOICE, log entry 13). -/
def signedManifest (b : List Byte) : List Byte :=
  let whole := b ++ signed b
  if whole.length ≤ 4064 then whole else signed b

/-- CKP_SEAL (R360): the payload is the unsigned manifest, then each statement with its signature; the answer is the signed manifest. -/
def execCkpSeal (m : Fin 32) (s : State) : Host.Outcome State Fault Refusal :=
  onCmd m 0x0703 s (fun x => needsJob m (fun s =>
    if s.sealGood x.payload then s.mbxAnswer m mbOk (signedManifest (manBody x.payload)) else s.mbxAnswer m ckManifestBad []))

/-- R361: does a sealed manifest carry its signer's signature? The signer is the node that holds rank 0, and is named by SIGNER_ID. -/
def manSigned (b : List Byte) : Bool :=
  let body := manBody b
  leAt b 0 2 == 1 && Config.verify (BitVec.ofNat 256 (leAt b 96 32)) (shake256 32 body) (slice b body.length sigLen)

/-- The shard entry of a rank. -/
def manEntryOf (b : List Byte) (rank : Nat) : Option (List Byte) :=
  ((upTo (manShards b)).map (manEntry b)).find? (fun e => leAt e 0 4 = rank)

/-! ### Staging (R361) -/

/-- R347, R361: the states whose Sachet may hold the step to be restored. -/
def SachetState.holds : SachetState → Bool
  | .held | .draining | .drained => true
  | _ => false

/-- R361: the set at `a` as a staging names it, with `n` entries. -/
def State.stageSet (s : State) (a n : Nat) : List SetEntry := setOf (s.readMem a (16 * n)) n

/-- R361: the step is already here: a Dry-down stops, and the digest is recomputed. -/
def State.stageHeld (m : Fin 32) (digest : BitVec 256) (s : State) : State :=
  let set := s.ckp.set
  let s := s.settleSachet set 0 (shardLen set)
  let index := s.shardIndex set
  let good := !(s.sachetPoison set 0 (shardLen set)) && shardDigest index == digest
  let s := s.onCkp (fun k => { k with index, dry := none, dryReady := none, st := if good then .verified else .incomplete })
  if good then s.mbxAnswer m ckVerified [] else (s.ckpErr 3 ckShardBad).mbxAnswer m ckShardBad []

/-- R347, R361: the Sachet is staged anew: a Dry-down of another step ends with DRY_LOST. -/
def State.stageNew (m : Fin 32) (step : BitVec 64) (digest : BitVec 256) (set : List SetEntry) (queue : Nat) (s : State) : State :=
  let s := ((s.endDry ckDryLost .incomplete).endStaging ckInconsistent).endCommit ckInconsistent
  s.onCkp (fun k => { k with
    st := .staging, set, sachetStep := step, dryReady := none, lastRec := none
    staging := some ⟨step, s.job.rank, digest, set, queue, [], [], [], m.val⟩ })

/-- CKP_STAGE (R361): the payload is the sealed manifest; ARG holds SET_ADDR in bits [63:6] and the receive queue in bits [5:0]. A
Decant that has passed its checks at its release, or copies, refuses it SACHET_BUSY, for R347 gives no edge between the two (log entry 20); a
recomputation waits for memory that a reset or a retrain holds. -/
def execCkpStage (m : Fin 32) (s : State) : Host.Outcome State Fault Refusal :=
  onCmd m 0x0704 s (fun x => needsJob m (fun s =>
    if s.ckp.answers.any (fun a => a.1 == m.val) then s.answerEnded
    else if s.ckp.staging.any (fun g => g.mbx == m.val) then s
    else
      let b := x.payload
      let setAddr := x.arg.toNat / 64 * 64
      match manEntryOf b s.job.rank.toNat with
      | none => s.mbxAnswer m ckManifestBad []
      | some e =>
        let n := leAt e 4 2
        let set := s.stageSet setAddr n
        if b.length < manifestLen b ∨ !(manSigned b) ∨ leAt b 4 4 ≠ s.job.nodeCount.toNat ∨ leAt b 24 32 ≠ s.job.imageDigest.toNat ∨
            setDigest set ≠ slice e 48 16 then s.mbxAnswer m ckManifestBad []
        else
          let step := BitVec.ofNat 64 (leAt b 8 8)
          let digest := BitVec.ofNat 256 (leAt e 16 32)
          if s.ckp.st = .decanting ∨ s.ckp.phase = .armed then s.mbxAnswer m ckBusy []
          else if s.ckp.sachetStep = step ∧ s.ckp.st.holds then (if s.ckpWaits then s else s.stageHeld m digest)
          else s.stageNew m step digest set (x.arg.toNat % 64)))

/-! ### Commit (R362, R363) -/

/-- CKP_COMMIT (R362): the payload is STEP, ARG the release. The step is VERIFIED here, or it is refused. -/
def execCkpCommit (m : Fin 32) (s : State) : Host.Outcome State Fault Refusal :=
  onCmd m 0x0705 s (fun x => needsJob m (fun s =>
    let rel := x.arg.toNat
    if s.ckp.answers.any (fun a => a.1 == m.val) then s.answerEnded
    else if s.ckp.commit.any (fun c => c.mbx == m.val) then s
    else if x.payload.length ≠ 8 ∨ rel % 65536 ≠ 0 ∨ !(relValid s rel) then s.mbxAnswer m mbBadLen []
    else if s.ckp.commit.isSome ∨ s.ckp.st ≠ .verified ∨ s.ckp.sachetStep.toNat ≠ leAt x.payload 0 8 then s.mbxAnswer m ckInconsistent []
    else s.onCkp (fun k => { k with commit := some ⟨s.ckp.sachetStep, x.arg, false, false, m.val⟩ })))

/-! ### Shard reads (R364) -/

/-- CKP_SHARD_READ (R364): 64 bytes that name the rank (0), the queue (4), the byte range (8, 16) and the Live destination (24), then the
sealed manifest. -/
def execCkpShardRead (m : Fin 32) (s : State) : Host.Outcome State Fault Refusal :=
  onCmd m 0x0706 s (fun x => needsJob m (fun s =>
    if s.ckp.answers.any (fun a => a.1 == m.val) then s.answerEnded
    else if s.ckp.reads.any (fun r => r.mbx == m.val) then s
    else
      let h := x.payload
      let b := h.drop 64
      let rank := leAt h 0 4
      let off := leAt h 8 8
      let len := leAt h 16 8
      let dest := leAt h 24 8
      match manEntryOf b rank with
      | none => s.mbxAnswer m ckManifestBad []
      | some e =>
        if b.length < manifestLen b ∨ !(manSigned b) then s.mbxAnswer m ckManifestBad []
        else if off + len > leAt e 8 8 ∨ leAt h 4 1 ≥ 64 ∨ s.storeOfExtent dest (max len 1) ≠ some .hbm then
          s.mbxAnswer m mbBadLen []
        else if len = 0 then s.mbxAnswer m mbOk []
        else
          let r : ShardRead := {
            step := BitVec.ofNat 64 (leAt b 8 8), rank := BitVec.ofNat 32 rank, shardDigest := BitVec.ofNat 256 (leAt e 16 32), total := leAt e 8 8
            queue := leAt h 4 1, off, len, dest, index := [], data := [], finished := [], bad := false, mbx := m.val }
          s.onCkp (fun k => { k with reads := k.reads ++ [r] })))

end Sys2Proof.Machine
end

