-- ==== Sys2Proof/Machine/DealerInt.lean ====
section
/-!
DEFINITION. DealerInt.lean: the integer, branch and jump instructions of a Dealer core (R219). Integer arithmetic wraps modulo 2^64.
-/
namespace Sys2Proof.Machine

open Sys2Proof

/-! ### Shared forms -/

/-- Write G[D] and retire. -/
def State.putG (c : Fin 192) (d : Fin 32) (v : BitVec 64) (s : State) : State := (s.onCore c (Core.setG d v)).retire4 c

/-- An instruction whose result in G[D] is a function of G[A] and G[B]. -/
def intRR (c : Fin 192) (d a b : Fin 32) (f : BitVec 64 → BitVec 64 → BitVec 64) (s : State) : Host.Outcome State Fault Refusal :=
  onIssue c s (fun s => s.putG c d (f ((s.core c).gr a) ((s.core c).gr b)))

/-- An instruction whose result in G[D] is a function of G[A] and the signed IMM16. -/
def intRI (c : Fin 192) (d a : Fin 32) (imm : BitVec 16) (f : BitVec 64 → BitVec 64 → BitVec 64) (s : State) : Host.Outcome State Fault Refusal :=
  onIssue c s (fun s => s.putG c d (f ((s.core c).gr a) (imm.signExtend 64)))

/-- An instruction whose result in G[D] is a function of G[A] and a shift count. -/
def intSh (c : Fin 192) (d a : Fin 32) (sh : BitVec 6) (f : BitVec 64 → Nat → BitVec 64) (s : State) : Host.Outcome State Fault Refusal :=
  onIssue c s (fun s => s.putG c d (f ((s.core c).gr a) sh.toNat))

/-- R219: a displacement in instruction words, added to the pc. -/
def pcPlus {w : Nat} (pc : BitVec 64) (off : BitVec w) : BitVec 64 := pc + (off.signExtend 64 <<< 2)

/-- A branch: to PC + 4·IMM where the comparison of G[D] and G[A] holds, else to the next instruction. -/
def branch (c : Fin 192) (d a : Fin 32) (imm : BitVec 16) (f : BitVec 64 → BitVec 64 → Bool) (s : State) : Host.Outcome State Fault Refusal :=
  onIssue c s (fun s =>
    let x := s.core c
    s.retire c (if f (x.gr d) (x.gr a) then pcPlus x.pc imm else x.pc + 4))

/-- A jump, with G31 := PC + 4 where it links. -/
def jump (c : Fin 192) (link : Bool) (target : Core → BitVec 64) (s : State) : Host.Outcome State Fault Refusal :=
  onIssue c s (fun s =>
    let x := s.core c
    let s := if link then s.onCore c (Core.setG 31 (x.pc + 4)) else s
    s.retire c (target x))

/-! ### Arithmetic -/

/-- R219: signed division: by zero all ones; the quotient rounds toward zero (log entry 15: PRESUMED) and wraps. -/
def div64s (a b : BitVec 64) : BitVec 64 := if b = 0 then BitVec.allOnes 64 else a.sdiv b

/-- R219: unsigned division: by zero all ones. -/
def div64u (a b : BitVec 64) : BitVec 64 := if b = 0 then BitVec.allOnes 64 else a / b

/-- R219: signed remainder: by zero the dividend; it has the sign of the dividend. -/
def rem64s (a b : BitVec 64) : BitVec 64 := if b = 0 then a else a.srem b

/-- R219: unsigned remainder: by zero the dividend. -/
def rem64u (a b : BitVec 64) : BitVec 64 := if b = 0 then a else a % b

/-- The high half of the signed product. -/
def mulHighS (a b : BitVec 64) : BitVec 64 := ((a.signExtend 128 * b.signExtend 128) >>> 64).setWidth 64

/-- The high half of the unsigned product. -/
def mulHighU (a b : BitVec 64) : BitVec 64 := ((a.setWidth 128 * b.setWidth 128) >>> 64).setWidth 64

/-- A shift by a register: by a count of 64 or more the spec gives no result: a free value (log entry 6). -/
def shiftBy (op : Nat) (f : BitVec 64 → Nat → BitVec 64) (a b : BitVec 64) : BitVec 64 :=
  if b.toNat < 64 then f a b.toNat else Config.shiftCorner op a b

/-- A truth value as a result. -/
def flag64 (p : Bool) : BitVec 64 := BitVec.ofNat 64 (bit01 p)

/-! ### The instructions -/

/-- ADD (R219). -/
def execAdd (c : Fin 192) (d a b : Fin 32) (s : State) : Host.Outcome State Fault Refusal := intRR c d a b (fun x y => x + y) s

/-- SUB (R219). -/
def execSub (c : Fin 192) (d a b : Fin 32) (s : State) : Host.Outcome State Fault Refusal := intRR c d a b (fun x y => x - y) s

/-- AND (R219). -/
def execAnd (c : Fin 192) (d a b : Fin 32) (s : State) : Host.Outcome State Fault Refusal := intRR c d a b (fun x y => x &&& y) s

/-- OR (R219). -/
def execOr (c : Fin 192) (d a b : Fin 32) (s : State) : Host.Outcome State Fault Refusal := intRR c d a b (fun x y => x ||| y) s

/-- XOR (R219). -/
def execXor (c : Fin 192) (d a b : Fin 32) (s : State) : Host.Outcome State Fault Refusal := intRR c d a b (fun x y => x ^^^ y) s

/-- SLL (R219). -/
def execSll (c : Fin 192) (d a b : Fin 32) (s : State) : Host.Outcome State Fault Refusal := intRR c d a b (shiftBy 0 (fun x n => x <<< n)) s

/-- SRL (R219). -/
def execSrl (c : Fin 192) (d a b : Fin 32) (s : State) : Host.Outcome State Fault Refusal := intRR c d a b (shiftBy 1 (fun x n => x >>> n)) s

/-- SRA (R219). -/
def execSra (c : Fin 192) (d a b : Fin 32) (s : State) : Host.Outcome State Fault Refusal := intRR c d a b (shiftBy 2 (fun x n => x.sshiftRight n)) s

/-- MUL (R219). -/
def execMul (c : Fin 192) (d a b : Fin 32) (s : State) : Host.Outcome State Fault Refusal := intRR c d a b (fun x y => x * y) s

/-- MULHS (R219). -/
def execMulhs (c : Fin 192) (d a b : Fin 32) (s : State) : Host.Outcome State Fault Refusal := intRR c d a b mulHighS s

/-- MULHU (R219). -/
def execMulhu (c : Fin 192) (d a b : Fin 32) (s : State) : Host.Outcome State Fault Refusal := intRR c d a b mulHighU s

/-- DIV (R219). -/
def execDiv (c : Fin 192) (d a b : Fin 32) (s : State) : Host.Outcome State Fault Refusal := intRR c d a b div64s s

/-- DIVU (R219). -/
def execDivu (c : Fin 192) (d a b : Fin 32) (s : State) : Host.Outcome State Fault Refusal := intRR c d a b div64u s

/-- REM (R219). -/
def execRem (c : Fin 192) (d a b : Fin 32) (s : State) : Host.Outcome State Fault Refusal := intRR c d a b rem64s s

/-- REMU (R219). -/
def execRemu (c : Fin 192) (d a b : Fin 32) (s : State) : Host.Outcome State Fault Refusal := intRR c d a b rem64u s

/-- SLT (R219). -/
def execSlt (c : Fin 192) (d a b : Fin 32) (s : State) : Host.Outcome State Fault Refusal := intRR c d a b (fun x y => flag64 (x.slt y)) s

/-- SLTU (R219). -/
def execSltu (c : Fin 192) (d a b : Fin 32) (s : State) : Host.Outcome State Fault Refusal := intRR c d a b (fun x y => flag64 (x.ult y)) s

/-- ADDI (R219). -/
def execAddi (c : Fin 192) (d a : Fin 32) (imm : BitVec 16) (s : State) : Host.Outcome State Fault Refusal := intRI c d a imm (fun x i => x + i) s

/-- ANDI (R219). -/
def execAndi (c : Fin 192) (d a : Fin 32) (imm : BitVec 16) (s : State) : Host.Outcome State Fault Refusal := intRI c d a imm (fun x i => x &&& i) s

/-- ORI (R219). -/
def execOri (c : Fin 192) (d a : Fin 32) (imm : BitVec 16) (s : State) : Host.Outcome State Fault Refusal := intRI c d a imm (fun x i => x ||| i) s

/-- XORI (R219). -/
def execXori (c : Fin 192) (d a : Fin 32) (imm : BitVec 16) (s : State) : Host.Outcome State Fault Refusal := intRI c d a imm (fun x i => x ^^^ i) s

/-- SLTI: the comparison is signed (R219). -/
def execSlti (c : Fin 192) (d a : Fin 32) (imm : BitVec 16) (s : State) : Host.Outcome State Fault Refusal := intRI c d a imm (fun x i => flag64 (x.slt i)) s

/-- SLLI (R219). -/
def execSlli (c : Fin 192) (d a : Fin 32) (sh : BitVec 6) (s : State) : Host.Outcome State Fault Refusal := intSh c d a sh (fun x n => x <<< n) s

/-- SRLI (R219). -/
def execSrli (c : Fin 192) (d a : Fin 32) (sh : BitVec 6) (s : State) : Host.Outcome State Fault Refusal := intSh c d a sh (fun x n => x >>> n) s

/-- SRAI (R219). -/
def execSrai (c : Fin 192) (d a : Fin 32) (sh : BitVec 6) (s : State) : Host.Outcome State Fault Refusal := intSh c d a sh (fun x n => x.sshiftRight n) s

/-- LUI: D := IMM·2^16 (R219). -/
def execLui (c : Fin 192) (d : Fin 32) (imm : BitVec 16) (s : State) : Host.Outcome State Fault Refusal :=
  onIssue c s (State.putG c d (imm.signExtend 64 <<< 16))

/-- BEQ (R219). -/
def execBeq (c : Fin 192) (d a : Fin 32) (imm : BitVec 16) (s : State) : Host.Outcome State Fault Refusal := branch c d a imm (fun x y => x == y) s

/-- BNE (R219). -/
def execBne (c : Fin 192) (d a : Fin 32) (imm : BitVec 16) (s : State) : Host.Outcome State Fault Refusal := branch c d a imm (fun x y => x != y) s

/-- BLT (R219). -/
def execBlt (c : Fin 192) (d a : Fin 32) (imm : BitVec 16) (s : State) : Host.Outcome State Fault Refusal := branch c d a imm (fun x y => x.slt y) s

/-- BGE (R219). -/
def execBge (c : Fin 192) (d a : Fin 32) (imm : BitVec 16) (s : State) : Host.Outcome State Fault Refusal := branch c d a imm (fun x y => !(x.slt y)) s

/-- BLTU (R219). -/
def execBltu (c : Fin 192) (d a : Fin 32) (imm : BitVec 16) (s : State) : Host.Outcome State Fault Refusal := branch c d a imm (fun x y => x.ult y) s

/-- BGEU (R219). -/
def execBgeu (c : Fin 192) (d a : Fin 32) (imm : BitVec 16) (s : State) : Host.Outcome State Fault Refusal := branch c d a imm (fun x y => !(x.ult y)) s

/-- JMP: to PC + 4·OFFSET (R219). -/
def execJmp (c : Fin 192) (off : BitVec 26) (s : State) : Host.Outcome State Fault Refusal := jump c false (fun x => pcPlus x.pc off) s

/-- JAL: as JMP, with G31 := PC + 4 (R219). -/
def execJal (c : Fin 192) (off : BitVec 26) (s : State) : Host.Outcome State Fault Refusal := jump c true (fun x => pcPlus x.pc off) s

/-- JR: to G[A] (R219). -/
def execJr (c : Fin 192) (a : Fin 32) (s : State) : Host.Outcome State Fault Refusal := jump c false (fun x => x.gr a) s

/-- JALR: to G[A], with G31 := PC + 4 (R219; the link register is JAL's, log entry 15). -/
def execJalr (c : Fin 192) (a : Fin 32) (s : State) : Host.Outcome State Fault Refusal := jump c true (fun x => x.gr a) s

end Sys2Proof.Machine
end

