-- ==== Sys2Proof/Machine/Operands.lean ====
section
/-!
DEFINITION. Operands.lean: the memory operands of a Dealer core: effective addresses, and where an access goes or why it traps (R213,
R218, R219, R264, R266, R333, R456, R475, R478, R482).
-/
namespace Sys2Proof.Machine

open Sys2Proof

/-- The effective address of an I-format access. -/
def Core.ea (x : Core) (a : Fin 32) (imm : BitVec 16) : Nat := (x.gr a + imm.signExtend 64).toNat

/-! ### Where an access goes -/

/-- What an access of a Dealer core reaches. -/
inductive Reach where
  | mem (k : Store)
  | reg
  | remote (node : Node)
  deriving DecidableEq, Repr

/-- R218, R264, R266, R475: where an aligned access of `n` bytes goes, or the cause for which it traps: alignment, then address, then
permission. A sample buffer takes loads where R456 permits them, and no store. -/
def State.locate (s : State) (store : Bool) (a n : Nat) : Except Nat Reach :=
  if a % n ≠ 0 then .error causeAlign
  else if isRemote a then
    if raOk a then
      match s.translate (raSlot a) with
      | some x => .ok (.remote x)
      | none => .error causeNotRack
    else .error causeAddr
  else if isRegister a then
    if n ≠ 8 then .error causeAlign
    else match s.regFault store a with
      | some x => .error x
      | none => .ok .reg
  else match s.storeOfExtent a n with
    | none => .error causeAddr
    | some (.pip i) => if !(pipWord (a % 0x1000)) then .error causeAddr else if s.attachedExtent a n then .ok (.mem (.pip i)) else .error causePerm
    | some (.sbuf i) => if !store && s.sbufLoad i then .ok (.mem (.sbuf i)) else .error causePerm
    | some k => if s.attachedExtent a n then .ok (.mem k) else .error causePerm

/-- R291, R377, R247, R384, R94: does an access of a core that goes there have to wait now? -/
def State.accessWaits (s : State) (c : Fin 192) (store : Bool) (a n : Nat) : Reach → Bool
  | .mem _ => s.stagedHit a n || s.busyAt (.dealer c.val) a n
  | .reg => store && s.launchHeld a
  | .remote x => s.fabricShut c || (store && !(s.tagRoom x 1))

/-- May an instruction of a core that makes this access be executed now? -/
def State.accessNow (s : State) (c : Fin 192) (store : Bool) (a n : Nat) : Bool :=
  match s.locate store a n with
  | .ok r => !(s.accessWaits c store a n r)
  | .error _ => true

end Sys2Proof.Machine
end

