-- ==== Sys2Proof/Machine/DealerMem.lean ====
section
/-!
DEFINITION. DealerMem.lean: scalar loads and stores of a Dealer core, local, remote and of registers (R213, R218, R219, R264, R266, R267,
R282, R333, R478, R482), and how a core's remote operation is issued.
-/
namespace Sys2Proof.Machine

open Sys2Proof

/-! ### Issuing a remote operation (R266, R267, R275) -/

/-- A core's remote operation is issued: its header, its tag, and the packets sent; the id. -/
def State.issueRemote (c : Fin 192) (kind : OpKind) (code : Nat) (x : Node) (a localAddr len : Nat) (data : List Byte)
    (hd : Hdr → Hdr) (mk : OutOp → OutOp) (s : State) : Nat × State :=
  let slot := raSlot a
  let rank := s.slotRank slot
  let t := if kind.nodeTagged then s.takeTag (keyNode x) else (0, s)
  let s := t.2
  let h := hd { s.hdrTo code slot rank t.1 with len := BitVec.ofNat 16 len, laddr := BitVec.ofNat 44 (raLaddr a) }
  let o := mk (newOp kind (some c) x slot rank a localAddr len { hdr := h, data, dest := .node x })
  let r := s.addOp o
  (r.1, r.2.sendOp o false)

/-- R267, R283: a remote store or RPUT is posted; lines of the cache that it covers are dropped at issue. -/
def State.postWrite (c : Fin 192) (kind : OpKind) (code : Nat) (x : Node) (a : Nat) (bs : List Byte) (s : State) : State :=
  ((s.rrcDrop x (raLaddr a) bs.length).issueRemote c kind code x a 0 bs.length bs id id).2

/-- R282: the bytes of an extent out of lines. -/
def fromLines (ls : List (Nat × List Byte)) (a n : Nat) : List Byte :=
  (upTo n).map (fun i => ((ls.find? (fun l => l.1 = (a + i) / 256)).elim [] (·.2)).getD ((a + i) % 256) 0)

/-- R282: the lines of a read that the cache holds; none with NC 1 or with the cache off. -/
def State.rrcHits (s : State) (x : Node) (a n : Nat) : List (Nat × List Byte) :=
  (rrcLines (raLaddr a) n).filterMap (fun l => (s.rrcGet x l).map (fun d => (l, d)))

/-- R282: is a read served through the cache? -/
def State.rrcUsed (s : State) (a : Nat) : Bool := s.fab.rrcEn && !(raNc a)

/-- A remote read, by a load or an RGET: its bytes where the cache holds every line, or the id of the operation that fetches what is
missing. -/
def State.readRemote (c : Fin 192) (kind : OpKind) (x : Node) (a localAddr n : Nat) (s : State) : Except (List Byte) Nat × State :=
  if s.rrcUsed a then
    let hits := s.rrcHits x a n
    let want := (rrcLines (raLaddr a) n).filter (fun l => !(hits.any (fun h => h.1 = l)))
    let s := (s.pulse .fdie 0x0604 hits.length).pulse .fdie 0x0605 want.length
    if want.isEmpty then (.error (fromLines hits (raLaddr a) n), s)
    else
      let r := s.issueRemote c kind 1 x a localAddr n [] id (fun o => { o with want, got := hits })
      (.ok r.1, r.2)
  else
    let r := s.issueRemote c kind 1 x a localAddr n [] id id
    (.ok r.1, r.2)

/-! ### Scalar accesses -/

/-- A load has its bytes: the register is written. -/
def State.loaded (c : Fin 192) (d : Fin 32) (a size : Nat) (signed toF : Bool) (bs : List Byte) (s : State) : State :=
  (s.onCore c (fun x => x.setLoaded d.val toF (loadValue size signed bs))).retire4 c a

/-- R219, R267: a scalar load of `size` bytes. -/
def State.loadAt (c : Fin 192) (d : Fin 32) (a size : Nat) (signed toF : Bool) (s : State) : State :=
  match s.locate false a size with
  | .error cause => s.trap c cause
  | .ok .reg => s.loaded c d a size signed toF (leBytes 8 (s.dealerRead a))
  | .ok (.mem k) =>
    let s := (s.settle a size).pdcFill k a size
    if s.poisonedIn a size then s.trap c causePoison else s.loaded c d a size signed toF (s.readMem a size)
  | .ok (.remote x) =>
    match s.readRemote c .load x a 0 size with
    | (.error bs, s) => s.loaded c d a size signed toF bs
    | (.ok id, s) => (s.stalled c 4).onCore c (fun y => { y with stall := some (.load id d.val size signed toF) })

/-- R219, R267: a scalar store. -/
def State.storeAt_ (c : Fin 192) (a : Nat) (bs : List Byte) (s : State) : State :=
  match s.locate true a bs.length with
  | .error cause => s.trap c cause
  | .ok .reg => (s.regWrite (.dealer c) a (leNat bs)).retire4 c a
  | .ok (.mem k) => ((s.storeTo k a bs).pdcFill k a bs.length).retire4 c a
  | .ok (.remote x) => (s.postWrite c .store 2 x a bs).retire4 c a

/-- A scalar load instruction. -/
def loadRow (c : Fin 192) (d a : Fin 32) (imm : BitVec 16) (size : Nat) (signed toF : Bool) (s : State) : Host.Outcome State Fault Refusal :=
  onIssue c s (fun s => let ad := (s.core c).ea a imm; onlyIf (s.accessNow c false ad size) (State.loadAt c d ad size signed toF) s)

/-- A scalar store instruction of the low `size` bytes of a value. -/
def storeRow (c : Fin 192) (a : Fin 32) (imm : BitVec 16) (size : Nat) (v : Core → BitVec 64) (s : State) : Host.Outcome State Fault Refusal :=
  onIssue c s (fun s =>
    let x := s.core c
    let ad := x.ea a imm
    onlyIf (s.accessNow c true ad size) (State.storeAt_ c ad (leBytes size (v x).toNat)) s)

/-- LD64 (R219, R267). -/
def execLd64 (c : Fin 192) (d a : Fin 32) (imm : BitVec 16) (s : State) : Host.Outcome State Fault Refusal := loadRow c d a imm 8 false false s

/-- LD32: sign-extended (R219, R267). -/
def execLd32 (c : Fin 192) (d a : Fin 32) (imm : BitVec 16) (s : State) : Host.Outcome State Fault Refusal := loadRow c d a imm 4 true false s

/-- LD16: sign-extended (R219, R267). -/
def execLd16 (c : Fin 192) (d a : Fin 32) (imm : BitVec 16) (s : State) : Host.Outcome State Fault Refusal := loadRow c d a imm 2 true false s

/-- LD8: sign-extended (R219, R267). -/
def execLd8 (c : Fin 192) (d a : Fin 32) (imm : BitVec 16) (s : State) : Host.Outcome State Fault Refusal := loadRow c d a imm 1 true false s

/-- LD32U: zero-extended (R219, R267). -/
def execLd32u (c : Fin 192) (d a : Fin 32) (imm : BitVec 16) (s : State) : Host.Outcome State Fault Refusal := loadRow c d a imm 4 false false s

/-- LD16U: zero-extended (R219, R267). -/
def execLd16u (c : Fin 192) (d a : Fin 32) (imm : BitVec 16) (s : State) : Host.Outcome State Fault Refusal := loadRow c d a imm 2 false false s

/-- LD8U: zero-extended (R219, R267). -/
def execLd8u (c : Fin 192) (d a : Fin 32) (imm : BitVec 16) (s : State) : Host.Outcome State Fault Refusal := loadRow c d a imm 1 false false s

/-- FLD: 64 bits into Fn (R219, R267). -/
def execFld (c : Fin 192) (d a : Fin 32) (imm : BitVec 16) (s : State) : Host.Outcome State Fault Refusal := loadRow c d a imm 8 false true s

/-- FLD32: 32 bits into Fn[31:0], Fn[63:32] zero (R219, R267). -/
def execFld32 (c : Fin 192) (d a : Fin 32) (imm : BitVec 16) (s : State) : Host.Outcome State Fault Refusal := loadRow c d a imm 4 false true s

/-- ST64 (R219, R267). -/
def execSt64 (c : Fin 192) (d a : Fin 32) (imm : BitVec 16) (s : State) : Host.Outcome State Fault Refusal := storeRow c a imm 8 (fun x => x.gr d) s

/-- ST32 (R219, R267). -/
def execSt32 (c : Fin 192) (d a : Fin 32) (imm : BitVec 16) (s : State) : Host.Outcome State Fault Refusal := storeRow c a imm 4 (fun x => x.gr d) s

/-- ST16 (R219, R267). -/
def execSt16 (c : Fin 192) (d a : Fin 32) (imm : BitVec 16) (s : State) : Host.Outcome State Fault Refusal := storeRow c a imm 2 (fun x => x.gr d) s

/-- ST8 (R219, R267). -/
def execSt8 (c : Fin 192) (d a : Fin 32) (imm : BitVec 16) (s : State) : Host.Outcome State Fault Refusal := storeRow c a imm 1 (fun x => x.gr d) s

/-- FST: Fn (R219, R267). -/
def execFst (c : Fin 192) (d a : Fin 32) (imm : BitVec 16) (s : State) : Host.Outcome State Fault Refusal := storeRow c a imm 8 (fun x => x.fr d) s

/-- FST32: Fn[31:0] (R219, R267). -/
def execFst32 (c : Fin 192) (d a : Fin 32) (imm : BitVec 16) (s : State) : Host.Outcome State Fault Refusal := storeRow c a imm 4 (fun x => x.fr d) s

end Sys2Proof.Machine
end

