-- ==== Sys2Proof/Machine/Flags.lean ====
section
/-!
DEFINITION. Flags.lean: the rounding of a Dealer core and the bits of FFLAGS that an operation sets (R56, R63, R85, R216, R217).
-/
namespace Sys2Proof.Machine

open Sys2Proof

/-! ### Rounding and flags (R216, R217) -/

/-- ACR.RM. -/
def Core.rnd (x : Core) : Rnd :=
  match x.acr.toNat % 4 with
  | 0 => .rne
  | 1 => .rtz
  | 2 => .rup
  | _ => .rdn

/-- ACR.FLUSH. -/
def Core.flush (x : Core) : Bool := x.acr.getLsbD 2

/-- Rounding towards minus infinity: the sign of an exact zero sum. -/
def Core.down (x : Core) : Bool := x.acr.toNat % 4 == 3

/-- UNDERFLOW. -/
def ffUnderflow : Nat := 128
/-- DIVZERO. -/
def ffDivZero : Nat := 64
/-- INVALID. -/
def ffInvalid : Nat := 32
/-- FLUSHED. -/
def ffFlushed : Nat := 4
/-- INEXACT. -/
def ffInexact : Nat := 1

/-- R217: is ± (n/d)·2^e, not zero, tiny after rounding to the precision of the format with an unbounded exponent? -/
def FFmt.tinyAfter (f : FFmt) (m : Rnd) (neg : Bool) (n d : Nat) (e : Int) : Bool :=
  let ex := ratLog2 n d + e
  if ex ≥ 1 - f.bias then false
  else if ex < -f.bias then true
  else
    let (q, r, dd) := scaledDiv n d (e - (ex - f.mw))
    decide ((if m.up neg q r dd then q + 1 else q) < 2 ^ (f.mw + 1))

/-- R55, R56, R71, R217: an exact result into a format: its encoding and the bits of FFLAGS that it sets. -/
def FFmt.dealer (f : FFmt) (m : Rnd) (flush : Bool) (v : XVal) : Nat × Nat :=
  match v with
  | .nan invalid => (f.nanBits, if invalid then ffInvalid else 0)
  | .inf neg dz =>
    let r := f.encode m flush (.inf neg)
    (r.1, r.2.bits + (if dz then ffDivZero else 0))
  | .rat neg n d e =>
    let r := f.roundRat m flush neg n d e
    (r.bits, ({ inexact := r.inexact, resultOvf := r.overflow, flushed := r.flushed : AFlags }).bits +
      (if n ≠ 0 ∧ r.inexact ∧ f.tinyAfter m neg n d e then ffUnderflow else 0))

/-- R217: a value into an integer of `w` bits: rounded, saturated; a NaN is 0. Saturation and a NaN set INVALID, and then not INEXACT, as
IEEE 754-2019 has it. -/
def dealerInt (signed : Bool) (w : Nat) (m : Rnd) (v : FVal) : Nat × Nat :=
  let lo : Int := if signed then -(2 ^ (w - 1) : Int) else 0
  let hi : Int := if signed then 2 ^ (w - 1) - 1 else 2 ^ w - 1
  match v with
  | .nan => (0, ffInvalid)
  | .inf neg => (ofSigned w (if neg then lo else hi), ffInvalid)
  | .fin neg mag e =>
    let r := roundInt m neg mag e
    if r.1 < lo then (ofSigned w lo, ffInvalid)
    else if hi < r.1 then (ofSigned w hi, ffInvalid)
    else (ofSigned w r.1, if r.2 then ffInexact else 0)

/-- OR bits into FFLAGS. -/
def Core.orFlags (bits : Nat) (x : Core) : Core := { x with fflags := x.fflags ||| BitVec.ofNat 64 bits }

/-- R56: an operand in a format, and FLUSHED where it was flushed. -/
def FFmt.operand (f : FFmt) (flush : Bool) (bits : Nat) : FVal × Nat :=
  let r := f.decodeFlush flush (bits % 2 ^ f.width)
  (r.1, if r.2 then ffFlushed else 0)

end Sys2Proof.Machine
end

