-- ==== Sys2Proof/Machine/DealerFp.lean ====
section
/-!
DEFINITION. DealerFp.lean: the scalar floating-point and system instructions of a Dealer core (R66, R85, R215-R219, R280): one IEEE
754-2019 operation each, rounded by ACR.RM under ACR.FLUSH, with its bits of FFLAGS.
-/
namespace Sys2Proof.Machine

open Sys2Proof

/-! ### Scalar forms (R215, R217) -/

/-- FUNCT[7]: 0 binary64, 1 binary32. -/
def fpFmt (single : Bool) : FFmt := if single then fp32 else fp64

/-- A scalar operation from F registers to F[D]. -/
def fpOp (c : Fin 192) (d : Fin 32) (srcs : List (Fin 32)) (single : Bool) (op : Bool → List FVal → XVal) (s : State) :
    Host.Outcome State Fault Refusal :=
  onIssue c s (fun s =>
    let x := s.core c
    let f := fpFmt single
    let vs := srcs.map (fun n => f.operand x.flush (x.fr n).toNat)
    let r := f.dealer x.rnd x.flush (op x.down (vs.map Prod.fst))
    let fl := vs.foldl (fun b v => b ||| v.2) r.2
    (s.onCore c (fun x => (x.setF d (BitVec.ofNat 64 r.1)).orFlags fl)).retire4 c)

/-- Operand `i` of an operation. -/
def opnd (vs : List FVal) (i : Nat) : FVal := vs.getD i .nan

/-- A comparison of F[A] and F[B], to G[D]; NaN gives 0. -/
def fpCmp (c : Fin 192) (d a b : Fin 32) (single : Bool) (p : FVal → FVal → Bool) (s : State) : Host.Outcome State Fault Refusal :=
  onIssue c s (fun s =>
    let x := s.core c
    let f := fpFmt single
    let u := f.operand x.flush (x.fr a).toNat
    let v := f.operand x.flush (x.fr b).toNat
    (s.onCore c (fun x => (x.setG d (flag64 (p u.1 v.1))).orFlags (u.2 ||| v.2))).retire4 c)

/-! ### The floating-point instructions -/

/-- FADD (R217). -/
def execFadd (c : Fin 192) (d a b : Fin 32) (single : Bool) (s : State) : Host.Outcome State Fault Refusal :=
  fpOp c d [a, b] single (fun down vs => xAdd down (opnd vs 0) (opnd vs 1)) s

/-- FSUB (R217). -/
def execFsub (c : Fin 192) (d a b : Fin 32) (single : Bool) (s : State) : Host.Outcome State Fault Refusal :=
  fpOp c d [a, b] single (fun down vs => xAdd down (opnd vs 0) (opnd vs 1).negate) s

/-- FMUL (R217). -/
def execFmul (c : Fin 192) (d a b : Fin 32) (single : Bool) (s : State) : Host.Outcome State Fault Refusal :=
  fpOp c d [a, b] single (fun _ vs => xMul (opnd vs 0) (opnd vs 1)) s

/-- FFMA: D := A·B + D, rounded once (R217, R219). -/
def execFfma (c : Fin 192) (d a b : Fin 32) (single : Bool) (s : State) : Host.Outcome State Fault Refusal :=
  fpOp c d [a, b, d] single (fun down vs => xFma down (opnd vs 0) (opnd vs 1) (opnd vs 2)) s

/-- FDIV (R217). -/
def execFdiv (c : Fin 192) (d a b : Fin 32) (single : Bool) (s : State) : Host.Outcome State Fault Refusal :=
  fpOp c d [a, b] single (fun _ vs => xDiv (opnd vs 0) (opnd vs 1)) s

/-- FSQRT of F[A] (R217). -/
def execFsqrt (c : Fin 192) (d a : Fin 32) (single : Bool) (s : State) : Host.Outcome State Fault Refusal :=
  fpOp c d [a] single (fun _ vs => xSqrt (opnd vs 0)) s

/-- FMIN (R217; NaN and zeros as R144 has them, log entry 15). -/
def execFmin (c : Fin 192) (d a b : Fin 32) (single : Bool) (s : State) : Host.Outcome State Fault Refusal :=
  fpOp c d [a, b] single (fun _ vs => .of (fMin (opnd vs 0) (opnd vs 1))) s

/-- FMAX (R217; NaN and zeros as R144 has them, log entry 15). -/
def execFmax (c : Fin 192) (d a b : Fin 32) (single : Bool) (s : State) : Host.Outcome State Fault Refusal :=
  fpOp c d [a, b] single (fun _ vs => .of (fMax (opnd vs 0) (opnd vs 1))) s

/-- FEQ (R217, R219). -/
def execFeq (c : Fin 192) (d a b : Fin 32) (single : Bool) (s : State) : Host.Outcome State Fault Refusal := fpCmp c d a b single FVal.eqv s

/-- FLT (R217, R219). -/
def execFlt (c : Fin 192) (d a b : Fin 32) (single : Bool) (s : State) : Host.Outcome State Fault Refusal := fpCmp c d a b single FVal.lt s

/-- FLE (R217, R219). -/
def execFle (c : Fin 192) (d a b : Fin 32) (single : Bool) (s : State) : Host.Outcome State Fault Refusal := fpCmp c d a b single FVal.le s

/-- R79, R85: a format that Dealer conversions take as a source: no MX, E8M0, INT64 or FIX36. -/
def fcvtSource (code : Nat) : Option Fmt :=
  (fmtOfCode code).filter (fun f => match f with
    | .fix36 | .e8m0 | .int64 => false
    | f => !f.isMx)

/-- FCVT: the low bits of F[A] in the format with code B, converted to binary64 or binary32 (R85, R217, R219). -/
def execFcvt (c : Fin 192) (d a : Fin 32) (code : Fin 32) (single : Bool) (s : State) : Host.Outcome State Fault Refusal :=
  onIssue c s (fun s =>
    match fcvtSource code.val with
    | none => s.trap c causeIllegal
    | some f =>
      let x := s.core c
      let v := f.decode x.flush ((x.fr a).toNat % 2 ^ f.bits)
      let r := (fpFmt single).dealer x.rnd x.flush (.of v.1)
      (s.onCore c (fun x => (x.setF d (BitVec.ofNat 64 r.1)).orFlags (r.2 ||| (if v.2 then ffFlushed else 0)))).retire4 c)

/-- FTOI: F[A] as a signed 64-bit integer in G[D] (R217; the width is the register's, log entry 15). -/
def execFtoi (c : Fin 192) (d a : Fin 32) (single : Bool) (s : State) : Host.Outcome State Fault Refusal :=
  onIssue c s (fun s =>
    let x := s.core c
    let v := (fpFmt single).operand x.flush (x.fr a).toNat
    let r := dealerInt true 64 x.rnd v.1
    (s.onCore c (fun x => (x.setG d (BitVec.ofNat 64 r.1)).orFlags (r.2 ||| v.2))).retire4 c)

/-- ITOF: G[A] as a signed 64-bit integer, converted to F[D] (R217; log entry 15). -/
def execItof (c : Fin 192) (d a : Fin 32) (single : Bool) (s : State) : Host.Outcome State Fault Refusal :=
  onIssue c s (fun s =>
    let x := s.core c
    let r := (fpFmt single).dealer x.rnd x.flush (.of (decodeInt 64 (x.gr a).toNat))
    (s.onCore c (fun x => (x.setF d (BitVec.ofNat 64 r.1)).orFlags r.2)).retire4 c)

/-- FMVG: G[D] := F[A], all 64 bits with either FUNCT[7] (R219; log entry 15). -/
def execFmvg (c : Fin 192) (d a : Fin 32) (_single : Bool) (s : State) : Host.Outcome State Fault Refusal :=
  onIssue c s (fun s => s.putG c d ((s.core c).fr a))

/-- FMVF: F[D] := G[A]; as a binary32 result its low 32 bits (R215, R219; log entry 15). -/
def execFmvf (c : Fin 192) (d a : Fin 32) (single : Bool) (s : State) : Host.Outcome State Fault Refusal :=
  onIssue c s (fun s =>
    let v := (s.core c).gr a
    (s.onCore c (Core.setF d (if single then (v.setWidth 32).setWidth 64 else v))).retire4 c)

/-! ### The system instructions (R216, R218, R219, R280) -/

/-- FENCE: issued; it waits for FENCE_COMPLETE (R280). -/
def execFence (c : Fin 192) (d a : Fin 32) (s : State) : Host.Outcome State Fault Refusal :=
  onIssue c s (fun s => (s.stalled c 6).onCore c (fun x => { x with stall := some (.fence d.val (if a = 0 then none else some (x.gr a).toNat)) }))

/-- FENCE_COMPLETE: when no operation that it covers is outstanding (R280). Local stores are visible at once (R213). -/
def execFenceComplete (c : Fin 192) (s : State) : Host.Outcome State Fault Refusal :=
  inService s (fun s =>
    match (s.core c).stall with
    | some (.fence d list) =>
      if (s.fenceOps c).any (fun o => o.st == .outstanding) ∨ s.coreInReset c ∨ s.fenceShut c list then s else s.fenceDone c d list
    | _ => s)

/-- RDCYC: G[D] := DLR_CYCLE (R219). -/
def execRdcyc (c : Fin 192) (d : Fin 32) (s : State) : Host.Outcome State Fault Refusal :=
  onIssue c s (fun s => s.putG c d (s.core c).cycle)

/-- RDCAD: G[D] := CAD_NOW (R219). -/
def execRdcad (c : Fin 192) (d : Fin 32) (s : State) : Host.Outcome State Fault Refusal := onIssue c s (fun s => s.putG c d s.stamp)

/-- RDACR (R216). -/
def execRdacr (c : Fin 192) (d : Fin 32) (s : State) : Host.Outcome State Fault Refusal :=
  onIssue c s (fun s => s.putG c d (s.core c).acr)

/-- WRACR: the reserved bits read 0 (R6, R216). -/
def execWracr (c : Fin 192) (a : Fin 32) (s : State) : Host.Outcome State Fault Refusal :=
  onIssue c s (fun s => (s.onCore c (fun x => { x with acr := x.gr a &&& 7 })).retire4 c)

/-- RDFLAGS (R216). -/
def execRdflags (c : Fin 192) (d : Fin 32) (s : State) : Host.Outcome State Fault Refusal :=
  onIssue c s (fun s => s.putG c d (s.core c).fflags)

/-- WRFLAGS: the reserved bits read 0 (R6, R216). -/
def execWrflags (c : Fin 192) (a : Fin 32) (s : State) : Host.Outcome State Fault Refusal :=
  onIssue c s (fun s => (s.onCore c (fun x => { x with fflags := x.gr a &&& 0xFF })).retire4 c)

/-- TRAPRET: resumes at EPC (R218). -/
def execTrapret (c : Fin 192) (s : State) : Host.Outcome State Fault Refusal := onIssue c s (fun s => s.retire c (s.core c).epc)

/-- BRK: traps BREAK (R218). -/
def execBrk (c : Fin 192) (s : State) : Host.Outcome State Fault Refusal := onIssue c s (fun s => s.trap c causeBreak)

/-- WRTVEC: TVEC := G[A] (R218, R219). -/
def execWrtvec (c : Fin 192) (a : Fin 32) (s : State) : Host.Outcome State Fault Refusal :=
  onIssue c s (fun s => (s.onCore c (fun x => { x with tvec := x.gr a })).retire4 c)

end Sys2Proof.Machine
end

