-- ==== Sys2Proof/Machine/DealerV.lean ====
section
/-!
DEFINITION. DealerV.lean: SETVL and Dealer-V arithmetic (R217, R219-R224): element by element, each floating-point element one operation
rounded by ACR.RM. The elements written are those below VL whose mask bit is 1.
-/
namespace Sys2Proof.Machine

open Sys2Proof

/-! ### VTYPE and elements (R220, R221) -/

/-- SEW in bits. -/
def Core.sew (x : Core) : Nat := 8 * 2 ^ (x.vtype.toNat % 4)

/-- KIND. -/
def vtKind (vt : Nat) : Nat := vt / 4 % 8

/-- VLMAX = 128 / SEW. -/
def Core.vlmax (x : Core) : Nat := 128 / x.sew

/-- R221: the combinations of KIND and SEW that do not trap. -/
def vtOk (vt : Nat) : Bool :=
  match vtKind vt with
  | 0 | 1 => true
  | 2 => vt % 4 != 0
  | 3 => vt % 4 == 1
  | 4 | 5 => vt % 4 == 0
  | _ => false

/-- The kind of elements that a VTYPE names. -/
inductive VEl where
  | int (signed : Bool)
  | flt (f : FFmt)
  deriving DecidableEq, Repr

/-- The elements of VTYPE. -/
def Core.el (x : Core) : VEl :=
  match vtKind x.vtype.toNat with
  | 0 => .int false
  | 1 => .int true
  | 2 => .flt (match x.vtype.toNat % 4 with
    | 1 => fp16
    | 2 => fp32
    | _ => fp64)
  | 3 => .flt bf16
  | 4 => .flt e4m3
  | _ => .flt e5m2

/-- KIND 0 or 1. -/
def Core.kindInt (x : Core) : Bool := decide (vtKind x.vtype.toNat ≤ 1)
/-- KIND 2 or 3. -/
def Core.kindFlt (x : Core) : Bool := vtKind x.vtype.toNat == 2 || vtKind x.vtype.toNat == 3
/-- R221: arithmetic, comparisons and reductions do not take KIND 4 or 5. -/
def Core.kindArith (x : Core) : Bool := decide (vtKind x.vtype.toNat ≤ 3)

/-- Element `i` of `w` bits of a vector register. -/
def vElem (v : BitVec 128) (w i : Nat) : Nat := v.toNat / 2 ^ (w * i) % 2 ^ w

/-- Set element `i` of `w` bits. -/
def vSet (v : BitVec 128) (w i y : Nat) : BitVec 128 := BitVec.ofNat 128 (setField v.toNat (w * i + w - 1) (w * i) y)

/-- The elements below VL (never past VLMAX). -/
def Core.below (x : Core) : List Nat := upTo (min x.vl.toNat x.vlmax)

/-- R219: the elements below VL whose mask bit is 1. -/
def Core.active (x : Core) (m : Fin 8) : List Nat := x.below.filter (fun i => (x.kr m).getLsbD i)

/-- A vector register. -/
def Core.vr (x : Core) (n : Fin 32) : BitVec 128 := x.v[n]

/-- Write a vector register. -/
def Core.setV (n : Fin 32) (v : BitVec 128) (x : Core) : Core := { x with v := vput x.v n v }

/-- An instruction of Dealer-V arithmetic: ILLEGAL under a VTYPE that it does not take, else its effect on the core. -/
def vecRow (c : Fin 192) (takes : Core → Bool) (f : Core → Core) (s : State) : Host.Outcome State Fault Refusal :=
  onIssue c s (fun s =>
    let x := s.core c
    if vtOk x.vtype.toNat && takes x then (s.onCore c f).retire4 c else s.trap c causeIllegal)

/-- Elements written into V[D], with their flags. -/
def Core.putElems (d : Fin 32) (is : List Nat) (f : Nat → Nat × Nat) (x : Core) : Core :=
  let w := x.sew
  let r := is.foldl (fun (acc : BitVec 128 × Nat) i => let y := f i; (vSet acc.1 w i y.1, acc.2 ||| y.2)) (x.vr d, 0)
  (x.setV d r.1).orFlags r.2

/-- An element-wise instruction: `f` takes the core and the elements a, b and d. -/
def vecElem (c : Fin 192) (d a b : Fin 32) (m : Fin 8) (takes : Core → Bool) (f : Core → Nat → Nat → Nat → Nat × Nat) (s : State) :
    Host.Outcome State Fault Refusal :=
  vecRow c takes (fun x =>
    let w := x.sew
    x.putElems d (x.active m) (fun i => f x (vElem (x.vr a) w i) (vElem (x.vr b) w i) (vElem (x.vr d) w i))) s

/-! ### Element operations (R217, R222) -/

/-- A floating-point element operation. -/
def Core.fltOp (x : Core) (f : FFmt) (op : List FVal → XVal) (bs : List Nat) : Nat × Nat :=
  let vs := bs.map (f.operand x.flush)
  let r := f.dealer x.rnd x.flush (op (vs.map Prod.fst))
  (r.1, vs.foldl (fun b v => b ||| v.2) r.2)

/-- An element operation that has an integer and a floating-point form; integers wrap modulo 2^SEW. -/
def Core.elOp (x : Core) (int : Int → Int → Int → Int) (flt : List FVal → XVal) (bs : List Nat) : Nat × Nat :=
  match x.el with
  | .int sg =>
    let rd (i : Nat) : Int := let y := bs.getD i 0; if sg then toSigned x.sew y else y
    (ofSigned x.sew (int (rd 0) (rd 1) (rd 2)), 0)
  | .flt f => x.fltOp f flt bs

/-- a + b. -/
def Core.elAdd (x : Core) (a b : Nat) : Nat × Nat := x.elOp (fun p q _ => p + q) (fun v => xAdd x.down (opnd v 0) (opnd v 1)) [a, b]

/-- The larger of a and b, as R144 for floating kinds. -/
def Core.elMax (x : Core) (a b : Nat) : Nat × Nat := x.elOp (fun p q _ => max p q) (fun v => .of (fMax (opnd v 0) (opnd v 1))) [a, b]

/-- A comparison of elements: an integer order or a floating-point one; NaN gives 0. -/
def Core.elCmp (x : Core) (int : Int → Int → Bool) (flt : FVal → FVal → Bool) (a b : Nat) : Bool × Nat :=
  match x.el with
  | .int sg =>
    let rd (y : Nat) : Int := if sg then toSigned x.sew y else y
    (int (rd a) (rd b), 0)
  | .flt f =>
    let u := f.operand x.flush a
    let v := f.operand x.flush b
    (flt u.1 v.1, u.2 ||| v.2)

/-- A comparison to K[D[2:0]]: the bits of the elements below VL that are not masked (R222). -/
def vecCmp (c : Fin 192) (d a b : Fin 32) (m : Fin 8) (int : Int → Int → Bool) (flt : FVal → FVal → Bool) (s : State) :
    Host.Outcome State Fault Refusal :=
  vecRow c Core.kindArith (fun x =>
    let w := x.sew
    let k : Fin 8 := Fin.ofNat 8 d.val
    let r := (x.active m).foldl (fun (acc : Nat × Nat) i =>
      let y := x.elCmp int flt (vElem (x.vr a) w i) (vElem (x.vr b) w i)
      (setField acc.1 i i (bit01 y.1), acc.2 ||| y.2)) ((x.kr k).toNat, 0)
    (x.setK k (BitVec.ofNat 16 r.1)).orFlags r.2) s

/-! ### SETVL (R221) -/

/-- SETVL: VTYPE and VL, and VL in G[D]. A core that halts under HALT_AT_SAFE halts before one with SAFE 1 (R231). -/
def execSetvl (c : Fin 192) (d a : Fin 32) (safe : Bool) (vt : BitVec 8) (s : State) : Host.Outcome State Fault Refusal :=
  onIssue c s (fun s =>
    if safe && (s.core c).haltingSince.isSome then s
    else if !(vtOk vt.toNat) then s.trap c causeIllegal
    else
      let n := min ((s.core c).gr a).toNat (128 / (8 * 2 ^ (vt.toNat % 4)))
      (s.onCore c (fun x => ({ x with vtype := vt &&& 0x1F, vl := BitVec.ofNat 5 n }).setG d (BitVec.ofNat 64 n))).retire4 c)

/-! ### Arithmetic (R222) -/

/-- VADD. -/
def execVadd (c : Fin 192) (d a b : Fin 32) (m : Fin 8) (s : State) : Host.Outcome State Fault Refusal :=
  vecElem c d a b m Core.kindArith (fun x p q _ => x.elAdd p q) s

/-- VSUB. -/
def execVsub (c : Fin 192) (d a b : Fin 32) (m : Fin 8) (s : State) : Host.Outcome State Fault Refusal :=
  vecElem c d a b m Core.kindArith
    (fun x p q _ => x.elOp (fun u v _ => u - v) (fun v => xAdd x.down (opnd v 0) (opnd v 1).negate) [p, q]) s

/-- VMUL. -/
def execVmul (c : Fin 192) (d a b : Fin 32) (m : Fin 8) (s : State) : Host.Outcome State Fault Refusal :=
  vecElem c d a b m Core.kindArith (fun x p q _ => x.elOp (fun u v _ => u * v) (fun v => xMul (opnd v 0) (opnd v 1)) [p, q]) s

/-- VFMA: a·b + d, rounded once. -/
def execVfma (c : Fin 192) (d a b : Fin 32) (m : Fin 8) (s : State) : Host.Outcome State Fault Refusal :=
  vecElem c d a b m Core.kindArith
    (fun x p q r => x.elOp (fun u v t => u * v + t) (fun v => xFma x.down (opnd v 0) (opnd v 1) (opnd v 2)) [p, q, r]) s

/-- VDIV: IEEE and BF16 kinds only. -/
def execVdiv (c : Fin 192) (d a b : Fin 32) (m : Fin 8) (s : State) : Host.Outcome State Fault Refusal :=
  vecElem c d a b m Core.kindFlt (fun x p q _ => x.elOp (fun u _ _ => u) (fun v => xDiv (opnd v 0) (opnd v 1)) [p, q]) s

/-- VSQRT of a: IEEE and BF16 kinds only. -/
def execVsqrt (c : Fin 192) (d a : Fin 32) (m : Fin 8) (s : State) : Host.Outcome State Fault Refusal :=
  vecElem c d a a m Core.kindFlt (fun x p _ _ => x.elOp (fun u _ _ => u) (fun v => xSqrt (opnd v 0)) [p]) s

/-- VMIN. -/
def execVmin (c : Fin 192) (d a b : Fin 32) (m : Fin 8) (s : State) : Host.Outcome State Fault Refusal :=
  vecElem c d a b m Core.kindArith
    (fun x p q _ => x.elOp (fun u v _ => min u v) (fun v => .of (fMin (opnd v 0) (opnd v 1))) [p, q]) s

/-- VMAX. -/
def execVmax (c : Fin 192) (d a b : Fin 32) (m : Fin 8) (s : State) : Host.Outcome State Fault Refusal :=
  vecElem c d a b m Core.kindArith (fun x p q _ => x.elMax p q) s

/-- VAND: integer kinds. -/
def execVand (c : Fin 192) (d a b : Fin 32) (m : Fin 8) (s : State) : Host.Outcome State Fault Refusal :=
  vecElem c d a b m Core.kindInt (fun _ p q _ => (p &&& q, 0)) s

/-- VOR: integer kinds. -/
def execVor (c : Fin 192) (d a b : Fin 32) (m : Fin 8) (s : State) : Host.Outcome State Fault Refusal :=
  vecElem c d a b m Core.kindInt (fun _ p q _ => (p ||| q, 0)) s

/-- VXOR: integer kinds. -/
def execVxor (c : Fin 192) (d a b : Fin 32) (m : Fin 8) (s : State) : Host.Outcome State Fault Refusal :=
  vecElem c d a b m Core.kindInt (fun _ p q _ => (p ^^^ q, 0)) s

/-- VSLL: shift by b mod SEW; integer kinds. -/
def execVsll (c : Fin 192) (d a b : Fin 32) (m : Fin 8) (s : State) : Host.Outcome State Fault Refusal :=
  vecElem c d a b m Core.kindInt (fun x p q _ => ((p <<< (q % x.sew)) % 2 ^ x.sew, 0)) s

/-- VSRL: shift by b mod SEW; integer kinds. -/
def execVsrl (c : Fin 192) (d a b : Fin 32) (m : Fin 8) (s : State) : Host.Outcome State Fault Refusal :=
  vecElem c d a b m Core.kindInt (fun x p q _ => (p >>> (q % x.sew), 0)) s

/-- VSRA: arithmetic shift by b mod SEW; integer kinds. -/
def execVsra (c : Fin 192) (d a b : Fin 32) (m : Fin 8) (s : State) : Host.Outcome State Fault Refusal :=
  vecElem c d a b m Core.kindInt (fun x p q _ => (ofSigned x.sew (toSigned x.sew p >>> (q % x.sew)), 0)) s

/-- VCMPEQ. -/
def execVcmpeq (c : Fin 192) (d a b : Fin 32) (m : Fin 8) (s : State) : Host.Outcome State Fault Refusal :=
  vecCmp c d a b m (fun p q => p == q) FVal.eqv s

/-- VCMPLT. -/
def execVcmplt (c : Fin 192) (d a b : Fin 32) (m : Fin 8) (s : State) : Host.Outcome State Fault Refusal :=
  vecCmp c d a b m (fun p q => decide (p < q)) FVal.lt s

/-- VCMPLE. -/
def execVcmple (c : Fin 192) (d a b : Fin 32) (m : Fin 8) (s : State) : Host.Outcome State Fault Refusal :=
  vecCmp c d a b m (fun p q => decide (p ≤ q)) FVal.le s

/-- VSEL: every element below VL: a where its bit of K[M] is 1, else b. -/
def execVsel (c : Fin 192) (d a b : Fin 32) (m : Fin 8) (s : State) : Host.Outcome State Fault Refusal :=
  vecRow c (fun _ => true) (fun x =>
    x.putElems d x.below (fun i => (vElem (if (x.kr m).getLsbD i then x.vr a else x.vr b) x.sew i, 0))) s

/-- VSPLAT: the low SEW bits of G[A] for integer kinds, of F[A] otherwise. -/
def execVsplat (c : Fin 192) (d a : Fin 32) (m : Fin 8) (s : State) : Host.Outcome State Fault Refusal :=
  vecRow c (fun _ => true) (fun x =>
    let y := (if x.kindInt then x.gr a else x.fr a).toNat % 2 ^ x.sew
    x.putElems d (x.active m) (fun _ => (y, 0))) s

/-- VMV. -/
def execVmv (c : Fin 192) (d a : Fin 32) (m : Fin 8) (s : State) : Host.Outcome State Fault Refusal :=
  vecElem c d a a m (fun _ => true) (fun _ p _ _ => (p, 0)) s

/-! ### Conversion (R217, R222) -/

/-- The codes that VCVT takes. -/
def vcvtSource (code : Nat) : Option Fmt := if code ≤ 5 ∨ code = 0x10 ∨ code = 0x11 then fmtOfCode code else none

/-- Consecutive vector registers as one number, the first lowest. -/
def Core.wide (x : Core) (a : Fin 32) (n : Nat) : Nat :=
  (upTo n).foldl (fun y i => y + (x.vr (Fin.ofNat 32 (a.val + i))).toNat * 2 ^ (128 * i)) 0

/-- R222, R225: registers of a source of VLMAX elements of `w` bits. -/
def Core.wideRegs (x : Core) (w : Nat) : Nat := ceilDiv (x.vlmax * w) 128

/-- VCVT: from the format whose code is in B, out of as many registers as it takes, to VTYPE. -/
def execVcvt (c : Fin 192) (d a : Fin 32) (code : Fin 32) (m : Fin 8) (s : State) : Host.Outcome State Fault Refusal :=
  match vcvtSource code.val with
  | none => onIssue c s (State.trap c causeIllegal)
  | some f =>
    vecRow c
      (fun x =>
        let n := x.wideRegs f.bits
        decide (a.val + n ≤ 32) && !(decide (a.val < d.val) && decide (d.val < a.val + n)))
      (fun x =>
        let src := x.wide a (x.wideRegs f.bits)
        x.putElems d (x.active m) (fun i =>
          let v := f.decode x.flush (src / 2 ^ (f.bits * i) % 2 ^ f.bits)
          let r := match x.el with
            | .int sg => dealerInt sg x.sew x.rnd v.1
            | .flt g => g.dealer x.rnd x.flush (.of v.1)
          (r.1, r.2 ||| (if v.2 then ffFlushed else 0)))) s

/-! ### Sums of absolute differences and reductions (R223, R224) -/

/-- VSAD and VSADA take KIND 0 with SEW 8 or 16. -/
def Core.sadOk (x : Core) : Bool := vtKind x.vtype.toNat == 0 && decide (x.sew ≤ 16)

/-- R223: the sum of a lane over its elements that are below VL and unmasked. -/
def Core.sadLane (x : Core) (a b : Fin 32) (m : Fin 8) (lane : Nat) : Nat :=
  let w := x.sew
  ((x.active m).filter (fun i => w * i / 64 = lane)).foldl (fun n i =>
    let p := vElem (x.vr a) w i
    let q := vElem (x.vr b) w i
    n + (p - q) + (q - p)) 0

/-- R223: the lanes that hold an element below VL are written. -/
def Core.sad (d a b : Fin 32) (m : Fin 8) (accumulate : Bool) (x : Core) : Core :=
  x.setV d ((upTo 2).foldl (fun v l =>
    if x.below.any (fun i => x.sew * i / 64 = l) then
      vSet v 64 l ((if accumulate then vElem (x.vr d) 64 l else 0) + x.sadLane a b m l)
    else v) (x.vr d))

/-- VSAD (R223). -/
def execVsad (c : Fin 192) (d a b : Fin 32) (m : Fin 8) (s : State) : Host.Outcome State Fault Refusal :=
  vecRow c Core.sadOk (Core.sad d a b m false) s

/-- VSADA (R223). -/
def execVsada (c : Fin 192) (d a b : Fin 32) (m : Fin 8) (s : State) : Host.Outcome State Fault Refusal :=
  vecRow c Core.sadOk (Core.sad d a b m true) s

/-- R224: element 0 of V[D] := b₀ joined with the unmasked elements of a below VL, in increasing index. -/
def vecRed (c : Fin 192) (d a b : Fin 32) (m : Fin 8) (join : Core → Nat → Nat → Nat × Nat) (s : State) : Host.Outcome State Fault Refusal :=
  vecRow c Core.kindArith (fun x =>
    let w := x.sew
    let r := (x.active m).foldl (fun (acc : Nat × Nat) i => let y := join x acc.1 (vElem (x.vr a) w i); (y.1, acc.2 ||| y.2))
      (vElem (x.vr b) w 0, 0)
    (x.setV d (vSet (x.vr d) w 0 r.1)).orFlags r.2) s

/-- VREDSUM (R224). -/
def execVredsum (c : Fin 192) (d a b : Fin 32) (m : Fin 8) (s : State) : Host.Outcome State Fault Refusal := vecRed c d a b m Core.elAdd s

/-- VREDMAX (R224). -/
def execVredmax (c : Fin 192) (d a b : Fin 32) (m : Fin 8) (s : State) : Host.Outcome State Fault Refusal := vecRed c d a b m Core.elMax s

end Sys2Proof.Machine
end

