-- ==== Sys2Proof/Machine/DealerVMem.lean ====
section
/-!
DEFINITION. DealerVMem.lean: Dealer-V memory instructions (R225-R227, R267) and SUBMIT (R93, R94, R228). Elements are taken in increasing
index; a fault or a remote load stops there.
-/
namespace Sys2Proof.Machine

open Sys2Proof

/-! ### Elements and accesses (R225, R226) -/

/-- Operations of FUNCT[3:0] that store. -/
def VecMem.stores (i : VecMem) : Bool := i.op == 1 || i.op == 3 || i.op == 6

/-- Operations that take indices. -/
def VecMem.indexed (i : VecMem) : Bool := decide (4 ≤ i.op)

/-- IW in bits. -/
def VecMem.iwBits (i : VecMem) : Nat := 8 * 2 ^ i.iw.toNat

/-- R225: the address of element `e`. -/
def Core.elemAddr (x : Core) (i : VecMem) (e : Nat) : Nat :=
  let base := (x.gr i.a).toNat
  (if i.indexed then
      let w := i.iwBits
      base + x.wide i.b (x.wideRegs w) / 2 ^ (w * e) % 2 ^ w * 2 ^ i.sh.toNat
    else if i.op ≤ 1 then base + e * (x.sew / 8)
    else base + e * (x.gr i.b).toNat) % 2 ^ 64

/-- R225: the index registers run past V31, or V[D] lies among them. -/
def Core.vecIllegal (x : Core) (i : VecMem) : Bool :=
  !(vtOk x.vtype.toNat) || (i.indexed &&
    (let n := x.wideRegs i.iwBits; decide (i.b.val + n > 32) || (decide (i.b.val ≤ i.d.val) && decide (i.d.val < i.b.val + n))))

/-- One access: the elements `e` to `e + n − 1`, from `addr` on. -/
structure VUnit where
  e : Nat
  n : Nat
  addr : Nat
  deriving DecidableEq, Repr

/-- R267: does the next element join the access of the ones before it: a remote beat of consecutive elements at one node? -/
def State.joinsBeat (s : State) (i : VecMem) (x : Core) (u : VUnit) (e : Nat) : Bool :=
  let z := x.sew / 8
  let a := x.elemAddr i e
  decide (i.op ≤ 1) && u.e + u.n == e && u.e * x.sew / 64 == e * x.sew / 64 && u.addr + u.n * z == a &&
    (match s.locate i.stores u.addr z, s.locate i.stores a z with
      | .ok (.remote p), .ok (.remote q) => decide (p = q)
      | _, _ => false)

/-- R226, R267: the accesses of an instruction: an element each, but remote unit-stride elements of a beat together. -/
def State.vecUnits (s : State) (i : VecMem) (x : Core) : List VUnit :=
  ((x.active i.m).foldl (fun (acc : List VUnit) e =>
    match acc with
    | u :: r => if s.joinsBeat i x u e then { u with n := u.n + 1 } :: r else ⟨e, 1, x.elemAddr i e⟩ :: acc
    | [] => [⟨e, 1, x.elemAddr i e⟩]) []).reverse

/-- Where an access goes. -/
def State.unitReach (s : State) (i : VecMem) (x : Core) (u : VUnit) : Except Nat Reach := s.locate i.stores u.addr (x.sew / 8)

/-- May the accesses of core `c` before the first fault be made now? Staged bytes, a Deck in reset, a retrain and tags that are not free hold
the instruction. -/
def State.vecNow (s : State) (c : Fin 192) (i : VecMem) (x : Core) (us : List VUnit) : Bool :=
  let ok := us.takeWhile (fun u => match s.unitReach i x u with
    | .ok _ => true
    | .error _ => false)
  ok.all (fun u => match s.unitReach i x u with
    | .ok (.remote p) =>
      !s.fabricShut c && (!i.stores || s.tagRoom p (ok.filter (fun v => match s.unitReach i x v with
        | .ok (.remote q) => decide (p = q)
        | _ => false)).length)
    | .ok r => !(s.accessWaits c i.stores u.addr (x.sew / 8) r)
    | .error _ => true)

/-! ### Execution (R226, R227) -/

/-- Bytes into elements `e` on of V[D]. -/
def Core.putBytes (d : Fin 32) (e : Nat) (bs : List Byte) (x : Core) : Core :=
  let z := x.sew / 8
  x.setV d ((upTo (bs.length / z)).foldl (fun v k => vSet v x.sew (e + k) (leNat ((bs.drop (k * z)).take z))) (x.vr d))

/-- The bytes of elements `e` to `e + n − 1` of V[D]. -/
def Core.getBytes (x : Core) (d : Fin 32) (e n : Nat) : List Byte :=
  joinBytes ((upTo n).map (fun k => leBytes (x.sew / 8) (vElem (x.vr d) x.sew (e + k))))

/-- The instruction retires; its first element's address goes to the Scorecard. -/
def State.vecDone (c : Fin 192) (i : VecMem) (s : State) : State :=
  s.retire4 c (((s.core c).active i.m).head?.elim 0 ((s.core c).elemAddr i))

/-- R227: element `e` meets a cause: GATHERFF cuts VL at an address fault above element 0; else the instruction traps. -/
def State.vecFault (c : Fin 192) (i : VecMem) (cause : Nat) (u : VUnit) (s : State) : State :=
  if i.op = 5 ∧ u.e > 0 ∧ cause ≠ causePoison then
    let first := ((s.core c).active i.m).head?.elim 0 ((s.core c).elemAddr i)
    (s.onCore c (fun x => { x with vl := BitVec.ofNat 5 u.e })).retire4 c first
  else s.trapElem c cause u.e u.addr

/-- R226, R227: the accesses in turn. A remote load that the cache does not serve stalls the core at its element. -/
def State.vecRun (c : Fin 192) (i : VecMem) : List VUnit → State → State
  | [], s => s.vecDone c i
  | u :: r, s =>
    let x := s.core c
    let n := u.n * (x.sew / 8)
    match s.unitReach i x u with
    | .error cause => s.vecFault c i cause u
    | .ok q =>
      if i.stores then
        let bs := x.getBytes i.d u.e u.n
        vecRun c i r (match q with
          | .mem k => (s.storeTo k u.addr bs).pdcFill k u.addr bs.length
          | .reg => s.regWrite (.dealer c) u.addr (leNat bs)
          | .remote p => s.postWrite c .store 2 p u.addr bs)
      else match q with
        | .reg => vecRun c i r (s.onCore c (Core.putBytes i.d u.e (leBytes n (s.dealerRead u.addr))))
        | .mem k =>
          let s := (s.settle u.addr n).pdcFill k u.addr n
          if s.poisonedIn u.addr n then s.vecFault c i causePoison u
          else vecRun c i r (s.onCore c (Core.putBytes i.d u.e (s.readMem u.addr n)))
        | .remote p =>
          match s.readRemote c .load p u.addr 0 n with
          | (.error bs, s) => vecRun c i r (s.onCore c (Core.putBytes i.d u.e bs))
          | (.ok id, s) => (s.stalled c 4).onCore c (fun y => { y with stall := some (.vec id i u.e u.n) })

/-- A Dealer-V memory instruction (R225-R227). -/
def vecMemRow (c : Fin 192) (i : VecMem) (s : State) : Host.Outcome State Fault Refusal :=
  onIssue c s (fun s =>
    let x := s.core c
    if x.vecIllegal i then s.trap c causeIllegal
    else
      let us := s.vecUnits i x
      onlyIf (s.vecNow c i x us) (State.vecRun c i us) s)

/-- The accesses that follow element `e` of an instruction that waits for it. -/
def State.vecRest (s : State) (c : Fin 192) (i : VecMem) (e n : Nat) : List VUnit :=
  (s.vecUnits i (s.core c)).filter (fun u => decide (e + n ≤ u.e))

/-- VLD (R225). -/
def execVld (c : Fin 192) (d a : Fin 32) (m : Fin 8) (s : State) : Host.Outcome State Fault Refusal := vecMemRow c ⟨0, d, a, 0, m, 0, 0⟩ s

/-- VST (R225). -/
def execVst (c : Fin 192) (d a : Fin 32) (m : Fin 8) (s : State) : Host.Outcome State Fault Refusal := vecMemRow c ⟨1, d, a, 0, m, 0, 0⟩ s

/-- VLDS (R225). -/
def execVlds (c : Fin 192) (d a b : Fin 32) (m : Fin 8) (s : State) : Host.Outcome State Fault Refusal := vecMemRow c ⟨2, d, a, b, m, 0, 0⟩ s

/-- VSTS (R225). -/
def execVsts (c : Fin 192) (d a b : Fin 32) (m : Fin 8) (s : State) : Host.Outcome State Fault Refusal := vecMemRow c ⟨3, d, a, b, m, 0, 0⟩ s

/-- GATHER (R225, R227). -/
def execGather (c : Fin 192) (d a b : Fin 32) (m : Fin 8) (sh iw : BitVec 2) (s : State) : Host.Outcome State Fault Refusal :=
  vecMemRow c ⟨4, d, a, b, m, sh, iw⟩ s

/-- GATHERFF (R227). -/
def execGatherff (c : Fin 192) (d a b : Fin 32) (m : Fin 8) (sh iw : BitVec 2) (s : State) : Host.Outcome State Fault Refusal :=
  vecMemRow c ⟨5, d, a, b, m, sh, iw⟩ s

/-- SCATTER (R225, R227). -/
def execScatter (c : Fin 192) (d a b : Fin 32) (m : Fin 8) (sh iw : BitVec 2) (s : State) : Host.Outcome State Fault Refusal :=
  vecMemRow c ⟨6, d, a, b, m, sh, iw⟩ s

/-! ### SUBMIT (R93, R94, R228) -/

/-- V[B] to V[B+7], V[B] lowest. -/
def Core.descriptor (x : Core) (b : Fin 32) : BitVec 1024 := BitVec.ofNat 1024 (x.wide b 8)

/-- An instance that is present (R19). -/
def State.engPresent (s : State) (k : EngKind) (i : Nat) : Bool :=
  (match k with
    | .tbl => vget s.inv.tbl i .own
    | .atm => vget s.inv.atm i .own
    | .sol => vget s.inv.sol i .own
    | .shf => vget s.inv.shf i .own) != .absent

/-- R228: a SUBMIT: to a port, where it waits for acceptance; to a group or all window, where it is dropped; anything else traps
SUBMIT_PORT. A port of an engine that the job's image does not name traps PERM (R482). -/
def State.submitTo (c : Fin 192) (b : Fin 32) (a : Nat) (s : State) : State :=
  match regAddr a with
  | some (.eng k, w, 0) =>
    if b.val % 8 ≠ 0 then s.trap c causeSubmitPort
    else match w with
      | .inst i =>
        if !(s.engPresent k i) then s.trap c causeSubmitPort
        else if !(s.dealerStores (.eng k) w 0) then s.trap c causePerm
        else
          ((s.stalled c 5).onEngine k i (fun e => { e with port := e.port ++ [⟨some c, (s.core c).flush, (s.core c).descriptor b⟩] })).onCore c
            (fun x => { x with stall := some .submit })
      | w =>
        if !s.job.attached then s.trap c causePerm
        else
          (((s.selected (.eng k) w).filter (s.job.uses.namesReg (.eng k))).foldl (fun s i => s.engErr k i 8) s).retire4 c
  | _ => s.trap c causeSubmitPort

/-- SUBMIT (R228). -/
def execSubmit (c : Fin 192) (a b : Fin 32) (s : State) : Host.Outcome State Fault Refusal :=
  onIssue c s (fun s => s.submitTo c b ((s.core c).gr a).toNat)

end Sys2Proof.Machine
end

