-- ==== Sys2Proof/Machine/DealerFab.lean ====
section
/-!
DEFINITION. DealerFab.lean: the fabric instructions of a Dealer core: ATOM, RPUT, RGET, INVAL, INVAL_SEND (R267-R270, R283), HAND
(R287-R289) and MSEND (R296, R299).
-/
namespace Sys2Proof.Machine

open Sys2Proof

/-! ### Addresses -/

/-- The cause for which a local block or buffer of an instruction traps: alignment, address, permission. Pip boards are reached by
loads and stores only (R333); sample buffers only as R456 has it. -/
def State.blockFault (s : State) (store : Bool) (align a n : Nat) : Option Nat :=
  match s.accessFault align a n with
  | some x => some x
  | none => match s.storeOfExtent a n with
    | some (.pip _) => some causeAddr
    | some (.sbuf i) => if !store && s.sbufLoad i then none else some causePerm
    | _ => none

/-- Does a local block have to wait: staged bytes (R291), the memory of a Deck in reset (R377), a retrain (R247, R384)? -/
def State.blockWaits (s : State) (who : Accessor) (a n : Nat) : Bool := s.stagedHit a n || s.busyAt who a n

/-- R264, R266: the node that a remote address names, or the cause for which the instruction traps. -/
def State.remoteOf (s : State) (a : Nat) : Except Nat Node :=
  if raOk a then
    match s.translate (raSlot a) with
    | some x => .ok x
    | none => .error causeNotRack
  else .error causeAddr

/-! ### ATOM (R268-R270) -/

/-- R268, R270: is a request refused at issue: a reserved CODE or FMT, or one that the operation does not take; COUNT; LEN; more than 16
fetched bytes? ACLEAR, AREAD and RECIPE take no source, and any LEN (log entry 15). -/
def atomBad (code fmt count len : Nat) (fetch : Bool) : Bool :=
  !(msTakes code fmt) || count == 0 || decide (count > 256) || len == 0 || decide (len > 256) ||
  ((code == 0x10 || code == 0x11) && count != 1) ||
  (code != 0x0C && (fetch || msFetches code fetch) && decide (count * fmtBytes fmt > 16)) ||
  (code != 0x0A && code != 0x0B && code != 0x0C && len != count * msSource_ code fmt)

/-- The request block at an address. -/
def State.atomBlock (s : State) (blk target : Nat) (flush : Bool) : MsReq :=
  let b := s.readMem blk 384
  { code := BitVec.ofNat 8 (leAt b 0 1), fmt := BitVec.ofNat 5 (leAt b 1 1), target := BitVec.ofNat 64 target, count := leAt b 2 2
    fetch := (leAt b 4 1).testBit 0, recipe := BitVec.ofNat 4 (leAt b 5 1), payload := slice b 64 (satTo 256 (leAt b 6 2)), flush }

/-- LEN of a request block. -/
def State.atomLen (s : State) (blk : Nat) : Nat := s.readNat (blk + 6) 2

/-- R270: a posted operation is PENDING; a fetching one stalls its core. -/
def State.atomIssued (c : Fin 192) (d : Fin 32) (fetches : Bool) (id : Nat) (s : State) : State :=
  if fetches then (s.stalled c 4).onCore c (fun x => { x with stall := some (.atom id d.val) }) else s.putG c d (BitVec.ofNat 64 ocPending)

/-- R283: lines of the cache that an ATOM may write are dropped at issue; a recipe names its own targets, so every line of the node is. -/
def State.atomDrops (x : Node) (q : MsReq) (s : State) : State :=
  if q.code = 0x0C then s.rrcDropNode x
  else s.rrcDrop x (raLaddr q.target.toNat) (q.count * (if msAnchored q.code.toNat then 32 else fmtBytes q.fmt.toNat))

/-- An ATOM to this node's own memory: the controller applies it, with no tag (R268). -/
def State.atomLocal (c : Fin 192) (d : Fin 32) (blk : Nat) (q : MsReq) (s : State) : State :=
  let o := newOp .localAtom (some c) (s.myNode.getD ⟨0, 0⟩) s.fab.mySlot.toNat s.job.rank.toNat q.target.toNat blk q.payload.length
    { hdr := s.hdrTo 4 s.fab.mySlot.toNat s.job.rank.toNat 0 }
  let r := s.addOp { o with req := some q }
  r.2.atomIssued c d (msFetches q.code.toNat q.fetch) r.1

/-- An ATOM to a node's memory. -/
def State.atomRemote (c : Fin 192) (d : Fin 32) (blk : Nat) (x : Node) (q : MsReq) (s : State) : State :=
  let r := (s.atomDrops x q).issueRemote c .atom 4 x q.target.toNat blk q.payload.length q.payload
    (fun h => { h with code := q.code, fmt := q.fmt, fetch := q.fetch, count := BitVec.ofNat 16 q.count, slot := q.recipe }) id
  r.2.atomIssued c d (msFetches q.code.toNat q.fetch) r.1

/-- R432: does a core's local ATOM name memory outside the job's regions? What holds no memory is the controller's to refuse. -/
def State.atomPerm (s : State) (q : MsReq) : Bool :=
  let x := s.msExtent q
  (s.storeOfExtent x.1 (max x.2 1)).isSome && !(s.attachedExtent x.1 (max x.2 1))

/-- ATOM (R270): the block is read; traps of the block and of the target, then a refused request, then the operation. -/
def State.atomAt (c : Fin 192) (d : Fin 32) (target blk : Nat) (s : State) : State :=
  match s.blockFault false 64 blk 384 with
  | some cause => s.trap c cause
  | none =>
    if s.blockWaits (.dealer c.val) blk 384 then s
    else
      let s := s.settle blk 384
      if s.poisonedIn blk 384 then s.trap c causePoison
      else
        let q := s.atomBlock blk target (s.core c).flush
        let bad := atomBad q.code.toNat q.fmt.toNat q.count (s.atomLen blk) q.fetch
        let refuse (s : State) : State := s.putG c d (BitVec.ofNat 64 ocAtomBad)
        if target ≥ 2 ^ 62 then
          match s.remoteOf target with
          | .error cause => s.trap c cause
          | .ok x => if bad then refuse s else if s.tagRoom x 1 && !s.fabricShut c then s.atomRemote c d blk x q else s
        else if bad then refuse s
        else if s.atomPerm q then s.trap c causePerm
        else s.atomLocal c d blk q

/-- ATOM (R268-R270). -/
def execAtom (c : Fin 192) (d a b : Fin 32) (s : State) : Host.Outcome State Fault Refusal :=
  onIssue c s (fun s => s.atomAt c d ((s.core c).gr a).toNat ((s.core c).gr b).toNat)

/-! ### RPUT and RGET (R267, R272, R374) -/

/-- R267: the cause for which an RPUT or RGET traps: alignment of both addresses, the length (log entry 15), the local extent. -/
def State.copyFault (s : State) (store : Bool) (remote local_ n : Nat) : Option Nat :=
  if remote % 64 ≠ 0 ∨ local_ % 64 ≠ 0 then some causeAlign
  else if n = 0 ∨ n > 256 then some causeIllegal
  else s.blockFault store 64 local_ n

/-- R374: an operation whose local source is poisoned is not sent: its outcome is POISON. -/
def State.notSent (c : Fin 192) (kind : OpKind) (x : Node) (slot rank addr len status : Nat) (s : State) : State :=
  s.remoteStatus (newOp kind (some c) x slot rank addr 0 len { hdr := s.hdrTo 0 slot rank 0 }) status

/-- RPUT: posted. -/
def State.rputAt (c : Fin 192) (remote local_ n : Nat) (s : State) : State :=
  match s.copyFault false remote local_ n with
  | some cause => s.trap c cause
  | none =>
    match s.remoteOf remote with
    | .error cause => s.trap c cause
    | .ok x =>
      if s.blockWaits (.dealer c.val) local_ n ∨ !(s.tagRoom x 1) ∨ s.fabricShut c then s
      else
        let s := s.settle local_ n
        if s.poisonedIn local_ n then (s.notSent c .rput x (raSlot remote) (s.slotRank (raSlot remote)) remote n ocPoison).retire4 c
        else (s.postWrite c .rput 3 x remote (s.readMem local_ n)).retire4 c

/-- RPUT: G[D] bytes from G[B] to remote G[A] (R267). -/
def execRput (c : Fin 192) (d a b : Fin 32) (s : State) : Host.Outcome State Fault Refusal :=
  onIssue c s (fun s => let x := s.core c; s.rputAt c (x.gr a).toNat (x.gr b).toNat (x.gr d).toNat)

/-- RGET: posted; served from the cache at once where it holds every line. -/
def State.rgetAt (c : Fin 192) (remote local_ n : Nat) (s : State) : State :=
  match s.copyFault true remote local_ n with
  | some cause => s.trap c cause
  | none =>
    match s.remoteOf remote with
    | .error cause => s.trap c cause
    | .ok x =>
      if s.blockWaits (.dealer c.val) local_ n ∨ s.fabricShut c then s
      else
        match s.readRemote c .rget x remote local_ n with
        | (.error bs, s) => (s.putLocal local_ bs).retire4 c
        | (.ok _, s) => s.retire4 c

/-- RGET: G[D] bytes from remote G[B] to G[A] (R267). -/
def execRget (c : Fin 192) (d a b : Fin 32) (s : State) : Host.Outcome State Fault Refusal :=
  onIssue c s (fun s => let x := s.core c; s.rgetAt c (x.gr b).toNat (x.gr a).toNat (x.gr d).toNat)

/-! ### INVAL and INVAL_SEND (R267, R283, R284) -/

/-- INVAL: the lines that G[B] bytes from remote G[A] meet are dropped here at once. -/
def execInval (c : Fin 192) (a b : Fin 32) (s : State) : Host.Outcome State Fault Refusal :=
  onIssue c s (fun s =>
    let ad := ((s.core c).gr a).toNat
    match s.remoteOf ad with
    | .error cause => s.trap c cause
    | .ok x => (s.rrcInvalidate x (raLaddr ad) ((s.core c).gr b).toNat).retire4 c)

/-- R285: an INVAL packet names at most 65,535 lines: the pieces of a range, first line and number of lines (`fuel` of them at most). -/
def invalPieces : Nat → Nat → Nat → List (Nat × Nat)
  | 0, _, _ => []
  | f + 1, line, n => if n = 0 then [] else if n ≤ 65535 then [(line, n)] else (line, 65535) :: invalPieces f (line + 65535) (n - 65535)

/-- The lines of a range that LADDR can name, in pieces. -/
def invalRange (laddr len : Nat) : List (Nat × Nat) :=
  if len = 0 then []
  else
    let first := laddr / 256
    let last := min ((laddr + len - 1) / 256) (2 ^ 36 - 1)
    invalPieces ((last + 1 - first) / 65535 + 1) first (last + 1 - first)

/-- One INVAL_SEND packet to a slot (R283, R285): LADDR is the start of its first line, and COUNT the lines it meets (DESIGN CHOICE where
the range begins within a line, log entry 18). -/
def State.sendInval (c : Fin 192) (slot : Nat) (x : Node) (a : Nat) (piece : Nat × Nat) (s : State) : State :=
  let rank := s.slotRank slot
  let h : Hdr := { s.hdrTo 5 slot rank 0 with
    rangeSlot := BitVec.ofNat 6 (raSlot a), laddr := BitVec.ofNat 44 (piece.1 * 256), count := BitVec.ofNat 16 piece.2 }
  let o := newOp .invalSend (some c) x slot rank a 0 0 { hdr := h, dest := .node x }
  (s.addOp o).2.sendOp o false

/-- INVAL_SEND: posted to every slot whose bit is 1 in G[D]; a slot that is not in use traps NOT_RACK (R266). -/
def execInvalSend (c : Fin 192) (d a b : Fin 32) (s : State) : Host.Outcome State Fault Refusal :=
  onIssue c s (fun s =>
    let y := s.core c
    let ad := (y.gr a).toNat
    let slots := onesOf 64 (y.gr d).toNat
    match s.remoteOf ad with
    | .error cause => s.trap c cause
    | .ok _ =>
      if slots.any (fun i => (s.translate i).isNone) then s.trap c causeNotRack
      else if s.fabricShut c then s
      else
        (slots.foldl (fun s i =>
          (invalRange (raLaddr ad) (y.gr b).toNat).foldl (fun s p => s.sendInval c i ((s.translate i).getD ⟨0, 0⟩) ad p) s) s).retire4 c)

/-! ### HAND (R287-R289) -/

/-- R289: does an entry break R264, R266, R268 or R270? -/
def State.handEntryBad (s : State) (e : HandEntry) (len : Nat) : Bool :=
  (match s.remoteOf e.target.toNat with
    | .ok _ => false
    | .error _ => true) ||
  (if e.kind = 2 then len == 0 || decide (len > 256)
    else if e.kind = 4 then e.code == 0x0C || atomBad e.code.toNat e.fmt.toNat e.count len e.fetch
    else true)

/-- The distinct slots of a list, in order of first mention. -/
def distinct : List Nat → List Nat
  | [] => []
  | x :: r => x :: (distinct r).filter (fun y => y ≠ x)

/-- R288: bytes of a hand block of `n` entries. -/
def handBlock (n : Nat) : Nat := if 1 ≤ n ∧ n ≤ 64 then 2112 + 16 * n else 64

/-- R283: the lines that an entry of a hand may write are dropped at issue. -/
def State.handDrops (e : HandEntry) (s : State) : State :=
  let x := (s.translate e.slot).getD ⟨0, 0⟩
  if e.kind = 2 then s.rrcDrop x e.laddr e.payload.length else s.atomDrops x e.req

/-- HAND: a hand is refused with HAND_BAD, or staged, and its core stalls. NOPS stands in the header, and what it names is read where it is
in its range (R289). -/
def State.handAt (c : Fin 192) (d : Fin 32) (blk : Nat) (s : State) : State :=
  match s.blockFault true 64 blk 64 with
  | some cause => s.trap c cause
  | none =>
    if s.blockWaits (.dealer c.val) blk 64 ∨ s.fabricShut c then s
    else
      let s := s.settle blk 64
      if s.poisonedIn blk 64 then s.trap c causePoison
      else
        let n := s.readNat blk 1
        let bad (s : State) : State := s.handOutcome c d.val blk 3 0 0xFF
        if n = 0 ∨ n > 64 then bad s
        else match s.blockFault true 64 blk (handBlock n) with
        | some cause => s.trap c cause
        | none =>
          if s.blockWaits (.dealer c.val) blk (handBlock n) then s
          else
          let s := s.settle blk (64 + 32 * n)
          if s.poisonedIn blk (64 + 32 * n) then s.trap c causePoison
          else
            let tab := s.readMem (blk + 64) (32 * n)
            let lens := (upTo n).map (fun i => leAt tab (32 * i + 6) 2)
            let srcs := (upTo n).map (fun i => (leAt tab (32 * i + 16) 8, lens.getD i 0))
            let es := (upTo n).map (fun i => entryOf tab i (fun _ _ => []))
            let slots := distinct (es.map (·.slot))
            if (List.zip es lens).any (fun el => s.handEntryBad el.1 el.2) ∨ slots.length > 16 ∨ lens.foldl (· + ·) 0 > 16384 then bad s
            else
              match srcs.findSome? (fun x => s.blockFault false 1 x.1 x.2) with
              | some cause => s.trap c cause
              | none =>
                let nodes := slots.map (fun i => (s.translate i).getD ⟨0, 0⟩)
                if srcs.any (fun x => s.blockWaits (.dealer c.val) x.1 x.2) ∨ nodes.any (fun x => !(s.tagRoom x 2)) then s
                else
                  let s := srcs.foldl (fun s x => s.settle x.1 x.2) s
                  if srcs.any (fun x => s.poisonedIn x.1 x.2) then bad s
                  else
                    let h : HandOut :=
                      { num := s.hnd.nextHand, core := c, dreg := d, block := blk
                        entries := (List.zip es srcs).map (fun ex => { ex.1 with payload := s.readMem ex.2.1 ex.2.2 })
                        slots, nodes, votes := [], decided := none, reason := 0, foldSlot := 0xFF, acks := [], silent := [], fetched := [] }
                    let s := h.entries.foldl (fun s e => s.handDrops e) s
                    let s := s.onHnd (fun u => { u with out := u.out ++ [h], nextHand := u.nextHand + 1 })
                    ((s.stalled c 0).onCore c (fun x => { x with stall := some (.hand d.val h.num.toNat) })).stageHand h

/-- HAND (R288). -/
def execHand (c : Fin 192) (d a : Fin 32) (s : State) : Host.Outcome State Fault Refusal :=
  onIssue c s (fun s => s.handAt c d ((s.core c).gr a).toNat)

/-! ### MSEND (R296, R298, R299) -/

/-- MSEND: posted. A rank without a valid entry gives MSG_BAD (R299), a poisoned source POISON (R374); neither is sent. -/
def State.msendAt (c : Fin 192) (d : Fin 32) (blk : Nat) (s : State) : State :=
  match s.blockFault false 64 blk 64 with
  | some cause => s.trap c cause
  | none =>
    if s.blockWaits (.dealer c.val) blk 64 then s
    else
      let s := s.settle blk 64
      if s.poisonedIn blk 64 then s.trap c causePoison
      else
        let b := s.readMem blk 64
        let rank := leAt b 0 4
        let len := leAt b 8 4
        let src := leAt b 16 8
        if src % 64 ≠ 0 then s.trap c causeAlign
        else if len = 0 ∨ len > 65536 then s.trap c causeIllegal
        else
          match s.blockFault false 64 src len with
          | some cause => s.trap c cause
          | none =>
            if s.blockWaits (.dealer c.val) src len ∨ !(s.msgRoom rank) ∨ s.fabricShut c then s
            else
              let s := s.settle src len
              let x := (s.nodeOfRank rank).getD ⟨0, 0⟩
              let s := if (s.nodeOfRank rank).isNone then s.notSent c .msg x (rank % 64) rank 0 len ocMsgBad
                else if s.poisonedIn src len then s.notSent c .msg x (rank % 64) rank 0 len ocPoison
                else (s.sendMsg (some c) rank (leAt b 4 1 % 64) (leAt b 6 2) (s.readMem src len) 0).2
              s.putG c d (BitVec.ofNat 64 ocPending)

/-- MSEND (R296). -/
def execMsend (c : Fin 192) (d a : Fin 32) (s : State) : Host.Outcome State Fault Refusal :=
  onIssue c s (fun s => s.msendAt c d ((s.core c).gr a).toNat)

end Sys2Proof.Machine
end

