-- ==== Sys2Proof/Machine/FabRows.lean ====
section
/-!
DEFINITION. FabRows.lean: the packets of the memory-semantic fabric as they arrive (R271-R285), at the target and at the issuer, and the
issuer's and the target's timers (R275, R276, R278).
-/
namespace Sys2Proof.Machine

open Sys2Proof

/-! ### Requests at the target -/

/-- A packet of one kind, else nothing. -/
def ofKind (kind : Nat) (p : Packet) (f : State → State) (s : State) : Host.Outcome State Fault Refusal :=
  inService s (onlyIf (p.hdr.kind.toNat == kind) f)

/-- LOAD (R285). -/
def execLoad (p : Packet) (s : State) : Host.Outcome State Fault Refusal := ofKind 0x01 p (State.onLoad p) s
/-- STORE (R277). -/
def execStore (p : Packet) (s : State) : Host.Outcome State Fault Refusal := ofKind 0x02 p (State.onStore p) s
/-- RPUT_PACKET (R277). -/
def execRputPacket (p : Packet) (s : State) : Host.Outcome State Fault Refusal := ofKind 0x03 p (State.onStore p) s
/-- ATOM_PACKET (R277). -/
def execAtomPacket (p : Packet) (s : State) : Host.Outcome State Fault Refusal := ofKind 0x04 p (State.onAtom p) s
/-- INVAL_PACKET (R283). -/
def execInvalPacket (p : Packet) (s : State) : Host.Outcome State Fault Refusal := ofKind 0x05 p (State.onInval p) s
/-- CONFIRM (R275). -/
def execConfirm (p : Packet) (s : State) : Host.Outcome State Fault Refusal := ofKind 0x06 p (State.onConfirm p) s

/-! ### DATA at the issuer (R272, R276, R282, R284) -/

/-- R276: an interim response: the operation is sent again TIMEOUT later, and its retries count from 0. -/
def State.interim (id : Nat) (s : State) : State := s.onOp id (fun o => { o with retries := 0, held := true, sentAt := s.now })

/-- R278: a response for an operation that is unknown is discarded and counted. -/
def State.lateAck (s : State) : State := s.onFab (fun f => { f with lateAck := satAdd f.lateAck 1 })

/-- R282, R284: a line arrives: it is installed where the cache is on and no invalidation has covered it; the read has it. -/
def State.lineArrives (o : OutOp) (line : Nat) (bs : List Byte) (s : State) : State :=
  let s := if s.rrcUsed o.addr.toNat ∧ !(o.noInstall.contains line) then s.rrcInstall o.node line bs else s
  s.onOp o.id (fun x => { x with want := x.want.filter (fun l => l ≠ line), got := x.got ++ [(line, bs)] })

/-- R227, R272: a read ends: a load's core goes on, an RGET's bytes are written. -/
def State.readDone (o : OutOp) (bs : List Byte) (s : State) : State :=
  match o.kind with
  | .rget => (s.rgetDone o ocOk bs).dropOp o.id
  | _ =>
    let s := s.dropOp o.id
    match o.core with
    | none => s
    | some c =>
      match (s.core c).stall with
      | some (.vec id i e n) =>
        if id = o.id then
          (s.onCore c (fun x => ({ x with stall := none }).putBytes i.d e bs)).vecRun c i (s.vecRest c i e n)
        else s
      | _ => s.loadDone o bs

/-- R227, R272: a read is answered with an error. -/
def State.readFailed (o : OutOp) (status : Nat) (s : State) : State :=
  match o.kind with
  | .rget => (s.rgetDone o status []).dropOp o.id
  | _ =>
    let s := s.dropOp o.id
    let cause := if status = ocPoison then causePoison else causeAddr
    match o.core with
    | none => s
    | some c =>
      match (s.core c).stall with
      | some (.vec id i e n) =>
        if id = o.id then (s.onCore c (fun x => { x with stall := none })).vecFault c i cause ⟨e, n, o.addr.toNat⟩ else s
      | _ => s.loadTrap o cause

/-- Does an answer have to wait: an RGET's for its destination, a load's for the way to its core, a vector load's for its next elements? -/
def State.answerWaits (s : State) (o : OutOp) : Bool :=
  match o.kind, o.core with
  | .rget, _ => s.blockWaits .fdie o.localAddr o.len
  | _, some c => s.fabricShut c || (match (s.core c).stall with
    | some (.vec id i e n) => id == o.id && !(s.vecNow c i (s.core c) (s.vecRest c i e n))
    | _ => false)
  | _, none => false

/-- R272, R282, R284: data of a read arrives. A read of lines ends with its last line. -/
def State.onData (o : OutOp) (p : Packet) (s : State) : State :=
  let status := p.hdr.status.toNat
  if status = ocHeld then s.interim o.id
  else if status = ocAddr ∨ status = ocPoison then s.readFailed o status
  else if status ≠ ocOk then s
  else if o.want.isEmpty then s.readDone o p.payload
  else
    let line := p.hdr.laddr.toNat / 256
    if !(o.want.contains line) then s
    else
      let s := s.lineArrives o line p.payload
      match s.op o.id with
      | some x => if x.want.isEmpty then s.readDone x (fromLines x.got (raLaddr x.addr.toNat) x.len) else s
      | none => s

/-- Data of a read arrives; it waits at the F-die where it cannot go on (R384). -/
def State.takeData (o : OutOp) (p : Packet) (s : State) : State :=
  if s.answerWaits o && p.hdr.status.toNat != ocHeld then s.holdAnswer o.id p else s.onData o p

/-- DATA (R272, R284): a response for the read with an id. -/
def execData (id : Nat) (p : Packet) (s : State) : Host.Outcome State Fault Refusal :=
  ofKind 0x81 p (fun s =>
    match s.op id with
    | none => s
    | some o =>
      s.onJobFrame p o.rank (fun s =>
        if o.kind ≠ .load ∧ o.kind ≠ .rget then s
        else match o.st with
          | .outstanding => s.takeData o p
          | .unknown _ _ => s.lateAck
          | .acked _ => s)) s

/-! ### ACK at the issuer (R274, R276, R278) -/

/-- Does an acknowledgement answer an operation: its tag in the sequence toward that target; of an INVAL_SEND, its slot and range? -/
def OutOp.answered (p : Packet) (o : OutOp) : Bool :=
  match o.kind with
  | .load | .rget | .localAtom => false
  | .invalSend => (p.hdr.tag == 0 && p.kh == .none && BitVec.ofNat 8 o.slot == p.hdr.srcSlot && o.pkt.hdr.laddr == p.hdr.laddr &&
      o.pkt.hdr.count == p.hdr.count)
  | .store | .rput | .atom | .hand =>
    (match p.kh with
      | .rank _ | .trick _ => false
      | _ => true) && o.tag == p.hdr.tag && BitVec.ofNat 8 o.slot == p.hdr.srcSlot
  | .trick => o.tag == p.hdr.tag && (match p.kh with
      | .trick h => o.rank == h.srcRank.toNat
      | _ => false)
  | .msg | .banker => o.tag == p.hdr.tag && (match p.kh with
      | .rank h => o.key == rankedKey p h
      | _ => false)

/-- The operation that an acknowledgement answers: one outstanding first, an INVAL_SEND (whose acknowledgement has tag 0) before a write. -/
def State.ackedOp (s : State) (p : Packet) : Option OutOp :=
  let found := s.fab.ops.filter (OutOp.answered p)
  ((found.find? (fun o => o.kind == .invalSend && o.st == .outstanding)).or (found.find? (fun o => o.st == .outstanding))).or
    (found.find? OutOp.isUnknown)

/-- R277, R298: is the response interim? -/
def interimCode (status : Nat) : Bool := status == ocHeld || status == ocMsgFull

/-- R271, R277: does the outcome say that the operation is unknown at its target (log entry 15)? -/
def lostStatus (status : Nat) : Bool := status == ocAtomicUnknown || status == ocStoreUnknown || status == ocInvalUnknown

/-- R274: an outcome reaches its agent. -/
def State.agentAck (o : OutOp) (p : Packet) (s : State) : State :=
  let status := p.hdr.status.toNat
  match o.kind with
  | .hand => s.handAck o status p.data
  | .trick => s.trkAck o
  | .banker => (s.dropOp o.id).confirmTo o
  | .msg => if o.core.isNone then (s.ckpAck o status).confirmTo o else s.coreAck o status p.data
  | _ => if s.waitsFor o && s.outcomeShut o then s.coreAckLater o status p else s.coreAck o status p.data

/-- R274, R276, R278: an acknowledgement is taken. -/
def State.onAck (p : Packet) (s : State) : State :=
  match s.ackedOp p with
  | none => s
  | some o =>
    if o.isUnknown then s.lateAck
    else if interimCode p.hdr.status.toNat then s.interim o.id
    else if lostStatus p.hdr.status.toNat then s.opUnknown o .replayLost
    else s.agentAck o p

/-- The rank that an acknowledgement comes from. -/
def State.ackRank (s : State) (p : Packet) : Nat :=
  match p.kh with
  | .rank h => h.srcRank.toNat
  | .trick h => h.srcRank.toNat
  | _ => s.srcRank p

/-- ACK (R274): of a job frame, or of a frame outside any job (R311). -/
def execAck (p : Packet) (s : State) : Host.Outcome State Fault Refusal :=
  ofKind 0x82 p (fun s => if p.hdr.jobTag = 0 then s.onAck p else s.onJobFrame p (s.ackRank p) (State.onAck p)) s

/-! ### Timers -/

/-- R276: an operation is sent again. After an interim response this is no retry (log entry 25). -/
def State.resendOp (o : OutOp) (s : State) : State :=
  let s := if o.held then s else s.pulse .fdie 0x0602 1
  let port := s.portFor { o.pkt with hdr := { o.pkt.hdr with retry := true } } o.port
  ((s.onOp o.id (fun x => { x with retries := if x.held then 0 else x.retries + 1, held := false, sentAt := s.now, port })).noteRetry o.key).sendOp o
    true

/-- RETRY_TIMEOUT (R276, R278): TIMEOUT ac have passed since an operation was last sent: it is sent again, or after LIMIT retries is
unknown. -/
def execRetryTimeout (id : Nat) (s : State) : Host.Outcome State Fault Refusal :=
  inService s (fun s =>
    match s.op id with
    | none => s
    | some o =>
      if o.st ≠ .outstanding ∨ o.kind = .localAtom ∨ s.fab.answers.any (fun x => x.1 = id) ∨ s.now < o.sentAt + s.fab.timeout.toNat then s
      else if o.held ∨ o.retries < s.fab.limit.toNat then s.resendOp o
      else s.opUnknown o .timeout)

/-- REPLAY_ENTRY_EXPIRY (R275): an entry is freed 16 cd after its write was applied. -/
def execReplayEntryExpiry (key : Nat) (tag : BitVec 16) (s : State) : Host.Outcome State Fault Refusal :=
  inService s (fun s =>
    let keep (r : Replay) : Bool := !(r.key == key && r.tag == tag && decide (r.at_ + retention ≤ s.now))
    s.onFab (fun f => { f with replay := f.replay.filter keep, msgReplay := f.msgReplay.filter keep }))

end Sys2Proof.Machine
end

