-- ==== Sys2Proof/Machine/Markers.lean ====
section
/-!
DEFINITION. Markers.lean: what a cadence marker brings about (R24-R28, R44): validity, lock, failover, relock, and the count jump with the
actions that it passes over.
-/
namespace Sys2Proof.Machine

open Sys2Proof

/-! ### Actions passed over (R27) -/

/-- A pending action that a forward jump has passed over: its release time in ac, and its release. -/
abbrev Passed := Nat × (State → State)

/-- Insert after the actions released no later: order of release time, and FIFO order within one. -/
def passInsert (x : Passed) : List Passed → List Passed
  | [] => [x]
  | y :: r => if y.1 ≤ x.1 then y :: passInsert x r else x :: y :: r

/-- R27: a release that lies behind the package counter, which is still waited for. -/
def State.passedBy (s : State) (rel : Nat) : Bool := rel != relOnArrival && decide (relTime rel < s.now)

/-- The engines' heads, where RUN is 1 (R116). -/
def State.passedHeads (s : State) : List Passed :=
  ([EngKind.tbl, .atm, .sol, .shf].map (fun k => ((upTo k.count).filter (fun i =>
    let e := s.engine k i
    e.runBit && e.head.phase == .waitRelease && s.passedBy (e.headRelease k))).map (fun i =>
      let rel := (s.engine k i).headRelease k
      (relTime rel, fun (s : State) => s.onHead k i (fun h => h.passOver s rel 4))))).flatten

/-- R322: a collective passed over starts at the jump, or as soon as one may. -/
def State.passTrick (slot : Nat) (inst : BitVec 32) (s : State) : State :=
  s.onTrk (fun t => { t with running := t.running.map (fun c =>
    if c.progSlot = slot ∧ c.inst = inst ∧ c.phase = .waitRelease then
      { c with late := true, phase := if t.mayStart then .released else .blocked, firstEffect := s.now + 16 }
    else c) })

/-- The Trick engine's launches. -/
def State.passedTricks (s : State) : List Passed :=
  (s.trk.running.filter (fun c => c.phase == .waitRelease && s.passedBy c.release.toNat)).map (fun c =>
    (relTime c.release.toNat, State.passTrick c.progSlot c.inst))

/-- The Decant, and a restore commit that waits for its copy (R362). -/
def State.passedCkp (s : State) : List Passed :=
  (match s.ckp.phase, s.ckp.cur with
    | .waitRelease, some r =>
      if s.passedBy r.release.toNat then
        [(relTime r.release.toNat, fun (s : State) => s.onCkp (fun k => { k with phase := .released, late := true, firstEffect := s.now + 32 }))]
      else []
    | _, _ => []) ++
  (match s.ckp.commit with
    | some c => if !c.copying ∧ s.passedBy c.release.toNat then [(relTime c.release.toNat, State.startCopy)] else []
    | none => [])

/-- A rank update (R300), a job's START (R431), and the re-entries of resets (R407), whose handshake then runs from the next marker. -/
def State.passedNode (s : State) : List Passed :=
  (match s.fab.rankUpdate with
    | some u => if s.passedBy u.release.toNat then [(relTime u.release.toNat, State.applyUpdate u)] else []
    | none => []) ++
  (if s.job.attachMbx.isSome ∧ s.passedBy s.job.start.toNat then [(relTime s.job.start.toNat, State.startJob)] else []) ++
  ((s.resets.filter (fun r => r.step == 4 && r.marker.isNone && decide ((r.reentry.getD 0).toNat * 60000 < s.now))).map (fun r =>
    ((r.reentry.getD 0).toNat * 60000, fun (s : State) => s.reenter r.scope (s.cad.count + 1))))

/-- R306: the discovery epochs passed over since time `before`. -/
def State.passedEpochs (before : Nat) (s : State) : List Passed :=
  let first := before / (1024 * 60000) + 1
  let last := (s.now - 1) / (1024 * 60000)
  (upTo (last + 1 - first)).map (fun k => let c := 1024 * (first + k); (c * 60000, State.discoveryAt (BitVec.ofNat 48 c)))

/-- R27: a forward jump releases every pending action that it passed over, in order of release time. -/
def State.passOverAll (before : Nat) (s : State) : State :=
  ((s.passedHeads ++ s.passedTricks ++ s.passedCkp ++ s.passedNode ++ s.passedEpochs before).foldl (fun l x => passInsert x l) []).foldl
    (fun s x => x.2 s) s

/-! ### Relock (R25, R27, R44) -/

/-- R27: replace count and phase with a source's. -/
def State.jump (src : Fin 33) (count : Count) (s : State) : State :=
  let before := s.now
  let t := count.toNat * 60000 + s.srcDelay src
  let s := s.onCad (fun c => { c with
    count := BitVec.ofNat 48 (t / 60000), phase := t % 60000, slew := 0
    jumpDelta := BitVec.ofInt 48 ((t : Int) - before) })
  let s := (s.lockTo src).dutyStep.cadEvent 24
  let s := s.record { cls := .corrected, block := .cad, code := 4 }
  if t > before then s.passOverAll before else s

/-- R25: another source that is still valid and eligible has its jump coming, and the marker's source is not the selected one. -/
def Cadence.jumpTaken (c : Cadence) (src : Fin 33) : Bool :=
  c.selected != some src && c.jumpFrom.any (fun j => j != src && c.valid j && c.eligible j)

/-- R25: an accepted marker of a valid eligible source in free-run. -/
def State.relock (src : Fin 33) (count : Count) (s : State) : State :=
  let e := s.expected src
  if s.cad.jumpFrom = some src then s.jump src count
  else if count = e.1 ∧ -600 ≤ e.2 ∧ e.2 ≤ 600 then
    ((s.onCad (fun c => { c with slew := e.2 })).lockTo src).cadEvent 8
  else if s.cad.jumpTaken src then s
  else s.onCad (fun c => { c with jumpFrom := some src })

/-! ### Markers (R24, R25) -/

/-- R24, R25, R44: an accepted marker, its source's tracker already brought up to date. -/
def State.markerEffect (src : Fin 33) (count : Count) (s : State) : State :=
  let c := s.cad
  if !c.valid src then s
  else if c.st = .acquiring then (if c.selected = some src then s.loadFrom src count else s)
  else if c.st.locked then
    if c.selPending ∧ c.selected = some src then s.lockTo src
    else if src = c.secondarySrc ∧ !c.valid c.active ∧ c.canFailover then (s.lockTo src).cadEvent 2
    else s
  else if c.st = .freeRun ∧ c.eligible src then s.relock src count
  else if c.awaitsM ∧ c.active = src then s.markerArrives src count
  else s

/-- MARKER (R24): a marker arrives at a source. PHASE_ERR takes the error of the active source, and in free-run that of an eligible source
that is valid with this marker (R28, R44). -/
def execMarker (src : Fin 33) (count : Count) (crc : Byte) (s : State) : Host.Outcome State Fault Refusal :=
  inService s (fun s =>
    if crc.toNat ≠ cadenceCrc count.toNat then s.cadEvent 32
    else
      let e := s.expected src
      let locked := s.cad.st.locked
      let isActive := locked && src == s.cad.active
      let watch := locked && (src == s.cad.active || src == s.cad.secondarySrc)
      let was := s.cad.valid src
      let s := if isActive && count != e.1 then s.cadEvent 32 else s
      let s := s.onCad (fun c => { c with sources := vmod c.sources src (fun x => x.accept count c.refAc watch e.1) })
      let err := isActive || (s.cad.st == .freeRun && s.cad.eligible src)
      let s := if err && (was || s.cad.valid src) then s.onCad (fun c => { c with phaseErr := satPhase e.2 }) else s
      if was && !s.cad.valid src then s.sourceLost src else s.markerEffect src count)

end Sys2Proof.Machine
end

