-- ==== Sys2Proof/Machine/Ticks.lean ====
section
/-!
DEFINITION. Ticks.lean: time passes (R26, R303, log entry 2): the accesses of an ac end, the unit counts, and what waited for a way goes on.
-/
namespace Sys2Proof.Machine

open Sys2Proof

/-- R384: an answer that waited at the F-die goes on, or waits again. -/
def State.passAnswer (id : Nat) (p : Packet) (s : State) : State :=
  match s.op id with
  | none => s
  | some o =>
    if o.kind = .atom then
      if s.outcomeShut o then s.holdAnswer id p else (s.atomDone o p.hdr.status.toNat p.data).dropOp id
    else if o.st = .outstanding then s.takeData o p
    else s

/-- R384: what has waited at the F-die reaches its cores where the way is open: answers, outcomes that are unknown, and those of hands. -/
def State.passAnswers (s : State) : State :=
  let s := s.fab.answers.foldl (fun s x => s.passAnswer x.1 x.2) (s.onFab (fun f => { f with answers := [] }))
  let s := s.fab.ops.foldl (fun s o => if o.isUnknown && s.waitsFor o && !(s.outcomeShut o) then s.tellUnknown o else s) s
  s.hnd.out.foldl (fun s h => s.completeHand h.num) s

/-- What a cycle does beside counting. -/
def State.cycleDone (s : State) : State := s.afterTick.passAnswers

/-- R26, R303, R481: one cycle passes. -/
def State.idle (s : State) : State := if s.boot.rstN && !s.pwr.tripped then (s.endBus.countWaits 1).tick.cycleDone else s

/-- CADENCE_INTERVAL_TICK (R26): the rest of the interval passes, up to the next phase 0. -/
def execCadenceIntervalTick (s : State) : Host.Outcome State Fault Refusal :=
  live s (onlyIf (s.cad.st != .acquiring) (fun s => (s.endBus.countWaits (60000 - s.cad.phase)).toPhase0.cycleDone))

end Sys2Proof.Machine
end

