-- ==== Sys2Proof/Machine/Dispatch.lean ====
section
/-!
DEFINITION. Dispatch.lean: one arm for each command.
-/
namespace Sys2Proof.Machine

open Sys2Proof

/-- A command's effect on everything but the queue. -/
def exec (i : Instr) (s : State) : Host.Outcome State Fault Refusal :=
  match i with
  | .marker src count crc => Sys2Proof.Machine.execMarker src count crc s
  | .sourceInvalid src => Sys2Proof.Machine.execSourceInvalid src s
  | .acquireTimeout => Sys2Proof.Machine.execAcquireTimeout s
  | .cadenceIntervalTick => Sys2Proof.Machine.execCadenceIntervalTick s
  | .forcedFreeRun => Sys2Proof.Machine.execForcedFreeRun s
  | .alignmentHandshake mismatch => Sys2Proof.Machine.execAlignmentHandshake mismatch s
  | .cadCtrlWrite v => Sys2Proof.Machine.execCadCtrlWrite v s
  | .actionRelease ref => Sys2Proof.Machine.execActionRelease ref s
  | .registerWrite agent addr v => Sys2Proof.Machine.execRegisterWrite agent addr v s
  | .submit c a b => Sys2Proof.Machine.execSubmit c a b s
  | .tblAccept idx => Sys2Proof.Machine.execTblAccept idx s
  | .atmAccept idx => Sys2Proof.Machine.execAtmAccept idx s
  | .solAccept idx => Sys2Proof.Machine.execSolAccept idx s
  | .shfAccept idx => Sys2Proof.Machine.execShfAccept idx s
  | .descriptorHead k idx => Sys2Proof.Machine.execDescriptorHead k idx s
  | .pipWaitSatisfied k idx => Sys2Proof.Machine.execPipWaitSatisfied k idx s
  | .chunkConsume idx => Sys2Proof.Machine.execChunkConsume idx s
  | .tblTileOutput idx => Sys2Proof.Machine.execTblTileOutput idx s
  | .tblCommit idx => Sys2Proof.Machine.execTblCommit idx s
  | .pipTimeout k idx => Sys2Proof.Machine.execPipTimeout k idx s
  | .cqHeadWrite o v => Sys2Proof.Machine.execCqHeadWrite o v s
  | .ctrlRunWrite o v => Sys2Proof.Machine.execCtrlRunWrite o v s
  | .organSplitWrite idx v => Sys2Proof.Machine.execOrganSplitWrite idx v s
  | .atmTileInvocation idx => Sys2Proof.Machine.execAtmTileInvocation idx s
  | .atmCommit idx => Sys2Proof.Machine.execAtmCommit idx s
  | .compounderLaneGroup idx => Sys2Proof.Machine.execCompounderLaneGroup idx s
  | .solFactorise idx p => Sys2Proof.Machine.execSolFactorise idx p s
  | .solRefine idx p => Sys2Proof.Machine.execSolRefine idx p s
  | .solProblemCommit idx => Sys2Proof.Machine.execSolProblemCommit idx s
  | .shfCommit idx => Sys2Proof.Machine.execShfCommit idx s
  | .shfStateWrite idx off v => Sys2Proof.Machine.execShfStateWrite idx off v s
  | .shfJaBaseWrite idx v => Sys2Proof.Machine.execShfJaBaseWrite idx v s
  | .add c d a b => Sys2Proof.Machine.execAdd c d a b s
  | .sub c d a b => Sys2Proof.Machine.execSub c d a b s
  | .and c d a b => Sys2Proof.Machine.execAnd c d a b s
  | .or c d a b => Sys2Proof.Machine.execOr c d a b s
  | .xor c d a b => Sys2Proof.Machine.execXor c d a b s
  | .sll c d a b => Sys2Proof.Machine.execSll c d a b s
  | .srl c d a b => Sys2Proof.Machine.execSrl c d a b s
  | .sra c d a b => Sys2Proof.Machine.execSra c d a b s
  | .mul c d a b => Sys2Proof.Machine.execMul c d a b s
  | .mulhs c d a b => Sys2Proof.Machine.execMulhs c d a b s
  | .mulhu c d a b => Sys2Proof.Machine.execMulhu c d a b s
  | .div c d a b => Sys2Proof.Machine.execDiv c d a b s
  | .divu c d a b => Sys2Proof.Machine.execDivu c d a b s
  | .rem c d a b => Sys2Proof.Machine.execRem c d a b s
  | .remu c d a b => Sys2Proof.Machine.execRemu c d a b s
  | .slt c d a b => Sys2Proof.Machine.execSlt c d a b s
  | .sltu c d a b => Sys2Proof.Machine.execSltu c d a b s
  | .addi c d a imm => Sys2Proof.Machine.execAddi c d a imm s
  | .andi c d a imm => Sys2Proof.Machine.execAndi c d a imm s
  | .ori c d a imm => Sys2Proof.Machine.execOri c d a imm s
  | .xori c d a imm => Sys2Proof.Machine.execXori c d a imm s
  | .slti c d a imm => Sys2Proof.Machine.execSlti c d a imm s
  | .slli c d a sh => Sys2Proof.Machine.execSlli c d a sh s
  | .srli c d a sh => Sys2Proof.Machine.execSrli c d a sh s
  | .srai c d a sh => Sys2Proof.Machine.execSrai c d a sh s
  | .lui c d imm => Sys2Proof.Machine.execLui c d imm s
  | .ld64 c d a imm => Sys2Proof.Machine.execLd64 c d a imm s
  | .ld32 c d a imm => Sys2Proof.Machine.execLd32 c d a imm s
  | .ld16 c d a imm => Sys2Proof.Machine.execLd16 c d a imm s
  | .ld8 c d a imm => Sys2Proof.Machine.execLd8 c d a imm s
  | .ld32u c d a imm => Sys2Proof.Machine.execLd32u c d a imm s
  | .ld16u c d a imm => Sys2Proof.Machine.execLd16u c d a imm s
  | .ld8u c d a imm => Sys2Proof.Machine.execLd8u c d a imm s
  | .st64 c d a imm => Sys2Proof.Machine.execSt64 c d a imm s
  | .st32 c d a imm => Sys2Proof.Machine.execSt32 c d a imm s
  | .st16 c d a imm => Sys2Proof.Machine.execSt16 c d a imm s
  | .st8 c d a imm => Sys2Proof.Machine.execSt8 c d a imm s
  | .fld c d a imm => Sys2Proof.Machine.execFld c d a imm s
  | .fst c d a imm => Sys2Proof.Machine.execFst c d a imm s
  | .fld32 c d a imm => Sys2Proof.Machine.execFld32 c d a imm s
  | .fst32 c d a imm => Sys2Proof.Machine.execFst32 c d a imm s
  | .beq c d a imm => Sys2Proof.Machine.execBeq c d a imm s
  | .bne c d a imm => Sys2Proof.Machine.execBne c d a imm s
  | .blt c d a imm => Sys2Proof.Machine.execBlt c d a imm s
  | .bge c d a imm => Sys2Proof.Machine.execBge c d a imm s
  | .bltu c d a imm => Sys2Proof.Machine.execBltu c d a imm s
  | .bgeu c d a imm => Sys2Proof.Machine.execBgeu c d a imm s
  | .jmp c off => Sys2Proof.Machine.execJmp c off s
  | .jal c off => Sys2Proof.Machine.execJal c off s
  | .jr c a => Sys2Proof.Machine.execJr c a s
  | .jalr c a => Sys2Proof.Machine.execJalr c a s
  | .fadd c d a b single => Sys2Proof.Machine.execFadd c d a b single s
  | .fsub c d a b single => Sys2Proof.Machine.execFsub c d a b single s
  | .fmul c d a b single => Sys2Proof.Machine.execFmul c d a b single s
  | .ffma c d a b single => Sys2Proof.Machine.execFfma c d a b single s
  | .fdiv c d a b single => Sys2Proof.Machine.execFdiv c d a b single s
  | .fsqrt c d a single => Sys2Proof.Machine.execFsqrt c d a single s
  | .fmin c d a b single => Sys2Proof.Machine.execFmin c d a b single s
  | .fmax c d a b single => Sys2Proof.Machine.execFmax c d a b single s
  | .feq c d a b single => Sys2Proof.Machine.execFeq c d a b single s
  | .flt c d a b single => Sys2Proof.Machine.execFlt c d a b single s
  | .fle c d a b single => Sys2Proof.Machine.execFle c d a b single s
  | .fcvt c d a code single => Sys2Proof.Machine.execFcvt c d a code single s
  | .ftoi c d a single => Sys2Proof.Machine.execFtoi c d a single s
  | .itof c d a single => Sys2Proof.Machine.execItof c d a single s
  | .fmvg c d a single => Sys2Proof.Machine.execFmvg c d a single s
  | .fmvf c d a single => Sys2Proof.Machine.execFmvf c d a single s
  | .fence c d a => Sys2Proof.Machine.execFence c d a s
  | .fenceComplete c => Sys2Proof.Machine.execFenceComplete c s
  | .rdcyc c d => Sys2Proof.Machine.execRdcyc c d s
  | .rdcad c d => Sys2Proof.Machine.execRdcad c d s
  | .rdacr c d => Sys2Proof.Machine.execRdacr c d s
  | .wracr c a => Sys2Proof.Machine.execWracr c a s
  | .rdflags c d => Sys2Proof.Machine.execRdflags c d s
  | .wrflags c a => Sys2Proof.Machine.execWrflags c a s
  | .trapret c => Sys2Proof.Machine.execTrapret c s
  | .brk c => Sys2Proof.Machine.execBrk c s
  | .wrtvec c a => Sys2Proof.Machine.execWrtvec c a s
  | .setvl c d a safe vt => Sys2Proof.Machine.execSetvl c d a safe vt s
  | .vadd c d a b m => Sys2Proof.Machine.execVadd c d a b m s
  | .vsub c d a b m => Sys2Proof.Machine.execVsub c d a b m s
  | .vmul c d a b m => Sys2Proof.Machine.execVmul c d a b m s
  | .vfma c d a b m => Sys2Proof.Machine.execVfma c d a b m s
  | .vdiv c d a b m => Sys2Proof.Machine.execVdiv c d a b m s
  | .vsqrt c d a m => Sys2Proof.Machine.execVsqrt c d a m s
  | .vmin c d a b m => Sys2Proof.Machine.execVmin c d a b m s
  | .vmax c d a b m => Sys2Proof.Machine.execVmax c d a b m s
  | .vand c d a b m => Sys2Proof.Machine.execVand c d a b m s
  | .vor c d a b m => Sys2Proof.Machine.execVor c d a b m s
  | .vxor c d a b m => Sys2Proof.Machine.execVxor c d a b m s
  | .vsll c d a b m => Sys2Proof.Machine.execVsll c d a b m s
  | .vsrl c d a b m => Sys2Proof.Machine.execVsrl c d a b m s
  | .vsra c d a b m => Sys2Proof.Machine.execVsra c d a b m s
  | .vcmpeq c d a b m => Sys2Proof.Machine.execVcmpeq c d a b m s
  | .vcmplt c d a b m => Sys2Proof.Machine.execVcmplt c d a b m s
  | .vcmple c d a b m => Sys2Proof.Machine.execVcmple c d a b m s
  | .vsel c d a b m => Sys2Proof.Machine.execVsel c d a b m s
  | .vsplat c d a m => Sys2Proof.Machine.execVsplat c d a m s
  | .vmv c d a m => Sys2Proof.Machine.execVmv c d a m s
  | .vcvt c d a code m => Sys2Proof.Machine.execVcvt c d a code m s
  | .vsad c d a b m => Sys2Proof.Machine.execVsad c d a b m s
  | .vsada c d a b m => Sys2Proof.Machine.execVsada c d a b m s
  | .vredsum c d a b m => Sys2Proof.Machine.execVredsum c d a b m s
  | .vredmax c d a b m => Sys2Proof.Machine.execVredmax c d a b m s
  | .vld c d a m => Sys2Proof.Machine.execVld c d a m s
  | .vst c d a m => Sys2Proof.Machine.execVst c d a m s
  | .vlds c d a b m => Sys2Proof.Machine.execVlds c d a b m s
  | .vsts c d a b m => Sys2Proof.Machine.execVsts c d a b m s
  | .gather c d a b m sh iw => Sys2Proof.Machine.execGather c d a b m sh iw s
  | .gatherff c d a b m sh iw => Sys2Proof.Machine.execGatherff c d a b m sh iw s
  | .scatter c d a b m sh iw => Sys2Proof.Machine.execScatter c d a b m sh iw s
  | .atom c d a b => Sys2Proof.Machine.execAtom c d a b s
  | .rput c d a b => Sys2Proof.Machine.execRput c d a b s
  | .rget c d a b => Sys2Proof.Machine.execRget c d a b s
  | .inval c a b => Sys2Proof.Machine.execInval c a b s
  | .invalSend c d a b => Sys2Proof.Machine.execInvalSend c d a b s
  | .hand c d a => Sys2Proof.Machine.execHand c d a s
  | .msend c d a => Sys2Proof.Machine.execMsend c d a s
  | .dlrCtrlWrite c v => Sys2Proof.Machine.execDlrCtrlWrite c v s
  | .safepointHalt c => Sys2Proof.Machine.execSafepointHalt c s
  | .ctxSave c => Sys2Proof.Machine.execCtxSave c s
  | .ctxRestore c => Sys2Proof.Machine.execCtxRestore c s
  | .pipRaise suit v => Sys2Proof.Machine.execPipRaise suit v s
  | .pipLower suit v => Sys2Proof.Machine.execPipLower suit v s
  | .iadd r => Sys2Proof.Machine.execIadd r s
  | .smin r => Sys2Proof.Machine.execSmin r s
  | .smax r => Sys2Proof.Machine.execSmax r s
  | .umin r => Sys2Proof.Machine.execUmin r s
  | .umax r => Sys2Proof.Machine.execUmax r s
  | .msideFmin r => Sys2Proof.Machine.execMsideFmin r s
  | .msideFmax r => Sys2Proof.Machine.execMsideFmax r s
  | .plainFadd r => Sys2Proof.Machine.execPlainFadd r s
  | .aadd r => Sys2Proof.Machine.execAadd r s
  | .aclear r => Sys2Proof.Machine.execAclear r s
  | .aread r => Sys2Proof.Machine.execAread r s
  | .recipe r => Sys2Proof.Machine.execRecipe r s
  | .swap r => Sys2Proof.Machine.execSwap r s
  | .cas r => Sys2Proof.Machine.execCas r s
  | .aregDeclare x v => Sys2Proof.Machine.execAregDeclare x v s
  | .memCtrlWrite ctl v => Sys2Proof.Machine.execMemCtrlWrite ctl v s
  | .memRetrain ctl v => Sys2Proof.Machine.execMemRetrain ctl v s
  | .channelRetrain ctl ch temp => Sys2Proof.Machine.execChannelRetrain ctl ch temp s
  | .channelRetrainDone ctl ch ok temp => Sys2Proof.Machine.execChannelRetrainDone ctl ch ok temp s
  | .patrolScrub ctl pch r => Sys2Proof.Machine.execPatrolScrub ctl pch r s
  | .flitReceive port f => Sys2Proof.Machine.execFlitReceive port f s
  | .wavelengthFailing port w => Sys2Proof.Machine.execWavelengthFailing port w s
  | .wavelengthSpared port => Sys2Proof.Machine.execWavelengthSpared port s
  | .load p => Sys2Proof.Machine.execLoad p s
  | .store p => Sys2Proof.Machine.execStore p s
  | .rputPacket p => Sys2Proof.Machine.execRputPacket p s
  | .atomPacket p => Sys2Proof.Machine.execAtomPacket p s
  | .invalPacket p => Sys2Proof.Machine.execInvalPacket p s
  | .confirm p => Sys2Proof.Machine.execConfirm p s
  | .data id p => Sys2Proof.Machine.execData id p s
  | .ack p => Sys2Proof.Machine.execAck p s
  | .retryTimeout id => Sys2Proof.Machine.execRetryTimeout id s
  | .replayEntryExpiry key tag => Sys2Proof.Machine.execReplayEntryExpiry key tag s
  | .fabRetryWrite v => Sys2Proof.Machine.execFabRetryWrite v s
  | .fabCtrlWrite v => Sys2Proof.Machine.execFabCtrlWrite v s
  | .portRoleWrite port v => Sys2Proof.Machine.execPortRoleWrite port v s
  | .hstage p => Sys2Proof.Machine.execHstage p s
  | .hvote p => Sys2Proof.Machine.execHvote p s
  | .hshow p => Sys2Proof.Machine.execHshow p s
  | .hfold p => Sys2Proof.Machine.execHfold p s
  | .hfoldReq p => Sys2Proof.Machine.execHfoldReq p s
  | .hquery p => Sys2Proof.Machine.execHquery p s
  | .msg p => Sys2Proof.Machine.execMsg p s
  | .heartbeat p => Sys2Proof.Machine.execHeartbeat p s
  | .heartbeatMiss identity => Sys2Proof.Machine.execHeartbeatMiss identity s
  | .hello p => Sys2Proof.Machine.execHello p s
  | .fenced p => Sys2Proof.Machine.execFenced p s
  | .suspect p => Sys2Proof.Machine.execSuspect p s
  | .witnessEntryFree suspectRank w => Sys2Proof.Machine.execWitnessEntryFree suspectRank w s
  | .attestReq p => Sys2Proof.Machine.execAttestReq p s
  | .attestRsp p => Sys2Proof.Machine.execAttestRsp p s
  | .mbxReq p => Sys2Proof.Machine.execMbxReq p s
  | .mbxRsp p => Sys2Proof.Machine.execMbxRsp p s
  | .mbxEvent p => Sys2Proof.Machine.execMbxEvent p s
  | .discoveryEpoch => Sys2Proof.Machine.execDiscoveryEpoch s
  | .rankUpdateRelease => Sys2Proof.Machine.execRankUpdateRelease s
  | .rxqWrite q cfg v => Sys2Proof.Machine.execRxqWrite q cfg v s
  | .trickLaunch agent v => Sys2Proof.Machine.execTrickLaunch agent v s
  | .trickLaunchHead => Sys2Proof.Machine.execTrickLaunchHead s
  | .trkChunk p => Sys2Proof.Machine.execTrkChunk p s
  | .trkCredit p => Sys2Proof.Machine.execTrkCredit p s
  | .trkMaxima p => Sys2Proof.Machine.execTrkMaxima p s
  | .trkReady p => Sys2Proof.Machine.execTrkReady p s
  | .trkAbort p => Sys2Proof.Machine.execTrkAbort p s
  | .trkResend p => Sys2Proof.Machine.execTrkResend p s
  | .rankSilent progSlot inst rank => Sys2Proof.Machine.execRankSilent progSlot inst rank s
  | .detour progSlot inst rank => Sys2Proof.Machine.execDetour progSlot inst rank s
  | .decantLaunch agent v => Sys2Proof.Machine.execDecantLaunch agent v s
  | .decantCheck => Sys2Proof.Machine.execDecantCheck s
  | .decantComplete => Sys2Proof.Machine.execDecantComplete s
  | .dryDownStart => Sys2Proof.Machine.execDryDownStart s
  | .dryDownCd => Sys2Proof.Machine.execDryDownCd s
  | .ckpCtrlWrite v => Sys2Proof.Machine.execCkpCtrlWrite v s
  | .restoreCopy => Sys2Proof.Machine.execRestoreCopy s
  | .restoreCopyDone => Sys2Proof.Machine.execRestoreCopyDone s
  | .arithReplay b u => Sys2Proof.Machine.execArithReplay b u s
  | .sramError site uncorrectable => Sys2Proof.Machine.execSramError site uncorrectable s
  | .dlinkLaneRepair link => Sys2Proof.Machine.execDlinkLaneRepair link s
  | .dlinkLaneRepairDone link => Sys2Proof.Machine.execDlinkLaneRepairDone link s
  | .lockstep => Sys2Proof.Machine.execLockstep s
  | .fltFenceWrite => Sys2Proof.Machine.execFltFenceWrite s
  | .witnessEnWrite v => Sys2Proof.Machine.execWitnessEnWrite v s
  | .partialReset sc controller => Sys2Proof.Machine.execPartialReset sc controller s
  | .resetQuiesceDone sc => Sys2Proof.Machine.execResetQuiesceDone sc s
  | .resetReentry r => Sys2Proof.Machine.execResetReentry r s
  | .returnToService sc runs => Sys2Proof.Machine.execReturnToService sc runs s
  | .packageReset => Sys2Proof.Machine.execPackageReset s
  | .supplyRamp vin => Sys2Proof.Machine.execSupplyRamp vin s
  | .undervoltage => Sys2Proof.Machine.execUndervoltage s
  | .rstNAssert => Sys2Proof.Machine.execRstNAssert s
  | .rstNRelease straps => Sys2Proof.Machine.execRstNRelease straps s
  | .perstN => Sys2Proof.Machine.execPerstN s
  | .firmwareVerified answers => Sys2Proof.Machine.execFirmwareVerified answers s
  | .hbmTrainingDone k ok temp => Sys2Proof.Machine.execHbmTrainingDone k ok temp s
  | .portTrainingDone port delay bad => Sys2Proof.Machine.execPortTrainingDone port delay bad s
  | .knownAnswerRun dies runs => Sys2Proof.Machine.execKnownAnswerRun dies runs s
  | .blockDetach b => Sys2Proof.Machine.execBlockDetach b s
  | .blockReattach b => Sys2Proof.Machine.execBlockReattach b s
  | .thermalSample decks f p hbm => Sys2Proof.Machine.execThermalSample decks f p hbm s
  | .throttleUpdate package p f hbm decks => Sys2Proof.Machine.execThrottleUpdate package p f hbm decks s
  | .dutySlot => Sys2Proof.Machine.execDutySlot s
  | .mailboxHandoff m writes r => Sys2Proof.Machine.execMailboxHandoff m writes r s
  | .mailboxPoll => Sys2Proof.Machine.execMailboxPoll s
  | .inventoryRead m => Sys2Proof.Machine.execInventoryRead m s
  | .inventoryClear m => Sys2Proof.Machine.execInventoryClear m s
  | .configRead m => Sys2Proof.Machine.execConfigRead m s
  | .configWrite m => Sys2Proof.Machine.execConfigWrite m s
  | .jobAttach m => Sys2Proof.Machine.execJobAttach m s
  | .attachStart => Sys2Proof.Machine.execAttachStart s
  | .jobDetach m => Sys2Proof.Machine.execJobDetach m s
  | .rankUpdate m => Sys2Proof.Machine.execRankUpdate m s
  | .formulaLoad m => Sys2Proof.Machine.execFormulaLoad m s
  | .atomizerProgramLoad m => Sys2Proof.Machine.execAtomizerProgramLoad m s
  | .trickProgramLoad m => Sys2Proof.Machine.execTrickProgramLoad m s
  | .recipeLoad m => Sys2Proof.Machine.execRecipeLoad m s
  | .regAccess m => Sys2Proof.Machine.execRegAccess m s
  | .logRead m => Sys2Proof.Machine.execLogRead m s
  | .ckpDrydown m => Sys2Proof.Machine.execCkpDrydown m s
  | .ckpStatement m => Sys2Proof.Machine.execCkpStatement m s
  | .ckpSeal m => Sys2Proof.Machine.execCkpSeal m s
  | .ckpStage m => Sys2Proof.Machine.execCkpStage m s
  | .ckpCommit m => Sys2Proof.Machine.execCkpCommit m s
  | .ckpShardRead m => Sys2Proof.Machine.execCkpShardRead m s
  | .attest m => Sys2Proof.Machine.execAttest m s
  | .certRead m => Sys2Proof.Machine.execCertRead m s
  | .fwStage m => Sys2Proof.Machine.execFwStage m s
  | .fwActivate m => Sys2Proof.Machine.execFwActivate m s
  | .fwConfirm m => Sys2Proof.Machine.execFwConfirm m s
  | .bootLoad m => Sys2Proof.Machine.execBootLoad m s
  | .scopedReset m => Sys2Proof.Machine.execScopedReset m s
  | .debugUnlockChallenge m => Sys2Proof.Machine.execDebugUnlockChallenge m s
  | .debugUnlockToken m => Sys2Proof.Machine.execDebugUnlockToken m s
  | .smbusBlockRead cmd => Sys2Proof.Machine.execSmbusBlockRead cmd s
  | .bypass => Sys2Proof.Machine.execBypass s
  | .idcode => Sys2Proof.Machine.execIdcode s
  | .samplePreload pins preload => Sys2Proof.Machine.execSamplePreload pins preload s
  | .extest pins => Sys2Proof.Machine.execExtest pins s
  | .scoCtlWrite u idx v => Sys2Proof.Machine.execScoCtlWrite u idx v s
  | .scoCntWrite u idx v => Sys2Proof.Machine.execScoCntWrite u idx v s
  | .scoSampleWrite u v => Sys2Proof.Machine.execScoSampleWrite u v s
  | .vinLow vin => Sys2Proof.Machine.execVinLow vin s

end Sys2Proof.Machine
end

