-- ==== Sys2Proof/Machine/DealerWord.lean ====
section
/-!
DEFINITION. DealerWord.lean: an instruction word at a Dealer core (R219).
-/
namespace Sys2Proof.Machine

open Sys2Proof

/-- R219: a core meets an instruction word: the instruction that it spells, or the trap ILLEGAL of a reserved MAJOR or FUNCT. -/
def State.runWord (c : Fin 192) (w : BitVec 32) (s : State) : Host.Outcome State Fault Refusal :=
  match dealerWord c w with
  | some i => exec i s
  | none => onIssue c s (State.trap c causeIllegal)

end Sys2Proof.Machine
end

