-- ==== Sys2Proof/Safety.lean ====
section
/-!
DEFINITION. Safety.lean: what a good state and a good step are, and the words that statements are written in.
-/
namespace Sys2Proof.Machine

open Sys2Proof

/-! ### States and steps -/

/-- Does a command or a step answer this next state? -/
def Answers (o : Host.Outcome State Fault Refusal) (t : State) : Prop := o = .next t

/-- Is the package powered, out of reset and not FAILED: are all its units in service (R395, R405, R471)? -/
def State.serves (s : State) : Bool := s.boot.rstN && !s.pwr.tripped && !s.failed

/-- Is the package powered and out of reset: are its endpoint and its mailboxes in service (R395, R405, R471)? -/
def State.awake (s : State) : Bool := s.boot.rstN && !s.pwr.tripped

/-- A run of steps is safe where no step of it faults or refuses. -/
def SafeRun : Nat → State → Prop
  | 0, _ => True
  | n + 1, s => ∃ t, Answers (step s) t ∧ SafeRun n t

/-! ### What a command does -/

/-- Core `c` issues an instruction in a package that serves (R231, R395, R405). -/
def Issues (s : State) (c : Fin 192) : Prop := s.serves = true ∧ s.coreIssues c = true

/-- A state but for what the Scorecard counts (R447-R455), how many free values have been drawn, and which lines the P-die cache holds: the
choice of log entry 21, which no statement rests on. -/
def State.uncounted (s : State) : State := { s with sco := Score.reset, freeCtr := 0, pdc := [] }

/-- A command completes and leaves exactly this state, but for what the Scorecard counts and the P-die cache holds. -/
def Leaves (i : Instr) (s t : State) : Prop := ∃ u, Answers (exec i s) u ∧ u.uncounted = t.uncounted

/-- A command completes, and the state it leaves has a property. -/
def Completes (i : Instr) (s : State) (P : State → Prop) : Prop := ∃ t, Answers (exec i s) t ∧ P t

/-- A core goes on at an address: an instruction has retired, and with RUN 0 the core halts there (R231). -/
def Core.goesTo (pc : BitVec 64) (x : Core) : Core :=
  { x with pc := pc, faulted := false, halted := x.halted || (!x.runBit && x.haltingSince.isNone) }

/-- A core after an instruction that changes its registers by `f` and goes on at the next instruction word. -/
def State.coreRuns (s : State) (c : Fin 192) (f : Core → Core) : State := s.onCore c (fun x => (f x).goesTo (x.pc + 4))

/-- An instruction completes: it writes `v` to G[D], goes on at the next word, and changes nothing else (R214, R219). -/
def WritesG (i : Instr) (s : State) (c : Fin 192) (d : Fin 32) (v : BitVec 64) : Prop := Leaves i s (s.coreRuns c (Core.setG d v))

/-- An instruction completes: it only moves the pc of its core (R219). -/
def Jumps (i : Instr) (s : State) (c : Fin 192) (pc : BitVec 64) : Prop := Leaves i s (s.onCore c (Core.goesTo pc))

/-! ### Scalar accesses of a Dealer core -/

/-- A load of a core of `n` bytes at `a` reads local memory now: it is aligned, in memory that it may read (R218, R475), no staged hand, Deck
in reset or retrain holds its bytes (R247, R291, R377, R384), and no poison stands there once its transfers are decoded (R242, R374). -/
def ReadsMemory (s : State) (c : Fin 192) (a n : Nat) : Prop :=
  (∃ k, s.locate false a n = .ok (.mem k)) ∧ s.accessNow c false a n = true ∧ (s.settle a n).poisonedIn a n = false

/-- The number that `n` bytes of local memory hold, little-endian (R4). -/
def State.wordAt (s : State) (a n : Nat) : Nat := leNat (s.readMem a n)

/-- HBM, a Suit buffer or an Organ: memory in which a store leaves its bytes (R98, R234, R475). -/
def Store.plain : Store → Bool
  | .hbm | .suit _ | .organ _ => true
  | _ => false

/-- A store of a core of `n` bytes at `a` writes plain local memory now (R218, R247, R291, R377, R384, R475). -/
def WritesMemory (s : State) (c : Fin 192) (a n : Nat) : Prop :=
  (∃ k, s.locate true a n = .ok (.mem k) ∧ k.plain = true) ∧ s.accessNow c true a n = true

/-- A scalar load: its instruction, its size in bytes, whether it sign-extends, and whether it writes Fn (R219). -/
structure ScalarLoad where
  row : Instr
  size : Nat
  signed : Bool
  toF : Bool

/-- A loaded number in its register: sign-extended to 64 bits, or zero-extended (R219). -/
def ScalarLoad.put (l : ScalarLoad) (d : Fin 32) (w : Nat) : Core → Core :=
  if l.toF then Core.setF d (BitVec.ofNat 64 w)
  else Core.setG d (if l.signed then (BitVec.ofNat (8 * l.size) w).signExtend 64 else BitVec.ofNat 64 w)

/-- The scalar loads (R219). -/
def scalarLoads (c : Fin 192) (d a : Fin 32) (imm : BitVec 16) : List ScalarLoad :=
  [⟨.ld64 c d a imm, 8, false, false⟩, ⟨.ld32 c d a imm, 4, true, false⟩, ⟨.ld16 c d a imm, 2, true, false⟩, ⟨.ld8 c d a imm, 1, true, false⟩,
   ⟨.ld32u c d a imm, 4, false, false⟩, ⟨.ld16u c d a imm, 2, false, false⟩, ⟨.ld8u c d a imm, 1, false, false⟩,
   ⟨.fld c d a imm, 8, false, true⟩, ⟨.fld32 c d a imm, 4, false, true⟩]

/-- The scalar stores, each with its size in bytes and the register it stores (R219). -/
def scalarStores (c : Fin 192) (d a : Fin 32) (imm : BitVec 16) (x : Core) : List (Instr × Nat × BitVec 64) :=
  [(.st64 c d a imm, 8, x.gr d), (.st32 c d a imm, 4, x.gr d), (.st16 c d a imm, 2, x.gr d), (.st8 c d a imm, 1, x.gr d),
   (.fst c d a imm, 8, x.fr d), (.fst32 c d a imm, 4, x.fr d)]

/-! ### Dealer-V (R219-R227) -/

/-- A Dealer-V instruction completes (R219): element `j` of V[D] becomes the value of `f j`, cut to SEW bits, for `j` in `on`, and every
other element keeps its value; FFLAGS gains the bits that the elements give; the core goes on, and nothing else changes. -/
def Elements (i : Instr) (s : State) (c : Fin 192) (d : Fin 32) (on : List Nat) (f : Nat → Nat × Nat) : Prop :=
  ∃ (v : BitVec 128) (fl : Nat),
    Leaves i s (s.coreRuns c (fun y => (y.setV d v).orFlags fl)) ∧
    (∀ j, j < (s.core c).vlmax → vElem v (s.core c).sew j =
      if j ∈ on then (f j).1 % 2 ^ (s.core c).sew else vElem ((s.core c).vr d) (s.core c).sew j) ∧
    (∀ k, fl.testBit k = true ↔ ∃ j ∈ on, (f j).2.testBit k = true)

/-- An element of an integer kind as a number (R220): signed under KIND 1. -/
def Core.num (x : Core) (y : Nat) : Int := if vtKind x.vtype.toNat = 1 then toSigned x.sew y else y

/-- A number as an element of SEW bits: integer arithmetic wraps modulo 2^SEW (R222). -/
def Core.wrap (x : Core) (n : Int) : Nat × Nat := ((n % (2 ^ x.sew : Int)).toNat, 0)

/-- The Dealer-V memory instructions that load, each with the address of element `j` (R225), for indices of `w` bits shifted by `sh`. -/
def vectorLoads (c : Fin 192) (d a b : Fin 32) (m : Fin 8) (sh iw : BitVec 2) (x : Core) : List (Instr × (Nat → Nat)) :=
  let base := (x.gr a).toNat
  let idx (j : Nat) : Nat := x.wide b (x.wideRegs (8 * 2 ^ iw.toNat)) / 2 ^ (8 * 2 ^ iw.toNat * j) % 2 ^ (8 * 2 ^ iw.toNat)
  [(.vld c d a m, fun j => (base + j * (x.sew / 8)) % 2 ^ 64),
   (.vlds c d a b m, fun j => (base + j * (x.gr b).toNat) % 2 ^ 64),
   (.gather c d a b m sh iw, fun j => (base + idx j * 2 ^ sh.toNat) % 2 ^ 64),
   (.gatherff c d a b m sh iw, fun j => (base + idx j * 2 ^ sh.toNat) % 2 ^ 64)]

/-- The Dealer-V memory instructions that store. -/
def vectorStores (c : Fin 192) (d a b : Fin 32) (m : Fin 8) (sh iw : BitVec 2) (x : Core) : List (Instr × (Nat → Nat)) :=
  let base := (x.gr a).toNat
  let idx (j : Nat) : Nat := x.wide b (x.wideRegs (8 * 2 ^ iw.toNat)) / 2 ^ (8 * 2 ^ iw.toNat * j) % 2 ^ (8 * 2 ^ iw.toNat)
  [(.vst c d a m, fun j => (base + j * (x.sew / 8)) % 2 ^ 64),
   (.vsts c d a b m, fun j => (base + j * (x.gr b).toNat) % 2 ^ 64),
   (.scatter c d a b m sh iw, fun j => (base + idx j * 2 ^ sh.toNat) % 2 ^ 64)]

/-- The registers that hold the indices of a gather or scatter stand within V0 to V31, and V[D] is not among them (R225). -/
def IndexRegistersOk (x : Core) (d b : Fin 32) (iw : BitVec 2) : Prop :=
  let n := ceilDiv (x.vlmax * (8 * 2 ^ iw.toNat)) 128
  b.val + n ≤ 32 ∧ (d.val < b.val ∨ b.val + n ≤ d.val)

/-! ### Operations that leave the node (R264-R280) -/

/-- An operation is issued (R267, R275): it is recorded last, outstanding, under the next number and with the time of issue, and its packets
leave the node, unless the node is fenced (R385). -/
def Posts (s t : State) (o : OutOp) : Prop :=
  t.fab.ops = s.fab.ops ++ [o] ∧ o.id = s.fab.nextId ∧ o.st = .outstanding ∧ o.sentAt = s.now ∧ o.stamp = s.stamp ∧
  (s.flt.fenced = false → t.tx = s.tx ++ o.frames.map (fun p => { p with hdr := { p.hdr with retry := false, epoch := s.fab.epoch } }))

/-- The lines of a read that the remote-read cache does not hold; every line with NC 1 or the cache off is read as it is (R282). -/
def State.missing (s : State) (x : Node) (a n : Nat) : List Nat :=
  (rrcLines (raLaddr a) n).filter (fun l => (s.rrcGet x l).isNone)

/-! ### Memory-side operations (R249-R257, R269) -/

/-- The memory-side operations on plain elements (R250, R269): each row with its code and an element's new bits from its old bits and the
source's, in a format. -/
def plainRows (f : Fmt) (flush : Bool) : List ((MsSource → Instr) × Nat × (Nat → Nat → Nat)) :=
  let n := f.bits
  let ff := (f.ff).getD fp64
  [(.iadd, 0x01, fun old src => (old + src) % 2 ^ n),
   (.smin, 0x02, fun old src => if toSigned n src < toSigned n old then src else old),
   (.smax, 0x03, fun old src => if toSigned n old < toSigned n src then src else old),
   (.umin, 0x04, fun old src => min old src),
   (.umax, 0x05, fun old src => max old src),
   (.msideFmin, 0x06, fun old src => (ff.encode .rne flush (fMin (ff.decodeFlush flush old).1 (ff.decodeFlush flush src).1)).1),
   (.msideFmax, 0x07, fun old src => (ff.encode .rne flush (fMax (ff.decodeFlush flush old).1 (ff.decodeFlush flush src).1)).1),
   (.plainFadd, 0x08, fun old src => (ff.encodeX .rne flush (xAdd false (ff.decodeFlush flush old).1 (ff.decodeFlush flush src).1)).1),
   (.swap, 0x10, fun _ src => src)]

/-- The memory-side operations, each with its code (R250, R269). -/
def memorySideRows : List ((MsSource → Instr) × Nat) :=
  [(.iadd, 0x01), (.smin, 0x02), (.smax, 0x03), (.umin, 0x04), (.umax, 0x05), (.msideFmin, 0x06), (.msideFmax, 0x07), (.plainFadd, 0x08),
   (.aadd, 0x09), (.aclear, 0x0A), (.aread, 0x0B), (.recipe, 0x0C), (.swap, 0x10), (.cas, 0x11)]

/-- A memory-side command completes (R250): it applies its request, whether the request is given or is that of an outstanding operation of
a core, over memory that it may reach now, which then gets the status and the old values (R270). -/
def Applies (row : MsSource → Instr) (s : State) (q : MsReq) : Prop :=
  Answers (exec (row (.given q)) s) (s.applyMs q).1 ∧
  ∀ id o, s.op id = some o → o.req = some q → o.st = .outstanding → s.msFree o.accessor q = true →
    Answers (exec (row (.issued id)) s) ((s.applyMs q).1.coreAck o (s.applyMs q).2.status (s.applyMs q).2.fetched)

/-- The `n` bytes from `a` lie in the local HBM windows, at as many places of memory (R236), and none is poisoned or fenced. -/
def State.cleanHbm (s : State) (a n : Nat) : Prop :=
  s.inHbm a 1 = true ∧ s.inHbm a n = true ∧ s.poisonedIn a n = false ∧ s.mem.wf = true ∧ s.mem.upset = [] ∧
  ∀ i j, i < n → j < n → s.keyOf (a + i) = s.keyOf (a + j) → i = j

/-- Every byte of memory outside an extent is what it was. -/
def KeepsOutside (s t : State) (a n : Nat) : Prop :=
  ∀ key, (∀ i, i < n → key ≠ s.keyOf (a + i)) → t.mem.get key = s.mem.get key

/-! ### Frames that arrive (R277, R301, R304, R307, R385) -/

/-- This node takes a job frame of a rank: it is not fenced, the tag is its own, the sender is not departed, and job traffic is enabled. -/
def State.takesFrom (s : State) (rank : Nat) (p : Packet) : Prop :=
  s.flt.fenced = false ∧ p.hdr.jobTag = s.fab.jobTag ∧ s.goneRank rank p.hdr.epoch = false ∧ s.fab.enable = true

/-- This node takes a request of a rank: its epoch too is the node's own or the one before (R301), and while a Package reset waits for voted
hands only HSHOW, HFOLD and HQUERY are taken (R375, R378). -/
def State.takesRequestOf (s : State) (rank : Nat) (p : Packet) : Prop :=
  s.takesFrom rank p ∧ (p.hdr.epoch = s.fab.epoch ∨ p.hdr.epoch + 1 = s.fab.epoch) ∧
  (s.packageResetting = false ∨ p.hdr.kind = 0x0A ∨ p.hdr.kind = 0x0B ∨ p.hdr.kind = 0x0D)

/-- This node takes a request of the rank of its source slot. -/
def State.takesRequest (s : State) (p : Packet) : Prop := s.takesRequestOf (s.srcRank p) p

/-- An extent that a request from the fabric reaches now: neither staged (R291), nor of a Deck in reset (R377), nor over a channel or die link
that retrains (R247, R384). -/
def State.freeNow (s : State) (a n : Nat) : Prop := s.heldAt a n = false ∧ s.stagedHit a n = false ∧ s.shutAt .fdie a n = false

/-- The replay entry of a write (R275). -/
def State.replayOf (s : State) (p : Packet) : Option Replay :=
  s.fab.replay.find? (fun r => r.key = s.srcKey p ∧ r.tag = p.hdr.tag)

/-- Is a write held for a Deck in reset (R377)? -/
def State.heldWrite (s : State) (p : Packet) : Bool :=
  s.fab.heldOps.any (fun h => h.key == s.srcKey p && h.pkt.hdr.tag == p.hdr.tag)

/-- A replay entry of a source is recorded as the newest, and the answer is sent (R275, R277). -/
def State.recordsAndAnswers (u : State) (key : Nat) (p : Packet) (code : Nat) (fetched : List Byte) : State :=
  (u.onFab (fun f => { f with
    replay := replayAdd 4096 ⟨key, p.hdr.tag, BitVec.ofNat 8 code, fetched, u.now⟩ f.replay })).respond p 0x82 code fetched p.kh

end Sys2Proof.Machine
end

