-- ==== Sys2Proof/Certificates/Slice0/Obligations.lean ====
section
/-!
DEFINITION. Obligations.lean: the statements for the provers, family by family.
-/
open Sys2Proof Sys2Proof.Machine

/-! ### Dealer cores: integer instructions, branches and jumps -/

/-- R219, the register forms of MAJOR 0x00: results as integers, wrapped to 64 bits. A shift count of 64 or more gives a free value (log entry 6), and
DIV rounds toward zero with REM of the dividend's sign (log entry 15): those two are the model's. Nothing but G[D] and the pc changes, and G0 ignores
the write. R219: the bitwise and shift forms. R219: the immediate forms; IMM16 is signed, and a shift by IMM[5:0] is below 64. -/
def Obligations.IntegerAndImmediateResults : Prop :=
  (∀ (s : State) (c : Fin 192) (d a b : Fin 32), Issues s c →
    let x := (s.core c).gr a
    let y := (s.core c).gr b
    WritesG (.add c d a b) s c d (BitVec.ofInt 64 (x.toInt + y.toInt)) ∧
    WritesG (.sub c d a b) s c d (BitVec.ofInt 64 (x.toInt - y.toInt)) ∧
    WritesG (.mul c d a b) s c d (BitVec.ofInt 64 (x.toInt * y.toInt)) ∧
    WritesG (.mulhs c d a b) s c d (BitVec.ofInt 64 (x.toInt * y.toInt / 2 ^ 64)) ∧
    WritesG (.mulhu c d a b) s c d (BitVec.ofNat 64 (x.toNat * y.toNat / 2 ^ 64)) ∧
    WritesG (.div c d a b) s c d (if y = 0 then BitVec.allOnes 64 else BitVec.ofInt 64 (x.toInt.tdiv y.toInt)) ∧
    WritesG (.divu c d a b) s c d (if y = 0 then BitVec.allOnes 64 else BitVec.ofNat 64 (x.toNat / y.toNat)) ∧
    WritesG (.rem c d a b) s c d (if y = 0 then x else BitVec.ofInt 64 (x.toInt.tmod y.toInt)) ∧
    WritesG (.remu c d a b) s c d (if y = 0 then x else BitVec.ofNat 64 (x.toNat % y.toNat)) ∧
    WritesG (.slt c d a b) s c d (if x.toInt < y.toInt then 1 else 0) ∧
    WritesG (.sltu c d a b) s c d (if x.toNat < y.toNat then 1 else 0)) ∧
  (∀ (s : State) (c : Fin 192) (d a b : Fin 32), Issues s c →
    let x := (s.core c).gr a
    let y := (s.core c).gr b
    WritesG (.and c d a b) s c d (x &&& y) ∧
    WritesG (.or c d a b) s c d (x ||| y) ∧
    WritesG (.xor c d a b) s c d (x ^^^ y) ∧
    WritesG (.sll c d a b) s c d (if y.toNat < 64 then BitVec.ofNat 64 (x.toNat * 2 ^ y.toNat) else Config.shiftCorner 0 x y) ∧
    WritesG (.srl c d a b) s c d (if y.toNat < 64 then BitVec.ofNat 64 (x.toNat / 2 ^ y.toNat) else Config.shiftCorner 1 x y) ∧
    WritesG (.sra c d a b) s c d (if y.toNat < 64 then BitVec.ofInt 64 (x.toInt / 2 ^ y.toNat) else Config.shiftCorner 2 x y)) ∧
  (∀ (s : State) (c : Fin 192) (d a : Fin 32) (imm : BitVec 16) (sh : BitVec 6), Issues s c →
    let x := (s.core c).gr a
    WritesG (.addi c d a imm) s c d (BitVec.ofInt 64 (x.toInt + imm.toInt)) ∧
    WritesG (.andi c d a imm) s c d (x &&& BitVec.ofInt 64 imm.toInt) ∧
    WritesG (.ori c d a imm) s c d (x ||| BitVec.ofInt 64 imm.toInt) ∧
    WritesG (.xori c d a imm) s c d (x ^^^ BitVec.ofInt 64 imm.toInt) ∧
    WritesG (.slti c d a imm) s c d (if x.toInt < imm.toInt then 1 else 0) ∧
    WritesG (.slli c d a sh) s c d (BitVec.ofNat 64 (x.toNat * 2 ^ sh.toNat)) ∧
    WritesG (.srli c d a sh) s c d (BitVec.ofNat 64 (x.toNat / 2 ^ sh.toNat)) ∧
    WritesG (.srai c d a sh) s c d (BitVec.ofInt 64 (x.toInt / 2 ^ sh.toNat)) ∧
    WritesG (.lui c d imm) s c d (BitVec.ofInt 64 (imm.toInt * 2 ^ 16)))

/-- R219: branches go to PC + 4·IMM where their comparison holds and to the next word otherwise; jumps go to PC + 4·OFFSET or to G[A]; JAL and JALR
link G31 (JALR's link register is the model's reading, log entry 15). -/
def Obligations.BranchesAndJumpsGoWhereTheySay : Prop :=
  ∀ (s : State) (c : Fin 192) (d a : Fin 32) (imm : BitVec 16) (off : BitVec 26), Issues s c →
    let x := s.core c
    let lands (p : Prop) [Decidable p] : BitVec 64 := if p then BitVec.ofInt 64 (x.pc.toInt + 4 * imm.toInt) else x.pc + 4
    let far : BitVec 64 := BitVec.ofInt 64 (x.pc.toInt + 4 * off.toInt)
    Jumps (.beq c d a imm) s c (lands (x.gr d = x.gr a)) ∧
    Jumps (.bne c d a imm) s c (lands (x.gr d ≠ x.gr a)) ∧
    Jumps (.blt c d a imm) s c (lands ((x.gr d).toInt < (x.gr a).toInt)) ∧
    Jumps (.bge c d a imm) s c (lands ((x.gr d).toInt ≥ (x.gr a).toInt)) ∧
    Jumps (.bltu c d a imm) s c (lands ((x.gr d).toNat < (x.gr a).toNat)) ∧
    Jumps (.bgeu c d a imm) s c (lands ((x.gr d).toNat ≥ (x.gr a).toNat)) ∧
    Jumps (.jmp c off) s c far ∧
    Jumps (.jr c a) s c (x.gr a) ∧
    Leaves (.jal c off) s (s.onCore c (fun y => (y.setG 31 (y.pc + 4)).goesTo far)) ∧
    Leaves (.jalr c a) s (s.onCore c (fun y => (y.setG 31 (y.pc + 4)).goesTo (x.gr a)))

/-! ### Dealer cores: registers, traps, loads and stores -/

/-- R214: G0 and K0 are hard-wired. R215: Fn is the low half of Vn, whatever VTYPE holds; a scalar floating-point instruction that writes Fn clears
the high half, and a binary32 result stands in the low 32 bits with the rest zero. -/
def Obligations.HardwiredAndAliasedRegisters : Prop :=
  (∀ (x : Core) (n m : Fin 32) (i j : Fin 8) (v : BitVec 64) (k : BitVec 16) (vt : BitVec 8),
    (x.setG n v).gr m = (if m = 0 then 0 else if m = n then v else x.gr m) ∧
    (x.setK i k).kr j = (if j = 0 then 0xFFFF else if j = i then k else x.kr j) ∧
    ({ x with vtype := vt }.fr n).toNat = x.v[n].toNat % 2 ^ 64 ∧
    ((x.setF n v).v[m]).toNat = (if m = n then v.toNat else (x.v[m]).toNat)) ∧
  ∀ (s : State) (c : Fin 192) (d a b : Fin 32) (code : Fin 32) (single : Bool), Issues s c →
    ∀ i ∈ [Instr.fadd c d a b single, .fsub c d a b single, .fmul c d a b single, .ffma c d a b single, .fdiv c d a b single, .fsqrt c d a single,
        .fmin c d a b single, .fmax c d a b single, .itof c d a single, .fmvf c d a single] ++
        (if (fcvtSource code.val).isSome then [.fcvt c d a code single] else []),
      Completes i s (fun t => ((t.core c).v[d]).toNat < 2 ^ (if single then 32 else 64))

/-- R218: a trap sets EPC, CAUSE and PC and leaves everything else; with TVEC 0 the core halts instead, keeps its PC, and sets DLR_ERR.UNHANDLED.
(POISON, cause 5, produces an error record as well, and is not this statement's. That the core keeps its PC is DEDUCED, log entry 15.) R218, R475: a
scalar access that is not aligned to its size traps ALIGN; where there is no memory at its address, ADDR; where the memory is outside the attached
regions, PERM; a load of poisoned bytes, POISON: each with the effect of the trap alone. (Which cause stands where several hold, as ALIGN before
ADDR, is DEDUCED too: log entry 15.) -/
def Obligations.TrapsSaveRedirectAndComeInOrder : Prop :=
  (∀ (s : State) (c : Fin 192) (cause : Nat), cause ≠ 5 →
    ((s.core c).tvec ≠ 0 → s.trap c cause = s.onCore c (fun x => { x with
      epc := x.pc, cause := BitVec.ofNat 16 cause, pc := x.tvec, stall := none, faulted := false
      halted := x.halted || (!x.runBit && x.haltingSince.isNone) })) ∧
    ((s.core c).tvec = 0 →
      (s.trap c cause).core c = { s.core c with
        epc := (s.core c).pc, cause := BitVec.ofNat 16 cause, stall := none, faulted := false
        halted := true, trapped := true, err := (s.core c).err ||| 1 } ∧
      (s.trap c cause).mem = s.mem ∧ ∀ e, e ≠ c → (s.trap c cause).core e = s.core e)) ∧
  (∀ (s : State) (c : Fin 192) (d a : Fin 32) (imm : BitVec 16), Issues s c →
    let ad := ((s.core c).gr a + BitVec.ofInt 64 imm.toInt).toNat
    let rows := (scalarLoads c d a imm).map (fun l => (l.row, l.size)) ++ (scalarStores c d a imm (s.core c)).map (fun r => (r.1, r.2.1))
    (∀ r ∈ rows, ad % r.2 ≠ 0 → Answers (exec r.1 s) (s.trap c 2)) ∧
    (∀ r ∈ rows, ad % r.2 = 0 → ad < 0x0F00_0000_0000 → s.storeOfExtent ad r.2 = none → Answers (exec r.1 s) (s.trap c 3)) ∧
    (∀ r ∈ rows, ∀ k, ad % r.2 = 0 → ad < 0x0F00_0000_0000 → s.storeOfExtent ad r.2 = some k → k.plain = true →
      s.attachedExtent ad r.2 = false → Answers (exec r.1 s) (s.trap c 4)) ∧
    (∀ l ∈ scalarLoads c d a imm, (∃ k, s.locate false ad l.size = .ok (.mem k)) → s.accessNow c false ad l.size = true →
      (s.settle ad l.size).poisonedIn ad l.size = true → Leaves l.row s ((s.settle ad l.size).trap c 5)))

/-- R4, R219: a load of local memory puts the little-endian number at G[A] + IMM into its register, sign-extended by LD32, LD16 and LD8 and
zero-extended by the others, and changes nothing else; the transfers it reads are decoded first (R242). R219: a store to plain local memory leaves the
low bytes of its register at G[A] + IMM, little-endian, and moves its core on: the byte at every other key of memory is what it was once the transfers
that the store meets are decoded (R242, R243), no other register and no other core changes. A byte of a fenced channel is not stored (R248). Memory is
in its canonical form, which every step keeps. -/
def Obligations.ScalarLoadsAndStoresMoveTheirBytes : Prop :=
  (∀ (s : State) (c : Fin 192) (d a : Fin 32) (imm : BitVec 16), Issues s c →
    let ad := ((s.core c).gr a + BitVec.ofInt 64 imm.toInt).toNat
    ∀ l ∈ scalarLoads c d a imm, ReadsMemory s c ad l.size →
      Leaves l.row s ((s.settle ad l.size).coreRuns c (l.put d ((s.settle ad l.size).wordAt ad l.size)))) ∧
  (∀ (s : State) (c : Fin 192) (d a : Fin 32) (imm : BitVec 16), Issues s c → s.mem.wf = true →
    let ad := ((s.core c).gr a + BitVec.ofInt 64 imm.toInt).toNat
    ∀ r ∈ scalarStores c d a imm (s.core c), WritesMemory s c ad r.2.1 →
      Leaves r.1 s ((s.writeMem ad (leBytes r.2.1 r.2.2.toNat)).coreRuns c id) ∧
      Completes r.1 s (fun t =>
        (∀ i, i < r.2.1 → s.fencedKey (s.keyOf (ad + i)) = false →
          t.mem.get (s.keyOf (ad + i)) = BitVec.ofNat 8 (r.2.2.toNat / 256 ^ i)) ∧
        (∀ key, (∀ i, i < r.2.1 → key ≠ s.keyOf (ad + i)) → t.mem.get key = (s.freshLines ad r.2.1).mem.get key)))

/-! ### Dealer cores: floating point and system instructions -/

/-- R66, R85, R215 to R217: FADD to FMAX take their operands under ACR.FLUSH, form the exact result, round it once by ACR.RM into binary64 or binary32
(FUNCT[7]), write it to F[D] with V[D][127:64] cleared, and OR the bits of FFLAGS that the operands and the rounding give; nothing else changes.
FFMA's addend is F[D]. (What FMIN and FMAX give for NaN and zeros is R144's, log entry 15.) R85, R215 to R217, R219: comparisons write 1 or 0 to G[D],
and 0 where an operand is a NaN; FCVT converts the low bits of F[A] from the format with its code; FTOI rounds, saturates and takes a NaN to 0; ITOF
converts a signed number; FMVG and FMVF move bits. (FTOI's and ITOF's width, and what FMVF moves in its binary32 form, are the model's readings, log
entry 15.) -/
def Obligations.ScalarFloatingPointComparesAndConverts : Prop :=
  (∀ (s : State) (c : Fin 192) (d a b : Fin 32) (single : Bool), Issues s c →
    let x := s.core c
    let f := if single then fp32 else fp64
    let arg (n : Fin 32) : FVal × Nat := f.operand x.flush (x.fr n).toNat
    let out (v : XVal) (fl : Nat) : State := s.coreRuns c (fun y =>
      (y.setF d (BitVec.ofNat 64 (f.dealer x.rnd x.flush v).1)).orFlags ((f.dealer x.rnd x.flush v).2 ||| fl))
    let both : Nat := (arg a).2 ||| (arg b).2
    Leaves (.fadd c d a b single) s (out (xAdd x.down (arg a).1 (arg b).1) both) ∧
    Leaves (.fsub c d a b single) s (out (xAdd x.down (arg a).1 (arg b).1.negate) both) ∧
    Leaves (.fmul c d a b single) s (out (xMul (arg a).1 (arg b).1) both) ∧
    Leaves (.ffma c d a b single) s (out (xFma x.down (arg a).1 (arg b).1 (arg d).1) (both ||| (arg d).2)) ∧
    Leaves (.fdiv c d a b single) s (out (xDiv (arg a).1 (arg b).1) both) ∧
    Leaves (.fsqrt c d a single) s (out (xSqrt (arg a).1) (arg a).2) ∧
    Leaves (.fmin c d a b single) s (out (.of (fMin (arg a).1 (arg b).1)) both) ∧
    Leaves (.fmax c d a b single) s (out (.of (fMax (arg a).1 (arg b).1)) both)) ∧
  (∀ (s : State) (c : Fin 192) (d a b : Fin 32) (code : Fin 32) (single : Bool), Issues s c →
    let x := s.core c
    let f := if single then fp32 else fp64
    let arg (n : Fin 32) : FVal × Nat := f.operand x.flush (x.fr n).toNat
    let both : Nat := (arg a).2 ||| (arg b).2
    let cmp (p : Bool) : State := s.coreRuns c (fun y => (y.setG d (if p then 1 else 0)).orFlags both)
    let toF (v : FVal) (fl : Nat) : State := s.coreRuns c (fun y =>
      (y.setF d (BitVec.ofNat 64 (f.dealer x.rnd x.flush (.of v)).1)).orFlags ((f.dealer x.rnd x.flush (.of v)).2 ||| fl))
    let int : Nat × Nat := dealerInt true 64 x.rnd (arg a).1
    Leaves (.feq c d a b single) s (cmp ((arg a).1.eqv (arg b).1)) ∧
    Leaves (.flt c d a b single) s (cmp ((arg a).1.lt (arg b).1)) ∧
    Leaves (.fle c d a b single) s (cmp ((arg a).1.le (arg b).1)) ∧
    (∀ g, fcvtSource code.val = some g →
      let v := g.decode x.flush ((x.fr a).toNat % 2 ^ g.bits)
      Leaves (.fcvt c d a code single) s (toF v.1 (if v.2 then 4 else 0))) ∧
    (fcvtSource code.val = none → Answers (exec (.fcvt c d a code single) s) (s.trap c 1)) ∧
    Leaves (.ftoi c d a single) s (s.coreRuns c (fun y => (y.setG d (BitVec.ofNat 64 int.1)).orFlags (int.2 ||| (arg a).2))) ∧
    Leaves (.itof c d a single) s (toF (decodeInt 64 (x.gr a).toNat) 0) ∧
    Leaves (.fmvg c d a single) s (s.coreRuns c (Core.setG d (x.fr a))) ∧
    Leaves (.fmvf c d a single) s (s.coreRuns c (Core.setF d (if single then BitVec.ofNat 64 ((x.gr a).toNat % 2 ^ 32) else x.gr a))))

/-- R55, R70: rounding a value that a binary64, binary32, binary16 or BF16 number holds gives that number's encoding, exactly, in every mode. -/
def Obligations.RepresentableValuesRoundToThemselves : Prop :=
  ∀ (f : FFmt), f ∈ [fp64, fp32, fp16, bf16] → ∀ (m : Rnd) (bits : Nat) (neg : Bool) (mag : Nat) (e : Int), bits < 2 ^ f.width →
    (f.decode bits = .fin neg mag e) →
      (f.roundRat m false neg mag 1 e).bits = bits ∧ (f.roundRat m false neg mag 1 e).inexact = false ∧
      (f.roundRat m false neg mag 1 e).overflow = false

/-- R216, R218, R219: RDCYC, RDCAD, RDACR and RDFLAGS read their register into G[D]; WRACR and WRFLAGS keep the fields and no reserved bit; WRTVEC
sets TVEC; TRAPRET resumes at EPC; BRK traps with cause 7. R219: a word of an unlisted MAJOR, or of an unlisted FUNCT of the integer, jump, system and
vector memory groups, traps ILLEGAL; D, A, B, the immediate and the offset of the four formats stand at their places. -/
def Obligations.SystemInstructionsAndInstructionWords : Prop :=
  ∀ (s : State) (c : Fin 192) (d a : Fin 32) (w : BitVec 32), Issues s c →
    let x := s.core c
    (let major := w.toNat / 2 ^ 26
     let funct := w.toNat % 256
     let D : Fin 32 := Fin.ofNat 32 (w.toNat / 2 ^ 21)
     let A : Fin 32 := Fin.ofNat 32 (w.toNat / 2 ^ 16)
     let B : Fin 32 := Fin.ofNat 32 (w.toNat / 2 ^ 11)
     let spells (i : Instr) : Prop := s.runWord c w = exec i s
     (major ∈ [0x0F, 0x22, 0x23, 0x25, 0x26, 0x27, 0x2C] ∨ 0x30 ≤ major ∨ (major = 0x00 ∧ 0x10 < funct) ∨ (major = 0x20 ∧ 0x01 < funct) ∨
       (major = 0x24 ∧ 0x09 < funct) ∨ (major = 0x2E ∧ (funct % 16 ∈ [7, 8, 9, 10, 11, 12, 13, 14] ∨ (funct % 16 ∈ [0, 1, 2, 3, 15] ∧ 16 ≤ funct))) →
       Answers (s.runWord c w) (s.trap c 1)) ∧
     (major = 0x00 → funct = 0x01 → spells (.sub c D A B)) ∧ (major = 0x01 → spells (.addi c D A (w.setWidth 16))) ∧
     (major = 0x18 → spells (.beq c D A (w.setWidth 16))) ∧ (major = 0x1E → spells (.jmp c (w.setWidth 26))) ∧
     (major = 0x2F → spells (.setvl c D A (w.getLsbD 15) (w.setWidth 8)))) ∧
    WritesG (.rdcyc c d) s c d x.cycle ∧
    WritesG (.rdcad c d) s c d (BitVec.ofNat 64 (s.cad.count.toNat * 65536 + s.cad.phase)) ∧
    WritesG (.rdacr c d) s c d x.acr ∧
    WritesG (.rdflags c d) s c d x.fflags ∧
    Leaves (.wracr c a) s (s.coreRuns c (fun y => { y with acr := BitVec.ofNat 64 ((x.gr a).toNat % 8) })) ∧
    Leaves (.wrflags c a) s (s.coreRuns c (fun y => { y with fflags := BitVec.ofNat 64 ((x.gr a).toNat % 256) })) ∧
    Leaves (.wrtvec c a) s (s.coreRuns c (fun y => { y with tvec := x.gr a })) ∧
    Jumps (.trapret c) s c x.epc ∧
    Answers (exec (.brk c) s) (s.trap c 7)

/-- R280: a FENCE is issued and waits; it does not complete while an operation that its core issued is outstanding; it completes with 0 in G[D] when
all are acknowledged and with 1 when one is unknown, then with the unknown list at G[A] where that is not G0. (While the way between the core and the
F-die, or to the list, retrains, it waits: R384.) -/
def Obligations.FenceCompletesOnlyWhenAllAreDecided : Prop :=
  ∀ (s : State) (c : Fin 192) (d a : Fin 32), s.serves = true →
    (s.coreIssues c = true →
      Leaves (.fence c d a) s (s.onCore c (fun x => { x with stall := some (.fence d.val (if a = 0 then none else some (x.gr a).toNat)) }))) ∧
    (∀ list, (s.core c).stall = some (.fence d.val list) → s.coreInReset c = false →
      let mine := s.fab.ops.filter (fun o => o.core == some c)
      let unk := mine.filter OutOp.isUnknown
      let rest (u : State) : State := u.onFab (fun f => { f with ops :=
        (f.ops.filter (fun o => !(o.core == some c && !o.isUnknown))).map (fun o => if o.core = some c then { o with core := none } else o) })
      let done (u : State) (v : BitVec 64) : State := (rest u).coreRuns c (fun x => ({ x with stall := none }).setG d v)
      ((∃ o ∈ mine, o.st = .outstanding) → Answers (exec (.fenceComplete c) s) s) ∧
      ((∀ o ∈ mine, o.st ≠ .outstanding) → s.fenceShut c list = false →
        (unk = [] → Leaves (.fenceComplete c) s (done s 0)) ∧
        (unk ≠ [] → list = none → Leaves (.fenceComplete c) s (done s 1)) ∧
        (∀ l, unk ≠ [] → list = some l → s.accessFault 64 l (unknownList unk).length = none →
          Leaves (.fenceComplete c) s (done (s.putLocal l (unknownList unk)) 1))))

/-! ### Dealer-V -/

/-- R220, R221: SETVL takes the VTYPE combinations that R221 permits, sets VL to the smaller of G[A] and VLMAX = 128/SEW, and writes it to G[D]; every
other combination traps ILLEGAL. (A core that halts under HALT_AT_SAFE does not pass one with SAFE 1: R231.) R221, R222: arithmetic, comparisons and
reductions trap ILLEGAL under KIND 4 or 5; division and square root under any kind but IEEE and BF16; the bitwise operations and shifts under any but
the integer kinds; VSAD and VSADA under anything but KIND 0 with SEW 8 or 16. -/
def Obligations.SetvlSetsVectorLengthAndKind : Prop :=
  (∀ (s : State) (c : Fin 192) (d a : Fin 32) (safe : Bool) (vt : BitVec 8), Issues s c →
    (safe = true → (s.core c).haltingSince = none) →
    let kind := vt.toNat / 4 % 8
    let bits := 8 * 2 ^ (vt.toNat % 4)
    let permitted := kind ≤ 5 ∧ (kind = 2 → bits ≠ 8) ∧ (kind = 3 → bits = 16) ∧ (4 ≤ kind → bits = 8)
    let vl := min ((s.core c).gr a).toNat (128 / bits)
    (permitted → Leaves (.setvl c d a safe vt) s (s.coreRuns c (fun x =>
      ({ x with vtype := BitVec.ofNat 8 (vt.toNat % 32), vl := BitVec.ofNat 5 vl }).setG d (BitVec.ofNat 64 vl)))) ∧
    (¬ permitted → Answers (exec (.setvl c d a safe vt) s) (s.trap c 1))) ∧
  (∀ (s : State) (c : Fin 192) (d a b : Fin 32) (m : Fin 8), Issues s c →
    let kind := vtKind (s.core c).vtype.toNat
    let ill (i : Instr) : Prop := Answers (exec i s) (s.trap c 1)
    (4 ≤ kind → ill (.vadd c d a b m) ∧ ill (.vsub c d a b m) ∧ ill (.vmul c d a b m) ∧ ill (.vfma c d a b m) ∧ ill (.vmin c d a b m) ∧
      ill (.vmax c d a b m) ∧ ill (.vcmpeq c d a b m) ∧ ill (.vcmplt c d a b m) ∧ ill (.vcmple c d a b m) ∧ ill (.vredsum c d a b m) ∧
      ill (.vredmax c d a b m)) ∧
    (kind ≠ 2 ∧ kind ≠ 3 → ill (.vdiv c d a b m) ∧ ill (.vsqrt c d a m)) ∧
    (2 ≤ kind → ill (.vand c d a b m) ∧ ill (.vor c d a b m) ∧ ill (.vxor c d a b m) ∧ ill (.vsll c d a b m) ∧ ill (.vsrl c d a b m) ∧
      ill (.vsra c d a b m)) ∧
    (kind ≠ 0 ∨ 16 < (s.core c).sew → ill (.vsad c d a b m) ∧ ill (.vsada c d a b m)))

/-- R219, R222: Dealer-V arithmetic on integer kinds: each element below VL whose mask bit is 1 becomes the exact result modulo 2^SEW. R217, R222:
Dealer-V arithmetic on IEEE and BF16 kinds: each element below VL whose mask bit is 1 is one operation on operands taken under ACR.FLUSH, rounded once
by ACR.RM, with its bits of FFLAGS. -/
def Obligations.VectorElementsTakeTheirResults : Prop :=
  (∀ (s : State) (c : Fin 192) (d a b : Fin 32) (m : Fin 8), Issues s c → vtKind (s.core c).vtype.toNat ≤ 1 →
    let x := s.core c
    let on := (List.range (min x.vl.toNat x.vlmax)).filter (fun j => (x.kr m).getLsbD j)
    let bit (r : Fin 32) (j : Nat) : Nat := vElem (x.vr r) x.sew j
    let num (r : Fin 32) (j : Nat) : Int := x.num (bit r j)
    let by_ (j : Nat) : Nat := bit b j % x.sew
    Elements (.vadd c d a b m) s c d on (fun j => x.wrap (num a j + num b j)) ∧
    Elements (.vsub c d a b m) s c d on (fun j => x.wrap (num a j - num b j)) ∧
    Elements (.vmul c d a b m) s c d on (fun j => x.wrap (num a j * num b j)) ∧
    Elements (.vfma c d a b m) s c d on (fun j => x.wrap (num a j * num b j + num d j)) ∧
    Elements (.vmin c d a b m) s c d on (fun j => x.wrap (min (num a j) (num b j))) ∧
    Elements (.vmax c d a b m) s c d on (fun j => x.wrap (max (num a j) (num b j))) ∧
    Elements (.vand c d a b m) s c d on (fun j => (bit a j &&& bit b j, 0)) ∧
    Elements (.vor c d a b m) s c d on (fun j => (bit a j ||| bit b j, 0)) ∧
    Elements (.vxor c d a b m) s c d on (fun j => (bit a j ^^^ bit b j, 0)) ∧
    Elements (.vsll c d a b m) s c d on (fun j => (bit a j * 2 ^ by_ j, 0)) ∧
    Elements (.vsrl c d a b m) s c d on (fun j => (bit a j / 2 ^ by_ j, 0)) ∧
    Elements (.vsra c d a b m) s c d on (fun j => x.wrap (toSigned x.sew (bit a j) / 2 ^ by_ j))) ∧
  (∀ (s : State) (c : Fin 192) (d a b : Fin 32) (m : Fin 8) (f : FFmt), Issues s c →
    vtOk (s.core c).vtype.toNat = true → vtKind (s.core c).vtype.toNat = 2 ∨ vtKind (s.core c).vtype.toNat = 3 → (s.core c).el = .flt f →
    let x := s.core c
    let on := (List.range (min x.vl.toNat x.vlmax)).filter (fun j => (x.kr m).getLsbD j)
    let arg (r : Fin 32) (j : Nat) : FVal × Nat := f.operand x.flush (vElem (x.vr r) x.sew j)
    let rnd (v : XVal) (fl : Nat) : Nat × Nat := ((f.dealer x.rnd x.flush v).1, (f.dealer x.rnd x.flush v).2 ||| fl)
    let both (j : Nat) : Nat := (arg a j).2 ||| (arg b j).2
    Elements (.vadd c d a b m) s c d on (fun j => rnd (xAdd x.down (arg a j).1 (arg b j).1) (both j)) ∧
    Elements (.vsub c d a b m) s c d on (fun j => rnd (xAdd x.down (arg a j).1 (arg b j).1.negate) (both j)) ∧
    Elements (.vmul c d a b m) s c d on (fun j => rnd (xMul (arg a j).1 (arg b j).1) (both j)) ∧
    Elements (.vfma c d a b m) s c d on (fun j => rnd (xFma x.down (arg a j).1 (arg b j).1 (arg d j).1) (both j ||| (arg d j).2)) ∧
    Elements (.vdiv c d a b m) s c d on (fun j => rnd (xDiv (arg a j).1 (arg b j).1) (both j)) ∧
    Elements (.vsqrt c d a m) s c d on (fun j => rnd (xSqrt (arg a j).1) (arg a j).2) ∧
    Elements (.vmin c d a b m) s c d on (fun j => rnd (.of (fMin (arg a j).1 (arg b j).1)) (both j)) ∧
    Elements (.vmax c d a b m) s c d on (fun j => rnd (.of (fMax (arg a j).1 (arg b j).1)) (both j)))

/-- R222: VSEL writes every element below VL, from V[A] where its bit of K[M] is 1 and from V[B] elsewhere; VSPLAT and VMV write the elements below VL
whose mask bit is 1; VCVT converts them from the format of its code, read out of as many registers as it takes. R222: the comparisons write the bits
of K[D[2:0]] of the elements below VL whose mask bit is 1, and no other bit; K0 ignores the write; a NaN gives 0. -/
def Obligations.VectorMovesConversionsAndComparisons : Prop :=
  (∀ (s : State) (c : Fin 192) (d a b : Fin 32) (m : Fin 8) (code : Fin 32) (g : Fmt), Issues s c →
    vtOk (s.core c).vtype.toNat = true →
    let x := s.core c
    let below := List.range (min x.vl.toNat x.vlmax)
    let on := below.filter (fun j => (x.kr m).getLsbD j)
    Elements (.vsel c d a b m) s c d below (fun j => (vElem (if (x.kr m).getLsbD j then x.vr a else x.vr b) x.sew j, 0)) ∧
    Elements (.vsplat c d a m) s c d on (fun _ => ((if vtKind x.vtype.toNat ≤ 1 then x.gr a else x.fr a).toNat, 0)) ∧
    Elements (.vmv c d a m) s c d on (fun j => (vElem (x.vr a) x.sew j, 0)) ∧
    (vcvtSource code.val = some g →
      let n := ceilDiv (x.vlmax * g.bits) 128
      let v (j : Nat) : FVal × Bool := g.decode x.flush (x.wide a n / 2 ^ (g.bits * j) % 2 ^ g.bits)
      let r (j : Nat) : Nat × Nat := match x.el with
        | .int signed => dealerInt signed x.sew x.rnd (v j).1
        | .flt f => f.dealer x.rnd x.flush (.of (v j).1)
      (a.val + n ≤ 32 ∧ (d.val ≤ a.val ∨ a.val + n ≤ d.val) →
        Elements (.vcvt c d a code m) s c d on (fun j => ((r j).1, (r j).2 ||| (if (v j).2 then 4 else 0)))) ∧
      (¬ (a.val + n ≤ 32 ∧ (d.val ≤ a.val ∨ a.val + n ≤ d.val)) → Answers (exec (.vcvt c d a code m) s) (s.trap c 1)))) ∧
  (∀ (s : State) (c : Fin 192) (d a b : Fin 32) (m : Fin 8), Issues s c →
    vtOk (s.core c).vtype.toNat = true → vtKind (s.core c).vtype.toNat ≤ 3 →
    let x := s.core c
    let on := (List.range (min x.vl.toNat x.vlmax)).filter (fun j => (x.kr m).getLsbD j)
    let k : Fin 8 := Fin.ofNat 8 d.val
    let el (r : Fin 32) (j : Nat) : Nat := vElem (x.vr r) x.sew j
    let bits (i : Instr) (p : Nat → Bool × Nat) : Prop := ∃ (y : BitVec 16) (fl : Nat),
      Leaves i s (s.coreRuns c (fun z => (z.setK k y).orFlags fl)) ∧
      (∀ j, j < 16 → y.getLsbD j = if j ∈ on then (p j).1 else (x.kr k).getLsbD j) ∧
      (∀ n, fl.testBit n = true ↔ ∃ j ∈ on, (p j).2.testBit n = true)
    bits (.vcmpeq c d a b m) (fun j => x.elCmp (fun p q => p == q) FVal.eqv (el a j) (el b j)) ∧
    bits (.vcmplt c d a b m) (fun j => x.elCmp (fun p q => decide (p < q)) FVal.lt (el a j) (el b j)) ∧
    bits (.vcmple c d a b m) (fun j => x.elCmp (fun p q => decide (p ≤ q)) FVal.le (el a j) (el b j)) ∧
    (∀ (int : Int → Int → Bool) (f : FFmt), x.el = .flt f →
      ∀ u w, (f.operand x.flush u).1 = .nan ∨ (f.operand x.flush w).1 = .nan →
        (x.elCmp int FVal.eqv u w).1 = false ∧ (x.elCmp int FVal.lt u w).1 = false ∧ (x.elCmp int FVal.le u w).1 = false))

/-- R223: VSAD and VSADA run under KIND 0 with SEW 8 or 16, and trap ILLEGAL under any other; VSAD writes to each lane that holds an element below VL
the sum of |a − b| over the lane's unmasked elements below VL; VSADA adds that sum to the lane's word modulo 2^64; the other lane keeps its word. -/
def Obligations.VsadWritesTheSumOfAbsoluteDifferences : Prop :=
  ∀ (s : State) (c : Fin 192) (d a b : Fin 32) (m : Fin 8), Issues s c →
    let x := s.core c
    let below := List.range (min x.vl.toNat x.vlmax)
    let lane (l : Nat) (j : Nat) : Bool := x.sew * j / 64 == l
    let diff (j : Nat) : Nat := ((vElem (x.vr a) x.sew j : Int) - (vElem (x.vr b) x.sew j : Int)).natAbs
    let sum (l : Nat) : Nat := ((below.filter (fun j => lane l j && (x.kr m).getLsbD j)).map diff).sum
    let lanes (i : Instr) (old : Nat → Nat) : Prop := ∃ v : BitVec 128, Leaves i s (s.coreRuns c (Core.setV d v)) ∧
      ∀ l, l < 2 → vElem v 64 l = if below.any (lane l) then (old l + sum l) % 2 ^ 64 else vElem (x.vr d) 64 l
    let runs := vtKind x.vtype.toNat = 0 ∧ x.sew ≤ 16
    (runs → lanes (.vsad c d a b m) (fun _ => 0) ∧ lanes (.vsada c d a b m) (fun l => vElem (x.vr d) 64 l)) ∧
    (¬ runs → Answers (exec (.vsad c d a b m) s) (s.trap c 1) ∧ Answers (exec (.vsada c d a b m) s) (s.trap c 1))

/-- R224: a reduction sets element 0 of V[D] to element 0 of V[B] joined, in increasing index, with the unmasked elements of V[A] below VL, each join
an operation of its own; the other elements of V[D] keep their values. -/
def Obligations.ReductionsJoinInIncreasingIndex : Prop :=
  ∀ (s : State) (c : Fin 192) (d a b : Fin 32) (m : Fin 8), Issues s c →
    vtOk (s.core c).vtype.toNat = true → vtKind (s.core c).vtype.toNat ≤ 3 →
    let x := s.core c
    let on := (List.range (min x.vl.toNat x.vlmax)).filter (fun j => (x.kr m).getLsbD j)
    let join (op : Nat → Nat → Nat × Nat) : Nat × Nat :=
      on.foldl (fun acc j => ((op acc.1 (vElem (x.vr a) x.sew j)).1, acc.2 ||| (op acc.1 (vElem (x.vr a) x.sew j)).2))
        (vElem (x.vr b) x.sew 0, 0)
    Elements (.vredsum c d a b m) s c d [0] (fun _ => join x.elAdd) ∧ Elements (.vredmax c d a b m) s c d [0] (fun _ => join x.elMax)

/-- R225, R226: a Dealer-V load whose active elements are all local memory that may be read puts the little-endian bytes at each element's address
into that element of V[D], and nothing into the others; a store leaves each active element's bytes at its address, in increasing index. (No symbol
error stands in memory.) -/
def Obligations.VectorMemoryAccessesActiveElements : Prop :=
  ∀ (s : State) (c : Fin 192) (d a b : Fin 32) (m : Fin 8) (sh iw : BitVec 2), Issues s c → vtOk (s.core c).vtype.toNat = true →
    s.mem.upset = [] →
    let x := s.core c
    let z := x.sew / 8
    let on := (List.range (min x.vl.toNat x.vlmax)).filter (fun j => (x.kr m).getLsbD j)
    (∀ r ∈ vectorLoads c d a b m sh iw x, (r.1 = .vld c d a m ∨ r.1 = .vlds c d a b m ∨ IndexRegistersOk x d b iw) →
      (∀ j ∈ on, ReadsMemory s c (r.2 j) z) → Elements r.1 s c d on (fun j => (s.wordAt (r.2 j) z, 0))) ∧
    (∀ r ∈ vectorStores c d a b m sh iw x, (r.1 = .vst c d a m ∨ r.1 = .vsts c d a b m ∨ IndexRegistersOk x d b iw) →
      (∀ j ∈ on, WritesMemory s c (r.2 j) z) →
      Leaves r.1 s ((on.foldl (fun u j => u.writeMem (r.2 j) (leBytes z (vElem (x.vr d) x.sew j))) s).coreRuns c id))

/-- R227: where element f is the first that faults, the elements below it have completed and none above it is written or accessed: the instruction
traps with VFAULT f and VFADDR its address, but GATHERFF above element 0 traps nothing and sets VL to f. (R227 speaks of an address fault: that every
cause of an access but POISON cuts VL so is DEDUCED, log entry 15.) POISON traps at any element of every load, GATHERFF included. A store that
faults at element f has stored the elements below it and no other. -/
def Obligations.VectorFaultStopsAtItsElement : Prop :=
  ∀ (s : State) (c : Fin 192) (d a b : Fin 32) (m : Fin 8) (sh iw : BitVec 2) (f cause : Nat), Issues s c →
    vtOk (s.core c).vtype.toNat = true → s.mem.upset = [] →
    let x := s.core c
    let z := x.sew / 8
    let on := (List.range (min x.vl.toNat x.vlmax)).filter (fun j => (x.kr m).getLsbD j)
    let done := on.filter (fun j => decide (j < f))
    let trapped (u : State) (addr : Nat) (why : Nat) : State := (u.onCore c (fun y =>
      { y with vfault := BitVec.ofNat 16 f, vfaddr := BitVec.ofNat 64 addr })).trap c why
    f ∈ on → (∀ r ∈ vectorLoads c d a b m sh iw x, (r.1 = .vld c d a m ∨ r.1 = .vlds c d a b m ∨ IndexRegistersOk x d b iw) →
      (∀ j ∈ done, ReadsMemory s c (r.2 j) z) →
      ∃ v : BitVec 128,
        (∀ j, j < x.vlmax → vElem v x.sew j = if j ∈ done then s.wordAt (r.2 j) z else vElem (x.vr d) x.sew j) ∧
        (s.locate false (r.2 f) z = .error cause →
          if r.1 = .gatherff c d a b m sh iw ∧ f ≠ 0 then
            Leaves r.1 s (s.coreRuns c (fun y => { y.setV d v with vl := BitVec.ofNat 5 f }))
          else Leaves r.1 s (trapped (s.onCore c (Core.setV d v)) (r.2 f) cause)) ∧
        ((∀ j ∈ on, f ≤ j → (∃ k, s.locate false (r.2 j) z = .ok (.mem k)) ∧ s.accessNow c false (r.2 j) z = true) →
          s.poisonedIn (r.2 f) z = true → Leaves r.1 s (trapped (s.onCore c (Core.setV d v)) (r.2 f) 5))) ∧
    (∀ r ∈ vectorStores c d a b m sh iw x, (r.1 = .vst c d a m ∨ r.1 = .vsts c d a b m ∨ IndexRegistersOk x d b iw) →
      (∀ j ∈ done, WritesMemory s c (r.2 j) z) → s.locate true (r.2 f) z = .error cause →
      Leaves r.1 s (trapped (done.foldl (fun u j => u.writeMem (r.2 j) (leBytes z (vElem (x.vr d) x.sew j))) s) (r.2 f) cause))

/-! ### Dealer cores: remote memory and fabric instructions -/

/-- R264, R267, R282: a scalar load of a remote address is served by the remote-read cache where it holds the line; otherwise the core stalls and one
LOAD leaves for the node that the slot names. A scalar store of a remote address is posted: the core goes on at once, the store carries the next tag
toward its node, and the lines of the cache that it covers are dropped at issue (R283). Local memory does not change. A load of a register gives the
register. R267: RPUT posts 1 to 256 bytes from local G[B] to remote G[A]; RGET posts a read of remote G[B] to local G[A]; both addresses are aligned
to 64 bytes, and an RGET whose lines the cache holds is complete at once. An address that is not aligned traps ALIGN. (The link from the core's die
to the F-die does not retrain: R384.) -/
def Obligations.RemoteAccessesStallOrArePosted : Prop :=
  (∀ (s : State) (c : Fin 192) (d a : Fin 32) (imm : BitVec 16) (x : Node), Issues s c → s.fabricShut c = false →
    let ad := ((s.core c).gr a + BitVec.ofInt 64 imm.toInt).toNat
    let cached := s.fab.rrcEn && !raNc ad
    (∀ l ∈ scalarLoads c d a imm, s.locate false ad l.size = .ok (.remote x) →
      (cached = true → s.missing x ad l.size = [] →
        ∃ line, s.rrcGet x (raLaddr ad / 256) = some line ∧
          Leaves l.row s (s.coreRuns c (l.put d (leNat ((List.range l.size).map (fun i => line.getD (raLaddr ad % 256 + i) 0)))))) ∧
      (cached = false ∨ s.missing x ad l.size ≠ [] → Completes l.row s (fun t => ∃ o, Posts s t o ∧
        o.kind = .load ∧ o.core = some c ∧ o.node = x ∧ o.slot = raSlot ad ∧ o.addr.toNat = ad ∧ o.len = l.size ∧ o.pkt.hdr.kind = 1 ∧
        o.want = (if cached then s.missing x ad l.size else []) ∧
        t.cores = (s.onCore c (fun y => { y with stall := some (.load o.id d l.size l.signed l.toF) })).cores ∧ t.mem = s.mem))) ∧
    (∀ r ∈ scalarStores c d a imm (s.core c), s.locate true ad r.2.1 = .ok (.remote x) → s.tagRoom x 1 = true →
      Completes r.1 s (fun t => ∃ o, Posts s t o ∧
        o.kind = .store ∧ o.core = some c ∧ o.node = x ∧ o.slot = raSlot ad ∧ o.addr.toNat = ad ∧ o.tag = s.nextTagOf (keyNode x) ∧
        o.pkt.hdr.kind = 2 ∧ o.pkt.data = leBytes r.2.1 r.2.2.toNat ∧
        t.nextTagOf (keyNode x) = s.nextTagOf (keyNode x) + 1 ∧
        t.fab.rrc = s.fab.rrc.filter (fun l => !(l.node = x && meetsLine (raLaddr ad) r.2.1 l.line)) ∧
        t.cores = (s.coreRuns c id).cores ∧ t.mem = s.mem)) ∧
    (s.locate false ad 8 = .ok .reg → WritesG (.ld64 c d a imm) s c d (BitVec.ofNat 64 (s.dealerRead ad)))) ∧
  (∀ (s : State) (c : Fin 192) (d a b : Fin 32) (x : Node), Issues s c → s.fabricShut c = false → s.mem.upset = [] →
    let A := ((s.core c).gr a).toNat
    let B := ((s.core c).gr b).toNat
    let n := ((s.core c).gr d).toNat
    (A % 64 ≠ 0 ∨ B % 64 ≠ 0 → Answers (exec (.rput c d a b) s) (s.trap c 2) ∧ Answers (exec (.rget c d a b) s) (s.trap c 2)) ∧
    (A % 64 = 0 → B % 64 = 0 → 1 ≤ n → n ≤ 256 →
      (s.blockFault false 64 B n = none → s.blockWaits (.dealer c.val) B n = false → s.remoteOf A = .ok x → s.tagRoom x 1 = true →
        s.poisonedIn B n = false → Completes (.rput c d a b) s (fun t => ∃ o, Posts s t o ∧
          o.kind = .rput ∧ o.core = some c ∧ o.node = x ∧ o.addr.toNat = A ∧ o.tag = s.nextTagOf (keyNode x) ∧ o.pkt.hdr.kind = 3 ∧
          o.pkt.data = s.readMem B n ∧ t.cores = (s.coreRuns c id).cores ∧ t.mem = s.mem)) ∧
      (s.blockFault true 64 A n = none → s.blockWaits (.dealer c.val) A n = false → s.remoteOf B = .ok x →
        (s.rrcUsed B = true → s.missing x B n = [] →
          Leaves (.rget c d a b) s ((s.putLocal A ((List.range n).map (fun i =>
            ((s.rrcGet x ((raLaddr B + i) / 256)).getD []).getD ((raLaddr B + i) % 256) 0))).coreRuns c id)) ∧
        (s.rrcUsed B = false ∨ s.missing x B n ≠ [] → Completes (.rget c d a b) s (fun t => ∃ o, Posts s t o ∧
          o.kind = .rget ∧ o.core = some c ∧ o.node = x ∧ o.addr.toNat = B ∧ o.localAddr = A ∧ o.len = n ∧ o.pkt.hdr.kind = 1 ∧
          t.cores = (s.coreRuns c id).cores ∧ t.mem = s.mem)))))

/-- R268, R270: a request block that ATOM may send is posted, with PENDING in G[D], or stalls its core where it fetches; the packet carries the
block's fields. A refused block gives ATOM_BAD in G[D], and nothing is sent. A local target is handed to the controller, with no packet. R267, R283,
R284: INVAL drops at once the lines of this node's cache that the range covers, and keeps a read of them that is in flight from being installed;
INVAL_SEND posts an INVAL to every slot whose bit is 1 in G[D]. No memory changes. (No die link on the way to the F-die retrains: R384.) -/
def Obligations.AtomsAndInvalidations : Prop :=
  (∀ (s : State) (c : Fin 192) (d a b : Fin 32), Issues s c → s.fabricShut c = false → s.mem.upset = [] →
    let target := ((s.core c).gr a).toNat
    let blk := ((s.core c).gr b).toNat
    s.blockFault false 64 blk 384 = none → s.blockWaits (.dealer c.val) blk 384 = false → s.poisonedIn blk 384 = false →
    let q := s.atomBlock blk target (s.core c).flush
    let bad := atomBad q.code.toNat q.fmt.toNat q.count (s.wordAt (blk + 6) 2) q.fetch
    let fetches := msFetches q.code.toNat q.fetch
    let after (t : State) (o : OutOp) : Prop := t.mem = s.mem ∧
      if fetches then t.cores = (s.onCore c (fun y => { y with stall := some (.atom o.id d) })).cores
      else t.cores = (s.coreRuns c (Core.setG d 1)).cores
    ((target < 2 ^ 62 ∨ ∃ x, s.remoteOf target = .ok x) → bad = true → WritesG (.atom c d a b) s c d 3) ∧
    (∀ x, 2 ^ 62 ≤ target → s.remoteOf target = .ok x → bad = false → s.tagRoom x 1 = true → Completes (.atom c d a b) s (fun t => ∃ o,
      Posts s t o ∧ o.kind = .atom ∧ o.core = some c ∧ o.node = x ∧ o.tag = s.nextTagOf (keyNode x) ∧ o.localAddr = blk ∧
      o.pkt.hdr.kind = 4 ∧ o.pkt.hdr.code = q.code ∧ o.pkt.hdr.fmt = q.fmt ∧ o.pkt.hdr.fetch = q.fetch ∧
      o.pkt.hdr.count = BitVec.ofNat 16 q.count ∧ o.pkt.data = q.payload ∧ after t o)) ∧
    (target < 2 ^ 62 → bad = false → s.atomPerm q = false → Completes (.atom c d a b) s (fun t => ∃ o,
      Posts s t o ∧ o.kind = .localAtom ∧ o.core = some c ∧ o.req = some q ∧ o.localAddr = blk ∧ o.frames = [] ∧ after t o))) ∧
  (∀ (s : State) (c : Fin 192) (d a b : Fin 32) (x : Node), Issues s c → s.fabricShut c = false →
    let A := ((s.core c).gr a).toNat
    let n := ((s.core c).gr b).toNat
    let mask := ((s.core c).gr d).toNat
    s.remoteOf A = .ok x →
      Completes (.inval c a b) s (fun t =>
        t.fab.rrc = s.fab.rrc.filter (fun l => !(l.node = x && meetsLine (raLaddr A) n l.line)) ∧
        t.fab.ops = s.fab.ops.map (fun o => if o.node = x then { o with noInstall := o.noInstall ++ o.want.filter (meetsLine (raLaddr A) n) } else o) ∧
        t.cores = (s.coreRuns c id).cores ∧ t.mem = s.mem ∧ t.tx = s.tx) ∧
      ((∀ i, i < 64 → mask.testBit i = true → (s.translate i).isSome = true) → 1 ≤ n → n ≤ 256 * 65535 - 256 →
        Completes (.invalSend c d a b) s (fun t => t.cores = (s.coreRuns c id).cores ∧ t.mem = s.mem ∧
          ∃ new : List OutOp, t.fab.ops = s.fab.ops ++ new ∧
            new.map (fun o => o.slot) = (List.range 64).filter (fun i => mask.testBit i) ∧
            (∀ o ∈ new, o.kind = .invalSend ∧ o.core = some c ∧ o.st = .outstanding ∧ some o.node = s.translate o.slot ∧
              o.pkt.hdr.kind = 5 ∧ o.pkt.hdr.rangeSlot = BitVec.ofNat 6 (raSlot A) ∧
              o.pkt.hdr.laddr.toNat = raLaddr A / 256 * 256 ∧
              o.pkt.hdr.count.toNat = min ((raLaddr A + n - 1) / 256) (2 ^ 36 - 1) + 1 - raLaddr A / 256) ∧
            (s.flt.fenced = false → t.tx = s.tx ++ new.map (fun o => { o.pkt with hdr := { o.pkt.hdr with retry := false, epoch := s.fab.epoch } })))))

/-- R288 to R290: a hand that breaks R289 gets HAND_BAD in G[D] and in its block, and sends nothing; otherwise it is recorded under the next hand
number with its payloads read, its core stalls, and every target slot is sent the entries that name it as one tagged HSTAGE. R296, R299: MSEND is
posted, with PENDING in G[D]: the bytes at SOURCE leave for the named rank, queue and slot under the next tag toward that rank; a rank without a valid
entry of the rank table is MSG_BAD, and nothing is sent. -/
def Obligations.HandsAndMessagesAreSentOrRefused : Prop :=
  (∀ (s : State) (c : Fin 192) (d a : Fin 32), Issues s c → s.fabricShut c = false → s.mem.upset = [] →
    let blk := ((s.core c).gr a).toNat
    let n := s.wordAt blk 1
    let refused : State := (s.putLocal (blk + 1) [3, 0, 0xFF]).coreRuns c (fun x => ({ x with stall := none }).setG d 3)
    s.blockFault true 64 blk 64 = none → s.blockWaits (.dealer c.val) blk 64 = false → s.poisonedIn blk 64 = false →
    (n = 0 ∨ 64 < n → Leaves (.hand c d a) s refused) ∧
    (1 ≤ n → n ≤ 64 → s.blockFault true 64 blk (2112 + 16 * n) = none → s.blockWaits (.dealer c.val) blk (2112 + 16 * n) = false →
      s.poisonedIn blk (64 + 32 * n) = false →
      let tab := s.readMem (blk + 64) (32 * n)
      let es := (List.range n).map (fun i => entryOf tab i (fun _ _ => []))
      let src (e : HandEntry) : Nat × Nat := (leAt tab (32 * e.idx + 16) 8, leAt tab (32 * e.idx + 6) 2)
      let slots := distinct (es.map (fun e => e.slot))
      let bad := (∃ e ∈ es, s.handEntryBad e (src e).2 = true) ∨ 16 < slots.length ∨ 16384 < (es.map (fun e => (src e).2)).sum
      (bad → Leaves (.hand c d a) s refused) ∧
      (¬ bad → (∀ e ∈ es, s.blockFault false 1 (src e).1 (src e).2 = none ∧ s.blockWaits (.dealer c.val) (src e).1 (src e).2 = false ∧
          s.poisonedIn (src e).1 (src e).2 = false) → (slots.map s.translate).Nodup →
          (∀ i ∈ slots, ∀ x, s.translate i = some x → s.tagRoom x 2 = true ∧ ∀ w ∈ s.hnd.unsent, w.node ≠ x) →
        Completes (.hand c d a) s (fun t => ∃ h : HandOut, t.hnd.out = s.hnd.out ++ [h] ∧ h.num = s.hnd.nextHand ∧ h.core = c ∧ h.dreg = d ∧
          h.block = blk ∧ h.decided = none ∧ h.slots = slots ∧
          h.entries = es.map (fun e => { e with payload := s.readMem (src e).1 (src e).2 }) ∧
          t.cores = (s.onCore c (fun x => { x with stall := some (.hand d h.num.toNat) })).cores ∧ t.mem = s.mem ∧
          ∃ new : List OutOp, t.fab.ops = s.fab.ops ++ new ∧ new.map (fun o => o.slot) = slots ∧
            (∀ o ∈ new, o.kind = .hand ∧ o.st = .outstanding ∧ some o.node = s.translate o.slot ∧ o.pkt.hdr.kind = 8 ∧
              o.pkt.data = stageData (h.entries.filter (fun e => e.slot = o.slot))) ∧
            (s.flt.fenced = false → t.tx = s.tx ++ new.map (fun o => o.pkt)))))) ∧
  (∀ (s : State) (c : Fin 192) (d a : Fin 32), Issues s c → s.fabricShut c = false → s.mem.upset = [] →
    let blk := ((s.core c).gr a).toNat
    let rank := s.wordAt blk 4
    let len := s.wordAt (blk + 8) 4
    let src := s.wordAt (blk + 16) 8
    s.blockFault false 64 blk 64 = none → s.blockWaits (.dealer c.val) blk 64 = false → s.poisonedIn blk 64 = false → src % 64 = 0 → 1 ≤ len → len ≤ 65536 →
    s.blockFault false 64 src len = none → s.blockWaits (.dealer c.val) src len = false → s.msgRoom rank = true → s.poisonedIn src len = false →
    (∀ x, s.nodeOfRank rank = some x → Completes (.msend c d a) s (fun t => ∃ o h,
      t.fab.ops = s.fab.ops ++ [o] ∧ o.kind = .msg ∧ o.core = some c ∧ o.st = .outstanding ∧ o.rank = rank ∧ o.node = x ∧
      o.tag = s.nextTagOf (keyRank rank) ∧ o.pkt.hdr.kind = 0x10 ∧ o.pkt.data = s.readMem src len ∧ o.pkt.kh = .rank h ∧
      h.dstRank = BitVec.ofNat 32 rank ∧ h.queue.toNat = s.wordAt (blk + 4) 1 % 64 ∧ h.slot.toNat = s.wordAt (blk + 6) 2 ∧
      (s.flt.fenced = false → t.tx = s.tx ++ [o.pkt]) ∧ t.cores = (s.coreRuns c (Core.setG d 1)).cores ∧ t.mem = s.mem)) ∧
    (s.nodeOfRank rank = none → Completes (.msend c d a) s (fun t =>
      t.fab.ops = s.fab.ops ∧ t.tx = s.tx ∧ t.fab.err.getLsbD 0 = true ∧ t.cores = (s.coreRuns c (Core.setG d 1)).cores ∧ t.mem = s.mem)))

/-! ### Dealer cores: control and context images; pip boards -/

/-- R228, R231: RUN 1 runs a core, from a halt, a trap or a safepoint; RUN 0 halts one that waits for nothing at once, abandons a held SUBMIT, and
with HALT_AT_SAFE lets the core run on; SAFEPOINT_HALT then halts it at a safepoint, or once 65,536 dc have passed as without HALT_AT_SAFE, a held
SUBMIT abandoned. R229 to R231: a save of a halted
core writes its image at BASE and reports CTX_OK; a restore of an image of version 2 and width 128 or 64 applies it and reports CTX_OK, and one of
another version or width reports CTX_FORMAT and sets CTX_REFUSED; a core that is not halted reports CTX_BUSY. (A register write is remembered to the
end of its ac: R481, log entry 2.) -/
def Obligations.CoreControlCommands : Prop :=
  (∀ (s : State) (c : Fin 192) (v : W64), s.serves = true →
    let x := s.core c
    let noted (t : State) : State := t.noted .dlr c 0x000 0 v.toNat
    (v.getLsbD 0 = true → Answers (exec (.dlrCtrlWrite c v) s) (noted (s.onCore c (fun y => { y with
      runBit := true, haltAtSafe := v.getLsbD 1, halted := false, trapped := false, atSafepoint := false, haltingSince := none })))) ∧
    (v.getLsbD 0 = false → v.getLsbD 1 = false → x.halted = false →
      (x.stall = none → Answers (exec (.dlrCtrlWrite c v) s) (noted (s.onCore c (fun y => { y with
        runBit := false, haltAtSafe := false, halted := true, haltingSince := none })))) ∧
      (x.stall = some .submit → Completes (.dlrCtrlWrite c v) s (fun t =>
        t.cores = (s.onCore c (fun y => { y with runBit := false, haltAtSafe := false, halted := true, haltingSince := none, stall := none })).cores ∧
        (∀ k i, (t.engine k i).port = (s.engine k i).port.filter (fun e => e.core != some c))))) ∧
    (v.getLsbD 0 = false → v.getLsbD 1 = true → x.halted = false → Answers (exec (.dlrCtrlWrite c v) s) (noted (s.onCore c (fun y => { y with
      runBit := false, haltAtSafe := true, haltingSince := some (y.haltingSince.getD y.cycle) })))) ∧
    (∀ t0, x.haltingSince = some t0 → x.halted = false →
      ((x.cycle - t0).toNat < 65536 → x.stall = none → Answers (exec (.safepointHalt c) s) (s.onCore c (fun y => { y with
        halted := true, haltingSince := none, atSafepoint := true }))) ∧
      (65536 ≤ (x.cycle - t0).toNat → x.stall = none → Answers (exec (.safepointHalt c) s) (s.onCore c (fun y => { y with
        halted := true, haltingSince := none }))) ∧
      (65536 ≤ (x.cycle - t0).toNat → x.stall = some .submit → Completes (.safepointHalt c) s (fun t =>
        t.cores = (s.onCore c (fun y => { y with halted := true, haltingSince := none, stall := none })).cores ∧
        (∀ k i, (t.engine k i).port = (s.engine k i).port.filter (fun e => e.core != some c)))))) ∧
  (∀ (s : State) (c : Fin 192), s.serves = true → s.mem.upset = [] →
    let x := s.core c
    let a := x.ctxBase.toNat
    let w := s.wordAt (a + 2) 1
    let size := if w = 0x80 then 848 else 592
    let ends (f : Core → Core) (r : BitVec 8) : Core → Core := fun y => { f y with ctxResult := r, ctxDone := true }
    (x.halted = true → (s.storeOfExtent a 848).any Store.shared = true →
      Answers (exec (.ctxSave c) s) ((s.writeMem a (x.image (s.atSafepoint c))).onCore c (ends id 0))) ∧
    (x.halted = true → (s.storeOfExtent a size).any Store.shared = true → s.poisonedIn a size = false →
      (s.wordAt a 2 = 2 → w = 0x80 ∨ w = 0x40 → Answers (exec (.ctxRestore c) s) (s.onCore c (ends (Core.restore (s.readMem a size)) 0))) ∧
      (s.wordAt a 2 ≠ 2 ∨ (w ≠ 0x80 ∧ w ≠ 0x40) → Completes (.ctxRestore c) s (fun t =>
        t.core c = { ends id 3 x with err := x.err ||| 4 } ∧ t.mem = s.mem))) ∧
    (x.halted = false → Answers (exec (.ctxSave c) s) (s.onCore c (ends id 4)) ∧ Answers (exec (.ctxRestore c) s) (s.onCore c (ends id 4))))

/-- R229, R230: the image of a core, restored onto a core of the same width, gives back every register of the context. (The reserved bits of ACR,
FFLAGS and VTYPE are 0, as their writes leave them.) A 64-bit image sets V[127:64] and K[15:8] to zero and keeps its VL and VTYPE. -/
def Obligations.ContextImageRestoresExactly : Prop :=
  (∀ (y : Core) (b : List Byte), leAt b 2 1 = 0x40 →
    let r := y.restore b
    (∀ n : Fin 32, (r.vr n).toNat = leAt b (336 + 8 * n.val) 8 ∧ (r.vr n).toNat < 2 ^ 64) ∧
    (∀ m : Fin 8, m ≠ 0 → (r.kr m).toNat = leAt b (40 + 2 * m.val) 2 % 256) ∧
    r.vl = BitVec.ofNat 5 (leAt b 32 2) ∧ r.vtype = BitVec.ofNat 8 (leAt b 34 2 % 32)) ∧
  ∀ (x y : Core) (safe : Bool), x.acr.toNat < 8 → x.fflags.toNat < 256 → x.vtype.toNat < 32 →
    let r := y.restore (x.image safe)
    (x.image safe).length = 848 ∧
    (∀ n, r.gr n = x.gr n) ∧ (∀ m, r.kr m = x.kr m) ∧ r.v = x.v ∧ r.vl = x.vl ∧ r.vtype = x.vtype ∧ r.pc = x.pc ∧ r.acr = x.acr ∧
    r.fflags = x.fflags ∧ r.tvec = x.tvec ∧ r.epc = x.epc ∧ r.vfaddr = x.vfaddr ∧ r.cause = x.cause ∧ r.vfault = x.vfault ∧
    r.atSafepoint = safe

/-- R333, R334: RAISE sets the pip that bits [11:0] name and LOWER clears it, and no other pip of any board; a pip raised in the present ac stays up
through a LOWER of that ac. -/
def Obligations.PipStoresChangeOnePip : Prop :=
  ∀ (s : State) (u : Fin 16) (v : W64), s.serves = true →
    let p := v.toNat % 4096
    (s.deckResetting (u.val / 4) = false → Completes (.pipRaise u v) s (fun t =>
      (∀ w q, w < 16 → q < 4096 → t.pipUp w q = (s.pipUp w q || (w == u.val && q == p))) ∧
      t = s.onHbm (fun h => { h with pips := t.hbm.pips, raised := t.hbm.raised }))) ∧
    (s.deckResetting (u.val / 4) = true → Answers (exec (.pipRaise u v) s) (s.onFab (fun f => { f with heldPips := f.heldPips ++ [(u.val, p)] }))) ∧
    Completes (.pipLower u v) s (fun t => (∀ w q, w < 16 → q < 4096 → t.pipUp w q =
      (s.pipUp w q && !(w == u.val && q == p && !s.hbm.raised.contains (u.val * 4096 + p)))) ∧ t.mem = s.mem ∧ t.cores = s.cores)

/-! ### Engines -/

/-- R93, R94, R228: SUBMIT leaves V[B] to V[B+7], with the core's FLUSH, at the port of one engine's window, last in its order, and its core waits;
one to a group or all window of the attached job is dropped with SUBMIT_WIN; B other than 0, 8, 16 or 24, or an address that is no port, traps
SUBMIT_PORT. R91 to R94, R228: when its FIFO holds fewer than 64 descriptors, an engine takes the submission that has waited longest, with the status
of its first failing check and the next sequence number, and the submitting core goes on; a full FIFO leaves it at the port. R33, R35, R91: a rejected
descriptor that reaches the head of its FIFO completes at once with its status; an accepted one waits for its release, its first effect 4 ac after the
release, or 4 ac after now where the release is on arrival or has passed (then it is late). -/
def Obligations.SubmissionsAreAcceptedAndHeadsWait : Prop :=
  (∀ (s : State) (c : Fin 192) (a b : Fin 32) (k : EngKind) (i : Nat), Issues s c →
    let x := s.core c
    let at_ := regAddr (x.gr a).toNat
    (b.val % 8 ≠ 0 → Answers (exec (.submit c a b) s) (s.trap c 6)) ∧
    ((∀ k w, at_ ≠ some (.eng k, w, 0)) → Answers (exec (.submit c a b) s) (s.trap c 6)) ∧
    (b.val % 8 = 0 → at_ = some (.eng k, .inst i, 0) → s.engPresent k i = true → s.dealerStores (.eng k) (.inst i) 0 = true →
      ∃ d : BitVec 1024, (∀ j : Fin 8, d.extractLsb' (128 * j) 128 = x.vr (Fin.ofNat 32 (b.val + j))) ∧
        Leaves (.submit c a b) s ((s.onEngine k i (fun e => { e with port := e.port ++ [⟨some c, x.flush, d⟩] })).onCore c
          (fun y => { y with stall := some .submit }))) ∧
    (b.val % 8 = 0 → (at_ = some (.eng k, .group, 0) ∨ at_ = some (.eng k, .all, 0)) → s.job.attached = true →
      Completes (.submit c a b) s (fun t => t.cores = (s.coreRuns c id).cores ∧ t.mem = s.mem ∧
        ∀ j, (t.engine k j).fifo = (s.engine k j).fifo ∧ (t.engine k j).port = (s.engine k j).port))) ∧
  (∀ (s : State) (i : Fin 64) (j : Fin 16) (sub : Submission) (rest : List Submission), s.serves = true →
    let takes (k : EngKind) (n : Nat) (row : Instr) (check : State → Submission → Accepted) : Prop :=
      (s.engine k n).port = sub :: rest → s.engInReset k n = false →
      let e := s.engine k n
      let r := check s sub
      (e.fifo.length < 64 → Completes row s (fun t =>
        t.engine k n = { e with
          port := rest, seq := e.seq + 1, err := if r.status = 0x12 then e.err ||| 1 else e.err
          fifo := e.fifo ++ [{ sub := sub, image := r.image, stab := r.stab, status := BitVec.ofNat 16 r.status, seq := e.seq, at_ := s.now }] } ∧
        (∀ c, sub.core = some c → t.cores = (s.coreRuns c (fun x => { x with stall := none })).cores) ∧
        (sub.core = none → t.cores = s.cores) ∧ t.mem = s.mem)) ∧
      (64 ≤ e.fifo.length → Answers (exec row s) s)
    takes .tbl i (.tblAccept i) (tblCheck i) ∧ takes .atm i (.atmAccept i) atmCheck ∧
    takes .sol j (.solAccept j) (solCheck j) ∧ takes .shf j (.shfAccept j) (shfCheck j)) ∧
  (∀ (s : State) (k : EngKind) (i : Fin 64) (x : Entry) (rest : List Entry), s.serves = true →
    (s.engine k i).fifo = x :: rest → (s.engine k i).head.phase = .idle → (s.engine k i).runBit = true → s.engInReset k i = false →
    let rel := descRelease k x.sub.desc
    (x.status ≠ 0 → Answers (exec (.descriptorHead k i) s) (s.finish k i x.status.toNat)) ∧
    (x.status = 0 → Completes (.descriptorHead k i) s (fun t =>
      let h := (t.engine k i).head
      t = s.onHead k i (fun _ => h) ∧
      (rel = 2 ^ 64 - 1 → h.phase = .waitPips ∧ h.firstEffect = s.now + 4 ∧ h.late = false) ∧
      (rel ≠ 2 ^ 64 - 1 →
        let T := rel / 65536 * 60000 + rel % 65536
        (T < s.now → h.phase = .waitPips ∧ h.firstEffect = s.now + 4 ∧ h.late = true) ∧
        (T = s.now → h.phase = .waitPips ∧ h.firstEffect = T + 4 ∧ h.late = false) ∧
        (s.now < T → h.phase = .waitRelease ∧ h.firstEffect = T + 4 ∧ h.late = false)))))

/-- R64, R109, R112: a descriptor that ends while its ring has space writes its record in the next slot, ORs its flags into its core's FFLAGS and
raises DONE_PIP only with OK, and leaves the FIFO; in a full ring it is held and none of that happens. The row is PIP_TIMEOUT (R103), whose record
carries 0x0011: it ends a descriptor whose wait has reached LIMIT_CD cd from its first effect with a pip that has not risen. R90, R99, R101, R467:
once its first effect has come and every pip of the wait set has been seen up, a NOP ends OK and any other descriptor runs, in an enabled duty slot:
its operands are memory as it now stands, and START_STAMP is now but for a Tableau in PIP_MODE 2, whose arithmetic begins with its first chunk. A
Tableau that reads HBM or a Suit buffer leaves its Organ unspecified from STAGE_BASE up (R96). (No poison stands there, and no reset or retrain holds
the descriptor's memory. That pips are seen each on its own is the model's reading, log entry 29.) -/
def Obligations.DescriptorsBeginAndComplete : Prop :=
  (∀ (s : State) (k : EngKind) (i : Nat) (st : Nat) (x : Entry) (rest : List Entry), i < k.count → (s.engine k i).fifo = x :: rest →
    let e := s.engine k i
    let s1 := s.onHead k i (fun h => { h with
      phase := .finished, status := BitVec.ofNat 16 st, since := if h.phase = .idle then s.now else h.since
      flags := if st = 0 then h.flags else {}, empty := h.empty && st = 0
      truncCap := h.truncCap && st = 0 })
    (e.cq.full = true → s.finish k i st = s1.onHead k i (fun h => { h with held := true })) ∧
    (e.cq.full = false → (∃ m, s.storeOfExtent e.cq.slot 32 = some m ∧ m.shared = true) →
      let t := s.finish k i st
      t.engine k i = { e with fifo := rest, head := Head.idle, cq := { e.cq with tail := e.cq.tail + 1 } } ∧
      t.mem = (s.writeMem e.cq.slot (completionRecord k (s1.engine k i) x s.stamp)).mem ∧
      t.hbm.pips = (if st % 65536 = 0 ∧ descCpip k x.sub.desc = true then s.raisePip (engineSuit k i) (descDonePip k x.sub.desc)
        else s).hbm.pips ∧
      (∀ c, (t.core c).fflags = if x.sub.core = some c ∧ st % 65536 = 0 then (s.core c).fflags ||| BitVec.ofNat 64 (s1.engine k i).head.flags.bits
        else (s.core c).fflags) ∧ ∀ c, (t.core c).g = (s.core c).g ∧ (t.core c).pc = (s.core c).pc) ∧
    (∀ j : Fin 64, j.val = i → s.serves = true → e.head.phase = .waitPips → e.pipLimit ≠ 0 →
      e.head.firstEffect + e.pipLimit.toNat * 60000 ≤ s.now → (waitSet k e.headDesc).all (s.risen k i) = false →
      Answers (exec (.pipTimeout k j) s) (((s.onHead k i (fun h => { h with start := none })).engErr k i 2).finish k i 0x11))) ∧
  (∀ (s : State) (k : EngKind) (i : Fin 64) (x : Entry) (rest : List Entry), s.serves = true → i.val < k.count →
    (s.engine k i).fifo = x :: rest → (s.engine k i).head.phase = .waitPips → (s.engine k i).head.firstEffect ≤ s.now →
    (∀ p ∈ startSet k x.sub.desc, s.risen k i p = true) → s.mem.noPoison = true → s.mem.upset = [] → s.anyFenced = false →
    let waits : Bool := match k with
      | .tbl => s.tblWaits i
      | .atm => false
      | .sol => false
      | .shf => s.shfWaits i
    let staged : State := if k = .tbl then s.stage i (s.engine .tbl i).tblHead else s
    let old := (s.engine k i).head
    (descOp x.sub.desc = 0 → Answers (exec (.pipWaitSatisfied k i) s) (s.finish k i 0)) ∧
    (descOp x.sub.desc ≠ 0 → s.pwr.slotOn = true → waits = false → Completes (.pipWaitSatisfied k i) s (fun t =>
      let h := (t.engine k i).head
      h.phase = .running ∧ h.start = (if k = .tbl ∧ descPipMode k x.sub.desc = 2 then old.start else some (old.start.getD s.stamp)) ∧
      h.snap = staged.mem ∧ h.late = old.late ∧ (t.engine k i).fifo = x :: rest ∧ t.mem = staged.mem ∧ t.cores = s.cores)) ∧
    (descOp x.sub.desc ≠ 0 → s.pwr.slotOn = false → Answers (exec (.pipWaitSatisfied k i) s) s))

/-- R112, R116, R211: CQ_HEAD takes a value that keeps TAIL − HEAD within the ring and ignores every other; RUN takes bit 0; STAGE_BASE takes a value,
384 at most, while the FIFO is empty, and sets SPLIT_BUSY otherwise. R6, R116, R482: a write by Banker firmware clears the bits of an error register
that it writes as 1, through any window in every instance that the window selects; it stores a group mask whole, and changes no read-only register and
no submission port. A Dealer's store that traps does not write; one that is permitted writes as Banker firmware does. R481: a write through an instance
window stands over one through the group or all window of the same ac, and a mask written in an ac selects from the next ac on. (That a write through
an instance window is remembered, and acts again after the other, is the model's way to say it: log entry 2.) -/
def Obligations.RegisterWritesFollowTheirFields : Prop :=
  (∀ (s : State) (k : EngKind) (i : Fin 64) (v : W64), s.serves = true → i.val < k.count →
    let e := s.engine k i
    let h : BitVec 32 := v.setWidth 32
    let head (t : State) : State := t.noted (.eng k) i 0x0A0 e.cq.head.toNat v.toNat
    (e.head.held = false → 2 ^ e.cq.sizeLog2.toNat < (e.cq.tail - h).toNat → Completes (.cqHeadWrite (.eng k i) v) s (fun t => t.engine k i = e)) ∧
    (e.head.held = false → (e.cq.tail - h).toNat ≤ 2 ^ e.cq.sizeLog2.toNat →
      Answers (exec (.cqHeadWrite (.eng k i) v) s) (head (s.onEngine k i (fun y => { y with cq := { y.cq with head := h } })))) ∧
    (e.head.held = true → e.head.phase = .running → (e.cq.tail - h).toNat < 2 ^ e.cq.sizeLog2.toNat →
      Answers (exec (.cqHeadWrite (.eng k i) v) s) (head (s.onEngine k i (fun y => { y with
        cq := { y.cq with head := h }, head := { y.head with held := false } })))) ∧
    Answers (exec (.ctrlRunWrite (.eng k i) v) s)
      ((s.onEngine k i (fun y => { y with runBit := v.getLsbD 0 })).noted (.eng k) i 0x080 (bit01 e.runBit) v.toNat) ∧
    ((s.engine .tbl i).fifo = [] → Answers (exec (.organSplitWrite i v) s)
      ((s.onEng (fun x => { x with organSplit := x.organSplit.set i (BitVec.ofNat 9 (min (v.toNat % 512) 384)) })).noted
        (.eng .tbl) i 0x0B0 0 v.toNat)) ∧
    ((s.engine .tbl i).fifo ≠ [] → Completes (.organSplitWrite i v) s (fun t =>
      t.eng.organSplit = s.eng.organSplit ∧ (t.engine .tbl i).err = (s.engine .tbl i).err ||| 32 ∧ t.mem = s.mem))) ∧
  (∀ (s : State) (a v : W64), s.serves = true →
    let W (t : State) : Prop := Answers (exec (.registerWrite .banker a v) s) t
    (regAddr a.toNat = some (.cad, .inst 0, 0x018) → W (s.onCad (fun c => { c with events := c.events &&& ~~~(BitVec.ofNat 6 v.toNat) })) ∧
      ∀ c : Fin 192, Answers (exec (.registerWrite (.dealer c) a v) s)
        (if (s.regFault true a.toNat).isSome then s else s.onCad (fun x => { x with events := x.events &&& ~~~(BitVec.ofNat 6 v.toNat) }))) ∧
    (regAddr a.toNat = some (.fab, .inst 0, 0x020) → W (s.onFab (fun f => { f with err := f.err &&& ~~~(BitVec.ofNat 5 v.toNat) }))) ∧
    (regAddr a.toNat = some (.hnd, .inst 0, 0x008) → W (s.onHnd (fun h => { h with err := h.err &&& ~~~(BitVec.ofNat 4 v.toNat) }))) ∧
    (regAddr a.toNat = some (.trk, .inst 0, 0x0C0) → W (s.onTrk (fun t => { t with err := t.err &&& ~~~(BitVec.ofNat 5 v.toNat) }))) ∧
    (regAddr a.toNat = some (.flt, .inst 0, 0x030) → W (s.onFlt (fun f => { f with err := f.err &&& ~~~(BitVec.ofNat 3 v.toNat) }))) ∧
    (regAddr a.toNat = some (.ckp, .inst 0, 0x020) → W (s.onCkp (fun k => { k with err := k.err &&& ~~~(BitVec.ofNat 4 v.toNat) }))) ∧
    (regAddr a.toNat = some (.pwr, .inst 0, 0x018) → W (s.onPwr (fun p => { p with err := p.err &&& ~~~(BitVec.ofNat 5 v.toNat) }))) ∧
    (∀ k w, regAddr a.toNat = some (.eng k, w, 0x0C0) → (∀ x ∈ s.bus.written, x.blk ≠ .eng k) →
      Completes (.registerWrite .banker a v) s (fun t => ∀ i, i < (RegBlk.eng k).count →
      (t.engine k i).err = if (s.selected (.eng k) w).contains i then (s.engine k i).err &&& ~~~(BitVec.ofNat 6 v.toNat) else (s.engine k i).err)) ∧
    (∀ k w old was, regAddr a.toNat = some (.eng k, w, 0x0B8) → w = .group ∨ w = .all → ∀ j, j < (RegBlk.eng k).count →
      s.bus.written = [⟨.eng k, j, 0x0B8, old, was⟩] → (s.selected (.eng k) w).contains j = true →
      Completes (.registerWrite .banker a v) s (fun t => ∀ i, i < (RegBlk.eng k).count →
        (t.engine k i).pipLimit = if i = j then BitVec.ofNat 16 was
          else if (s.selected (.eng k) w).contains i then v.setWidth 16 else (s.engine k i).pipLimit)) ∧
    (∀ b n o, regAddr a.toNat = some (b, .group, o) → maskAt b o = some n → s.bus.masks = [] →
      Completes (.registerWrite .banker a v) s (fun t => t.maskReg b n = v.toNat % 2 ^ b.maskBits ∧ t.maskNow b n = s.maskNow b n ∧
        t.endBus.maskNow b n = v.toNat % 2 ^ b.maskBits ∧ t.endBus.bus.masks = [] ∧ t.endBus.bus.written = [])) ∧
    (∀ k i o, regAddr a.toNat = some (.eng k, .inst i, o) → o < 0x080 → W s) ∧
    (∀ k i o, regAddr a.toNat = some (.eng k, .inst i, o) → o = 0x088 ∨ o = 0x0A8 →
      Completes (.registerWrite .banker a v) s (fun t => t = s.onBus (fun x => { x with written := t.bus.written }))) ∧
    (∀ o, regAddr a.toNat = some (.cad, .inst 0, o) → o = 0x008 ∨ o = 0x010 ∨ o = 0x020 → W s))

/-- R97, R101, R104, R107 to R109, R127: in PIP_MODE 2 the lowest chunk whose pip is up is consumed, once, or the descriptor ends ANCHOR_SUMMARY
(R102) where it reads summaries; the first chunk stamps START_STAMP (R109); the next tile's output stage writes its rows, each element the anchored
sum through the epilogue, encoded; when every tile is out, the trailer of a sealed write and the completion follow, or both wait for space in the ring.
Operands that are staged leave the Organ unspecified from STAGE_BASE up (R96). (No poison or symbol error stands in memory, and no reset or retrain
holds the descriptor's memory.) -/
def Obligations.TableauConsumesChunksAndWritesTiles : Prop :=
  ∀ (s : State) (i : Fin 64), s.serves = true → (s.engine .tbl i).head.phase = .running → s.pwr.slotOn = true →
    s.mem.noPoison = true → s.mem.upset = [] → s.anyFenced = false → s.tblWaits i = false →
    let e := s.engine .tbl i
    let t := e.tblHead
    let z := s.stage i t
    let run := e.head.run
    let m := e.head.snap
    let flush := e.headFlush
    (∀ c, t.pipMode = 2 → s.nextChunk i = some c →
      c < t.pipCount ∧ c ∉ run.chunks ∧ s.pipUp (engineSuit .tbl i) (t.pipBase + c) = true ∧
      (∀ d, d < c → d ∈ run.chunks ∨ s.pipUp (engineSuit .tbl i) (t.pipBase + d) = false) ∧
      Completes (.chunkConsume i) s (fun u =>
        ((u.engine .tbl i).head.run.chunks = run.chunks ++ [c] ∧ (u.engine .tbl i).head.start = some (e.head.start.getD s.stamp) ∧
          u.hbm.pips = s.hbm.pips ∧ u.mem = z.mem ∧ u.cores = s.cores) ∨
        ((t.needSumA || t.needSumB) = true ∧
          u.uncounted = (((z.onHead .tbl i (Head.stamped s.stamp)).engErr .tbl i 4).finish .tbl i 0x10).uncounted))) ∧
    ((t.pipMode = 2 → t.pipCount ≤ run.chunks.length) → run.tiles < t.tiles →
      let tl := t.tileAt run.tiles
      let cells (r : Nat) : List TblCell := (List.range tl.2.2).map (fun q =>
        z.tblCell m flush t (z.rowA m flush t (tl.1.1 + r)) (z.colB m flush t (tl.2.1 + q))
          (if t.pipMode = 2 then some (run.sums.getD ((tl.1.1 + r) * t.n + (tl.2.1 + q)) {}) else none) (tl.1.1 + r) (tl.2.1 + q))
      let out (r : Nat) := rowOutput t s.eng.key flush (tl.1.1 + r) tl.2.1 ((cells r).map (fun c => c.v))
      Completes (.tblTileOutput i) s (fun u =>
        u.mem = ((List.range tl.1.2).foldl (fun y r => y.writeRow t (tl.1.1 + r) tl.2.1 (out r)) z).mem ∧
        (u.engine .tbl i).head.run.tiles = run.tiles + 1 ∧ (u.engine .tbl i).fifo = e.fifo ∧ u.cores = s.cores)) ∧
    (t.tiles ≤ run.tiles → e.cq.full = true → Answers (exec (.tblCommit i) s) (s.onHead .tbl i (fun h => { h with held := true }))) ∧
    (t.tiles ≤ run.tiles → e.cq.full = false → Answers (exec (.tblCommit i) s)
      ((if t.sealed then s.writeMem (t.d + t.m * t.ldd) (s.sealTrailer (t.m * t.ldd) t.outId) else s).finish .tbl i 0))

/-- R138, R157: an Atomizer runs its program one tile after another, then its phases, then its groups, and commits when every group is done: each
invocation advances the place by one; the completion follows. (No poison or symbol error stands in memory, and no reset or retrain holds the
descriptor's memory.) -/
def Obligations.AtomizerRunsTilesInOrder : Prop :=
  ∀ (s : State) (i : Fin 64), s.serves = true → (s.engine .atm i).head.phase = .running → s.pwr.slotOn = true →
    s.mem.noPoison = true → s.mem.upset = [] → s.anyFenced = false → s.atmWaits i = false →
    let e := s.engine .atm i
    let d := e.atmHead
    let r := e.head.run
    (r.group < d.groups → Completes (.atmTileInvocation i) s (fun t =>
      let r' := (t.engine .atm i).head.run
      (r'.tile, r'.phase, r'.group) =
        (if r.tile + 1 < d.groupTiles then (r.tile + 1, r.phase, r.group)
         else if r.phase + 1 < atmPhases d e.atmProgram then (0, r.phase + 1, r.group)
         else (0, 0, r.group + 1)) ∧
      (t.engine .atm i).head.phase = .running ∧ (t.engine .atm i).fifo = e.fifo ∧ t.cores = s.cores ∧
      (d.op ≠ 2 → t.eng.tileRegs[i] = tileRegsOf (((List.range 8).map (fun q =>
        s.atmLanes i d e.atmProgram (e.atmProgram.phase r.phase) (d.tileAt r.group r.tile).1 (8 * (d.tileAt r.group r.tile).2.1 + q)
          (d.tileAt r.group r.tile).2.2.1 (d.tileAt r.group r.tile).2.2.2.1 (d.tileAt r.group r.tile).2.2.2.2)).flatten)))) ∧
    (d.groups ≤ r.group → Answers (exec (.atmCommit i) s) (s.finish .atm i 0))

/-- R165, R166, R169: a free problem buffer lets the Compounder assemble the next 64 problems, or as many as are left, each by its own lane of the
formula, in index order; a problem out of range is done with status 7: COMPOUNDER_LANE_GROUP completes whenever a Solitaire runs in an enabled duty
slot, with problems left and a buffer free, and no reset or retrain holds the descriptor's memory. -/
def Obligations.CompounderAssemblesTheNextLaneGroup : Prop :=
  ∀ (s : State) (i : Fin 16), s.serves = true → (s.engine .sol i).head.phase = .running → s.pwr.slotOn = true → s.solWaits i = false →
    let e := s.engine .sol i
    let d := e.solHead
    let r := e.head.run
    let n := min 64 (d.nprob - r.assembled)
    r.assembled < d.nprob → r.problems.length < 8 → ∃ t, exec (.compounderLaneGroup i) s = .next t ∧ (
      let r' := (t.engine .sol i).head.run
      r'.assembled = r.assembled + n ∧ r'.committed = r.committed ∧
      (∃ new, r'.problems = r.problems ++ new ∧ new.map (fun p => p.idx) = (List.range n).map (fun q => r.assembled + q) ∧
        (∀ p ∈ new, p.factored = false ∧ (p.rangeBad = true → p.status = 7 ∧ p.done = true) ∧
          (p.rangeBad = false → p.status = 0 ∧ p.done = false))) ∧
      (t.engine .sol i).fifo = e.fifo ∧ t.cores = s.cores)

/-- R170 to R183: a problem in one of the 8 buffers takes its warm slot's factors where they match, and is factorised otherwise; a factorised problem
is solved and refined to its status, and after a warm start that fails, factorised and refined once more, the corrections and residuals of the first
run kept where the second forms none (R182); the next problem in index order commits, its fallback counted for statuses 2 to 7, and the last one ends
the descriptor; one that a replay writes again is counted once. (No symbol error stands in memory, and no reset or retrain holds the descriptor's
memory.) -/
def Obligations.SolitaireTakesEachProblemToItsStatus : Prop :=
  ∀ (s : State) (i : Fin 16) (n : BitVec 12) (p : Problem), s.serves = true → (s.engine .sol i).head.phase = .running → s.mem.upset = [] → s.solWaits i = false →
    let e := s.engine .sol i
    let d := e.solHead
    let f := e.solFormula
    let fl := e.headFlush
    let put (g : Problem → Problem) : State := s.onHead .sol i (fun h => { h with run := { h.run with
      problems := h.run.problems.map (fun x => if x.idx = n.toNat then g x else x) } })
    let cold (x : Problem) : Problem := x.factorise (factEnv d f fl x)
    let a := d.slot + (d.warmFirst + n.toNat) * d.slotStride
    let slot := s.readIn e.head.snap a (slotBytes f.n)
    (e.buffered n.toNat = some p → p.done = false → p.poisoned = false → s.pwr.slotOn = true →
      (p.factored = false →
        (d.warm = false → Answers (exec (.solFactorise i n) s) (put cold)) ∧
        (d.warm = true → s.poisonedIn a (slotBytes f.n) = false → slotMatches d f p slot = true →
          Answers (exec (.solFactorise i n) s) (put (fun x => x.useSlot f.n slot))) ∧
        (d.warm = true → s.poisonedIn a (slotBytes f.n) = false → slotMatches d f p slot = false →
          Answers (exec (.solFactorise i n) s) (put (fun x => cold { x with warmRejected := true })))) ∧
      (p.factored = true → Answers (exec (.solRefine i n) s) ((put (fun x =>
        let y := x.refine d f fl
        if y.warmUsed ∧ (y.status = 3 ∨ y.status = 6) then
          let z := { x with
            fl := y.fl, refactored := true, factored := false, corrections := y.corrections, resNorm := y.resNorm }.factorise (factEnv d f fl x)
          if z.factored then (z.refineOver (x.refineOver [] d f fl).2 d f fl).1 else z
        else y)).pulse (.sol i) 0x0304 (p.correctionsMade d f fl)))) ∧
    (∀ rest, e.head.run.problems = p :: rest → p.poisoned = false → p.done = true →
      let again := p.idx < e.head.run.committed
      let fallback := if ¬ again ∧ 2 ≤ p.status ∧ p.status ≤ 7 then 1 else 0
      let t := ((s.commitProblem d f p).pulse (.sol i) 0x0303 fallback).onHead .sol i (fun h => { h with
        flags := h.flags.or p.fl
        run := { h.run with problems := rest, committed := if again then h.run.committed else h.run.committed + 1
                            fallbacks := h.run.fallbacks + fallback } })
      Answers (exec (.solProblemCommit i) s) (if d.nprob ≤ p.idx + 1 then t.finish .sol i 0 else t))

/-- R196, R199 to R208: a FILL writes its elements from OUT and, in Jumpahead mode, moves the lanes on; a SAMPLE writes a record a slot and moves each
slot's position by one; a full ring holds the commit and moves nothing. Writes of the Shuffle state take effect while the FIFO is empty, and are
ignored with SLOT_BUSY otherwise; LANE_BASE sets lane λ to (64·LANE_BASE + λ)·2^64. (No reset or retrain holds the descriptor's memory.) -/
def Obligations.ShuffleCommitsAndStateWrites : Prop :=
  ∀ (s : State) (i : Fin 16) (v : W64), s.serves = true → s.shfWaits i = false →
    let e := s.engine .shf i
    let d := shfDesc e.headDesc
    let st := s.eng.shfState[i]
    (e.head.phase = .running → s.pwr.slotOn = true → e.cq.full = true →
      Answers (exec (.shfCommit i) s) (s.onHead .shf i (fun h => { h with held := true }))) ∧
    (e.head.phase = .running → s.pwr.slotOn = true → e.cq.full = false → d.op = 1 →
      let r := fillAll s.eng.key d d.count 0 st.lanes.toList []
      Completes (.shfCommit i) s (fun t => ∃ u : State,
        u.mem = (s.writeMem d.out ((r.1.reverse.map (fun x => x.bytes)).flatten)).mem ∧ t = u.finish .shf i 0 ∧
        (∀ l : Fin 64, (u.eng.shfState[i]).lanes[l] = if d.jump then r.2.getD l.val 0 else st.lanes[l]) ∧
        (d.jump = true → u.job.outside = true))) ∧
    (e.head.phase = .running → s.pwr.slotOn = true → e.cq.full = false → d.op ≠ 1 →
      Completes (.shfCommit i) s (fun t => ∃ u : State,
        u.mem = (d.slots.foldl (fun z q => z.sampleSlot i d q) s).mem ∧ t = u.finish .shf i 0 ∧
        (∀ q : Fin 2, (u.eng.shfState[i]).slots[q] =
          { st.slots[q] with pos := st.slots[q].pos + (if d.slots.contains q.val then 1 else 0) }))) ∧
    (e.fifo = [] →
      Completes (.shfJaBaseWrite i v) s (fun t => ∀ l : Fin 64, ((t.eng.shfState[i]).lanes[l]).toNat = (64 * (v.toNat % 2 ^ 24) + l.val) * 2 ^ 64 % 2 ^ 96) ∧
      (∀ q : Fin 2, Completes (.shfStateWrite i (BitVec.ofNat 12 (0x0D0 + 16 * q.val)) v) s (fun t =>
        (t.eng.shfState[i]).slots[q] = { st.slots[q] with active := v.getLsbD 32, stream := v.setWidth 32 }) ∧
        Completes (.shfStateWrite i (BitVec.ofNat 12 (0x0D8 + 16 * q.val)) v) s (fun t => (t.eng.shfState[i]).slots[q] = { st.slots[q] with pos := v })) ∧
      (∀ l : Fin 64, Completes (.shfStateWrite i (BitVec.ofNat 12 (0x100 + 16 * l.val)) v) s (fun t =>
        ((t.eng.shfState[i]).lanes[l]).toNat = (st.lanes[l]).toNat / 2 ^ 64 * 2 ^ 64 + v.toNat) ∧
        Completes (.shfStateWrite i (BitVec.ofNat 12 (0x108 + 16 * l.val)) v) s (fun t =>
          ((t.eng.shfState[i]).lanes[l]).toNat = v.toNat % 2 ^ 32 * 2 ^ 64 + (st.lanes[l]).toNat % 2 ^ 64))) ∧
    (e.fifo ≠ [] → Completes (.shfJaBaseWrite i v) s (fun t => t.eng.shfState = s.eng.shfState ∧ (t.engine .shf i).err = e.err ||| 16) ∧
      Completes (.shfStateWrite i 0x0D0 v) s (fun t => t.eng.shfState = s.eng.shfState ∧ (t.engine .shf i).err = e.err ||| 16))

/-- R48, R49, R51: an anchored sum is what the pseudocode of R48 returns, in whatever order its terms are visited and in whatever groups they are
gathered: its integer is the wrapped sum of the terms' rounded integers, its special part is the join of the terms' special parts, and neither these
nor its flags and its sign memory depend on order; 2^(G−1) − 1 terms never wrap. R49: join is commutative and associative, with its table; partial
sums combine by join, addition and logical AND; a NaN gives the canonical quiet NaN, opposite infinities NaN, and infinities of one sign that
infinity. -/
def Obligations.AnchoredSumIgnoresOrderAndGrouping : Prop :=
  (∀ (win : Window) (a : Int) (ts us : List FVal), 1 ≤ win.g →
    let admitted (t : FVal) : Option (Bool × Nat × Int) := match t with
      | .fin neg mag e => if mag = 0 ∨ (mag.log2 : Int) + e < a then some (neg, mag, e) else none
      | _ => none
    let q (t : FVal) : Int := (admitted t).elim 0 (fun x => (roundNeInt x.1 x.2.1 (x.2.2 + win.w - a)).1)
    let special (t : FVal) : Special := match t with
      | .nan => .nan
      | .inf neg => if neg then .ninf else .pinf
      | .fin neg _ _ => if (admitted t).isSome then .finite else if neg then .ninf else .pinf
    let r := ASum.terms win a {} ts
    r.s = wrapInt (win.w + win.g) (ts.map q).sum ∧ r.n = ts.length ∧
    (ts.length < 2 ^ (win.g - 1) → r.s = (ts.map q).sum) ∧
    (r.ax = true ↔ ∃ t ∈ ts, admitted t = none ∧ t.isNan = false ∧ t.isInf = false) ∧
    r.sp = (ts.map special).foldr Special.join .finite ∧ (r.negOnly = true ↔ ∀ t ∈ ts, t.neg = true) ∧
    (ts.Perm us → ASum.terms win a {} us = r) ∧
    ASum.merge win r (ASum.terms win a {} us) = ASum.terms win a {} (ts ++ us)) ∧
  (∀ x y z : Special, x.join y = y.join x ∧ (x.join y).join z = x.join (y.join z) ∧ Special.finite.join x = x ∧ Special.nan.join x = .nan ∧
    Special.pinf.join .pinf = .pinf ∧ Special.ninf.join .ninf = .ninf ∧ Special.pinf.join .ninf = .nan) ∧
  (∀ (win : Window) (a : Int) (x y : ASum),
    (ASum.merge win x y).s = wrapInt (win.w + win.g) (x.s + y.s) ∧ (ASum.merge win x y).sp = x.sp.join y.sp ∧
    (ASum.merge win x y).n = x.n + y.n ∧ (ASum.merge win x y).negOnly = (x.negOnly && y.negOnly) ∧
    (x.sp = .nan → x.value win a = .nan) ∧ (x.sp = .pinf → x.value win a = .inf false) ∧ (x.sp = .ninf → x.value win a = .inf true)) ∧
  ∀ (m : Rnd) (flush : Bool), (fp64.encode m flush .nan).1 = 0x7FF8_0000_0000_0000 ∧ (fp32.encode m flush .nan).1 = 0x7FC0_0000 ∧
    (fp16.encode m flush .nan).1 = 0x7E00 ∧ (bf16.encode m flush .nan).1 = 0x7FC0

/-! ### The cadence unit and registers -/

/-- R24, R25: a marker whose CRC does not check only sets MARKER_BAD. One whose CRC checks is accepted: 16 in a row on time make its source valid,
three in a row that differ from the node's count end the locked source's validity, the selected source's next marker loads the count in ACQUIRING and
the one after, which is M (R29), loads it again, and
the secondary's next marker after the active source is lost is a failover, and in free-run the second marker out of step of an eligible source is a
jump: count and phase become the source's, and a jump forward then releases what it passed over (R27). Three intervals without an accepted marker end a source's validity, and the
locked node enters FREE_RUN where no failover applies. R25 to R35, R44: with no valid source 2 s after reset the counter starts at 0 and aligns in
free-run; forced free-run is entered at phase 0; the handshake completes at M+4, phase 1,024, repeats up to three times, and then reports the dies that
mismatch and fails bring-up for the P-die or F-die, or takes the Decks out of service (each repeat from the next marker, or in free-run from the next
phase 0); an interval ends at the next phase 0, where the work of a tick
is done; a write of CAD_CTRL sets its fields, and a node that waited for a failover that is no longer possible enters FREE_RUN; an action releases
when the counter reaches its release time, and an engine's first effect comes 4 ac later, Trick's 16 where a collective may start, a Decant's 32. -/
def Obligations.CadenceFollowsItsMarkers : Prop :=
  (∀ (s : State) (src : Fin 33) (count : Count) (crc : Byte), s.serves = true →
    let x := s.cad.sources[src]
    let good := crc.toNat = cadenceCrc count.toNat
    (¬ good → Answers (exec (.marker src count crc) s) (s.cadEvent 32)) ∧
    (good → (s.cad.st = .freeRun → s.cad.jumpFrom ≠ some src) → Completes (.marker src count crc) s (fun t =>
      let y := t.cad.sources[src]
      y.seen = true ∧ y.lastCount = count ∧ y.lastAt = s.cad.refAc ∧ t.mem = s.mem ∧ t.cores = s.cores ∧
      (x.seen = true → count = x.lastCount + 1 → x.lastAt + 59998 ≤ s.cad.refAc → s.cad.refAc ≤ x.lastAt + 60002 → 15 ≤ x.run →
        s.cad.st.locked = false → y.valid = true) ∧
      (s.cad.st.locked = true → src = s.cad.active → count ≠ (s.expected src).1 → t.cad.events.getLsbD 5 = true ∧
        (x.valid = true → x.differ = 2 → y.valid = false)) ∧
      (s.cad.st = .acquiring → s.cad.selected = some src → x.valid = true →
        let at_ := count.toNat * 60000 + s.srcDelay src
        t.cad.st = .aligning ∧ t.cad.active = src ∧ t.cad.awaitsM = true ∧ t.cad.count = BitVec.ofNat 48 (at_ / 60000) ∧ t.cad.phase = at_ % 60000) ∧
      (s.cad.awaitsM = true → src = s.cad.active → x.valid = true →
        let at_ := count.toNat * 60000 + s.srcDelay src
        t.cad.st = .aligning ∧ t.cad.markerM = some count ∧ t.cad.count = BitVec.ofNat 48 (at_ / 60000) ∧ t.cad.phase = at_ % 60000) ∧
      (s.cad.canFailover = true → s.cad.selPending = false → src = s.cad.secondarySrc → s.cad.selected ≠ some src →
        s.cad.valid s.cad.active = false → count = (s.expected src).1 →
        t.cad.st = .lockedSecondary ∧ t.cad.active = src ∧ t.cad.events.getLsbD 1 = true ∧ t.cad.count = s.cad.count ∧ t.cad.phase = s.cad.phase))) ∧
    (good → s.cad.st = .freeRun → s.cad.jumpFrom = some src → s.cad.eligible src = true → x.valid = true →
      let T := count.toNat * 60000 + s.srcDelay src
      let jumped (u : State) : Prop := u.cad.count = BitVec.ofNat 48 (T / 60000) ∧ u.cad.phase = T % 60000 ∧
        u.cad.jumpDelta = BitVec.ofInt 48 ((T : Int) - s.now) ∧ u.cad.st = s.cad.lockOn src ∧ u.cad.active = src ∧
        u.cad.events.getLsbD 3 = true ∧ u.cad.events.getLsbD 4 = true ∧ u.mem = s.mem ∧ u.cores = s.cores
      (s.now < T → ∃ u, Answers (exec (.marker src count crc) s) (u.passOverAll s.now) ∧ jumped u) ∧
      (T ≤ s.now → Completes (.marker src count crc) s jumped)) ∧
    (x.valid = true → x.lastAt + 180000 ≤ s.cad.refAc → Completes (.sourceInvalid src) s (fun t =>
      t.cad.sources[src] = { x with valid := false, run := 0, differ := 0 } ∧
      (s.cad.st.locked = true → src = s.cad.active → t.cad.events.getLsbD 0 = true ∧
        t.cad.st = (if s.cad.canFailover then s.cad.st else .freeRun) ∧ t.cad.count = s.cad.count ∧ t.cad.phase = s.cad.phase)))) ∧
  (∀ (s : State) (bad : BitVec 6) (v : W64), s.serves = true →
    (s.cad.st = .acquiring → (∀ i : Fin 33, s.cad.sources[i].valid = false) → 1_200_000_000 ≤ s.cad.refAc →
      Answers (exec .acquireTimeout s) ((s.onCad (fun c => { c with
        st := .aligning, count := 0, phase := 0, alignFree := true, attempts := 0, markerM := some 0 })).dutyStep.onBoot (fun b => { b with
          stage := if b.stage = 4 then 6 else b.stage }))) ∧
    (s.cad.st.locked = true → s.cad.src = 2 → s.cad.phase = 0 → Completes .forcedFreeRun s (fun t =>
      t.cad.st = .freeRun ∧ t.cad.events.getLsbD 2 = true ∧ t.cad.count = s.cad.count ∧ t.cad.phase = 0)) ∧
    (∀ m, s.cad.st = .aligning → s.cad.markerM = some m → (m.toNat + 4) * 60000 + 1024 ≤ s.now → (∀ r ∈ s.resets, r.step ≠ 4) →
      let locks : Cadence := { s.cad with st := if s.cad.active = 32 then .lockedElectrical else .lockedPrimary }
      (bad = 0 → Completes (.alignmentHandshake bad) s (fun t => t.cad.aligned = true ∧
        t.cad.st = if s.cad.alignFree = false ∧ (s.cad.valid s.cad.active = true ∨ locks.canFailover = true) then locks.st else .freeRun)) ∧
      (bad ≠ 0 → s.cad.attempts < 2 → Answers (exec (.alignmentHandshake bad) s)
        (s.onCad (fun c => { c with attempts := c.attempts + 1, markerM := if c.alignFree then some (c.count + 1) else none }))) ∧
      (2 ≤ s.cad.attempts → (bad.getLsbD 4 || bad.getLsbD 5) = true → Completes (.alignmentHandshake bad) s (fun t =>
        t.boot.stage = 0xF ∧ t.boot.failCode = 1 ∧ t.cad.aligned = s.cad.aligned ∧ t.inv.failedDies = s.inv.failedDies ||| bad)) ∧
      (2 ≤ s.cad.attempts → bad ≠ 0 → (bad.getLsbD 4 || bad.getLsbD 5) = false → Completes (.alignmentHandshake bad) s (fun t =>
        t.cad.aligned = true ∧ ∀ d : Fin 4, bad.getLsbD d = true → t.inv.deckAbsent[d] = true ∧ t.inv.failedDies.getLsbD d = true))) ∧
    (s.cad.st ≠ .acquiring → s.cad.phase < 60000 → ∃ u : State, Answers (exec .cadenceIntervalTick s) u.cycleDone ∧
      u.cad.phase = 0 ∧ u.cad.count = s.cad.count + 1 ∧ u.cad.refAc = s.cad.refAc + (60000 - s.cad.phase) ∧
      ∀ c : Fin 192, (u.core c).cycle = (s.core c).cycle + BitVec.ofNat 64 (3 * (60000 - s.cad.phase))) ∧
    Completes (.cadCtrlWrite v) s (fun t =>
      t.cad.secondary.toNat = field v.toNat 20 16 ∧ t.cad.primary.toNat = field v.toNat 12 8 ∧ t.cad.secEnable = v.getLsbD 0 ∧
      t.cad.src.toNat = (if field v.toNat 5 4 = 3 then s.cad.src.toNat else field v.toNat 5 4) ∧
      t.cad.st = (if s.cad.st.locked = true ∧ s.cad.valid s.cad.active = false ∧ (s.cad.setCtrl v).canFailover = false then .freeRun else s.cad.st) ∧
      t.cad.active = s.cad.active ∧ t.cad.count = s.cad.count ∧ t.cad.phase = s.cad.phase) ∧
    (∀ k (i : Fin 64), (s.engine k i).head.phase = .waitRelease → (s.engine k i).runBit = true →
      let rel := (s.engine k i).headRelease k
      (relReached s rel = true → Answers (exec (.actionRelease (.eng k i)) s)
        ((s.onHead k i (fun h => { h with phase := .waitPips, firstEffect := relTime rel + 4 })).ckpAdvance.trkAdvance)) ∧
      (relReached s rel = false → Answers (exec (.actionRelease (.eng k i)) s) (s.ckpAdvance.trkAdvance))) ∧
    Answers (exec (.actionRelease .trick) s) ((s.onTrk (fun t => { t with running := t.running.map (fun c =>
      if c.phase = .waitRelease ∧ relReached s c.release.toNat then
        (if s.trk.runBit = true ∧ s.trk.started < 8 then { c with phase := .released, firstEffect := relTime c.release.toNat + 16 }
         else { c with phase := .blocked })
      else c) })).ckpAdvance.trkAdvance) ∧
    (∀ r, s.ckp.cur = some r → s.ckp.phase = .waitRelease → relReached s r.release.toNat = true →
      Answers (exec (.actionRelease .decant) s)
        ((s.onCkp (fun k => { k with phase := .released, firstEffect := relTime r.release.toNat + 32 })).ckpAdvance.trkAdvance)))

/-! ### Memory-side operations -/

/-- R249, R250, R269: a memory-side operation on plain elements that its checks pass writes each element's result of R250's table from its old value
and its source, leaves every other byte of memory, and returns the old values where it fetches; CAS writes its second word only where the old value
equals the first. R252: an operation whose target is outside the windows, whose anchored target lies in no region, whose extent leaves the windows or
whose target is not aligned is rejected as a whole with ADDR, AREG_NONE, ADDR or ALIGN, and applies nothing; a Plain FADD puts the attached job outside the
promise whatever comes of it (R251). IADD, SMIN, SMAX, UMIN, UMAX, MSIDE_FMIN, MSIDE_FMAX, PLAIN_FADD, SWAP and CAS complete wherever the memory is
clean and no staged hand, reset or retrain holds it. (FMIN and FMAX take FLUSH as R144 has it: log entry 16.) -/
def Obligations.MemorySideOperationsApplyOrRejectWhole : Prop :=
  (∀ (s : State) (q : MsReq) (f : Fmt), s.serves = true → s.msFree .controller q = true → fmtOfCode q.fmt.toNat = some f →
    msTakes q.code.toNat q.fmt.toNat = true →
    let z := f.bits / 8
    let a := q.target.toNat
    let p := s.applyMs q
    a % z = 0 → s.cleanHbm a (q.count * z) →
    (∀ r ∈ plainRows f q.flush, q.code.toNat = r.2.1 → Applies r.1 s q ∧ p.2.status = 0 ∧
      (∀ e, e < q.count → p.1.wordAt (a + e * z) z =
        r.2.2 (s.wordAt (a + e * z) z) (leNat ((List.range z).map (fun k => payloadByte q.payload (e * z + k))))) ∧
      p.2.fetched = (if msFetches q.code.toNat q.fetch then s.readMem a (q.count * z) else []) ∧ KeepsOutside s p.1 a (q.count * z)) ∧
    (let n := f.bits
     let ff := (f.ff).getD fp64
     let dec (x : Nat) : FVal := (ff.decodeFlush q.flush x).1
     let src (e : Nat) : Nat := leNat ((List.range z).map (fun k => payloadByte q.payload (e * z + k)))
     let done (i : Instr) (res : Nat → Nat → Nat) : Prop := ∃ t, exec i s = .next t ∧ KeepsOutside s t a (q.count * z) ∧
       ∀ e, e < q.count → t.wordAt (a + e * z) z = res (s.wordAt (a + e * z) z) (src e)
     (q.code = 0x01 → done (.iadd (.given q)) (fun old x => (old + x) % 2 ^ n)) ∧
     (q.code = 0x02 → done (.smin (.given q)) (fun old x => if toSigned n x < toSigned n old then x else old)) ∧
     (q.code = 0x03 → done (.smax (.given q)) (fun old x => if toSigned n old < toSigned n x then x else old)) ∧
     (q.code = 0x04 → done (.umin (.given q)) (fun old x => min old x)) ∧
     (q.code = 0x05 → done (.umax (.given q)) (fun old x => max old x)) ∧
     (q.code = 0x06 → done (.msideFmin (.given q)) (fun old x => (ff.encode .rne q.flush (fMin (dec old) (dec x))).1)) ∧
     (q.code = 0x07 → done (.msideFmax (.given q)) (fun old x => (ff.encode .rne q.flush (fMax (dec old) (dec x))).1)) ∧
     (q.code = 0x08 → done (.plainFadd (.given q)) (fun old x => (ff.encodeX .rne q.flush (xAdd false (dec old) (dec x))).1)) ∧
     (q.code = 0x10 → done (.swap (.given q)) (fun _ x => x)) ∧
     (q.code = 0x11 → q.count = 1 → ∃ t, exec (.cas (.given q)) s = .next t ∧ KeepsOutside s t a 8)) ∧
    (q.code.toNat = 0x11 → q.count = 1 → Applies .cas s q ∧ p.2.status = 0 ∧
      (let w (off : Nat) : Nat := leNat ((List.range 8).map (fun k => payloadByte q.payload (off + k)))
       p.1.wordAt a 8 = (if s.wordAt a 8 = w 0 then w 8 else s.wordAt a 8)) ∧
      p.2.fetched = s.readMem a 8 ∧ KeepsOutside s p.1 a 8)) ∧
  (∀ (s : State) (q : MsReq), s.serves = true → s.msFree .controller q = true →
    let a := q.target.toNat
    let anchored := q.code = 0x09 ∨ q.code = 0x0A ∨ q.code = 0x0B
    let z := if anchored then (s.aregOf a).elim 16 (fun xr => if xr.2.fp64Class then 32 else 16) else fmtBytes q.fmt.toNat
    let rejected (status : Nat) : Prop := (s.applyMs q).2.status = status ∧ (s.applyMs q).1 = s.notePlain q.code.toNat
    ∀ r ∈ memorySideRows, q.code.toNat = r.2 → q.code ≠ 0x0C → Applies r.1 s q ∧
      (s.inHbm a 1 = false → rejected 0x04) ∧
      (s.inHbm a 1 = true → anchored → s.aregOf a = none → rejected 0x07 ∧ (s.applyMs q).2.fetched = []) ∧
      (s.inHbm a 1 = true → (anchored → s.aregOf a ≠ none) → s.inHbm a (q.count * z) = false → rejected 0x04) ∧
      (s.inHbm a 1 = true → (anchored → s.aregOf a ≠ none) → s.inHbm a (q.count * z) = true → a % z ≠ 0 → rejected 0x05))

/-- R254, R257: AADD adds each source to its cell as one term of the region's window under its anchor, ACLEAR sets cells to 0, AREAD changes no memory
and returns the cells rounded to nearest even; a recipe that passes all its checks applies its element operations in order, and one that fails any of
them, or is not loaded, applies none, ends RECIPE_FAULT and sets MEM_ERR bit 4. -/
def Obligations.AnchoredCellsAndRecipes : Prop :=
  ∀ (s : State) (q : MsReq), s.serves = true → s.msFree .controller q = true →
    let a := q.target.toNat
    let p := s.applyMs q
    (∀ x r f, s.aregOf a = some (x, r) → fmtOfCode q.fmt.toNat = some f →
      let z := if r.fp64Class then 32 else 16
      let win := cellWin r.fp64Class
      let cell (t : State) (e : Nat) : ASum := cellOf r.fp64Class (t.readMem (a + e * z) z)
      a % z = 0 → s.cleanHbm a (q.count * z) → a + q.count * z ≤ r.base.toNat + r.size.toNat →
      msTakes q.code.toNat q.fmt.toNat = true → classTakes q.code.toNat q.fmt.toNat r.fp64Class = true →
      (q.code = 0x09 → Applies .aadd s q ∧ p.2.status = 0 ∧ KeepsOutside s p.1 a (q.count * z) ∧
        ∀ e, e < q.count → p.1.readMem (a + e * z) z = cellBits r.fp64Class (ASum.term win r.anchor.toInt (cell s e)
          (f.decode r.flush (leNat ((List.range (f.bits / 8)).map (fun k => payloadByte q.payload (e * (f.bits / 8) + k))))).1)) ∧
      (q.code = 0x0A → Applies .aclear s q ∧ p.2.status = 0 ∧ KeepsOutside s p.1 a (q.count * z) ∧
        ∀ e, e < q.count → p.1.readMem (a + e * z) z = List.replicate z 0) ∧
      (q.code = 0x0B → Applies .aread s q ∧ p.2.status = 0 ∧ p.1.mem = s.mem ∧
        p.2.fetched = ((List.range q.count).map (fun e =>
          leBytes (f.bits / 8) (f.encode .rne r.flush ((cell s e).value win r.anchor.toInt)).1)).flatten)) ∧
    (q.code = 0x0C → s.mem.upset = [] → s.inHbm a 1 = true →
      let img := vget s.hbm.recipes q.recipe.toNat []
      let els := recipeRun img q.payload q.flush 32 0 (List.replicate 8 0) []
      Applies .recipe s q ∧
      (img ≠ [] → (∀ e ∈ els, s.recipeElem e = 0) →
        p = (els.foldl (fun t e => (t.elemApply (t.aregOf e.addr) e (t.elemBytes e)).1) (els.foldl (fun t e => t.notePlain e.code) s), ⟨0, []⟩)) ∧
      (s.splitBytes ≤ s.liveBytes → img = [] ∨ (∃ e ∈ els, s.recipeElem e ≠ 0) → p.2.status = 0x08 ∧ p.1.mem = s.mem ∧
        (p.1.ctl (s.ctlOf a)).err.getLsbD 4 = true))

/-- R235, R246 to R248, R253, R258: a write of MEM_CTRL takes each field that it may, and refuses a change of WIN_SPLIT while a job is attached or
above L with CFG_BUSY; a region is declared, or refused VALID with AREG_OVERLAP or AREG_RANGE in every controller; MEM_RETRAIN requests a retrain,
which starts while no other channel of the stack retrains and its Deck is not in reset (R412), reopens the queue when its check passes, repeats once, and then fences the channel, which
ends a checkpoint step that meets it (R365); what waited for the queue then goes on. -/
def Obligations.ControllersTakeSettingsRegionsAndRetrains : Prop :=
  ∀ (s : State) (k : Fin 16) (x : Fin 64) (ch : Fin 32) (temp : BitVec 8) (v : W64), s.serves = true →
    let c := s.ctl k
    let n := v.toNat
    Completes (.memCtrlWrite k v) s (fun t =>
      (t.ctl k).scrubHours.toNat = (if 1 ≤ n % 64 ∧ n % 64 ≤ 48 then n % 64 else c.scrubHours.toNat) ∧
      t.hbm.sachet.toNat = (if s.hbm.trainedOnce = false ∧ field n 10 8 ≤ 4 then field n 10 8 else s.hbm.sachet.toNat) ∧
      (field n 26 16 ≠ s.hbm.winSplit.toNat → s.job.attached = true ∨ field n 26 16 * 2 ^ 20 > t.liveBytes →
        t.hbm.winSplit = s.hbm.winSplit ∧ (t.ctl k).err.getLsbD 6 = true) ∧
      (field n 26 16 = s.hbm.winSplit.toNat ∨ (s.job.attached = false ∧ field n 26 16 * 2 ^ 20 ≤ t.liveBytes) →
        t.hbm.winSplit.toNat = field n 26 16)) ∧
    Completes (.aregDeclare x v) s (fun t =>
      let r := s.hbm.areg[x]
      let extent := (r.base.toNat, r.size.toNat)
      let badRange := v.getLsbD 0 && (r.size == 0 || !(s.inOneWindow r.base.toNat r.size.toNat))
      let overlap := v.getLsbD 0 && decide (∃ y : Fin 64, y ≠ x ∧ (s.hbm.areg[y]).valid = true ∧
        overlaps extent ((s.hbm.areg[y]).base.toNat, (s.hbm.areg[y]).size.toNat) = true)
      t.hbm.areg[x] = { r with anchor := BitVec.ofNat 16 (field n 31 16), flush := v.getLsbD 2, fp64Class := v.getLsbD 1
                               valid := v.getLsbD 0 && !badRange && !overlap } ∧
      (∀ y : Fin 64, y ≠ x → t.hbm.areg[y] = s.hbm.areg[y]) ∧ t.mem = s.mem ∧
      ∀ j : Fin 16, (badRange = true → (t.ctl j).err.getLsbD 7 = true) ∧ (overlap = true → (t.ctl j).err.getLsbD 5 = true) ∧
        (badRange = false → overlap = false → t.ctl j = s.ctl j)) ∧
    Answers (exec (.memRetrain k v) s) ((if v.getLsbD 8 = true ∧ c.retraining.getLsbD (n % 32) = false then
      s.onCtl k (fun c => { c with retrainReq := c.retrainReq ||| BitVec.ofNat 32 (2 ^ (n % 32)) }) else s).noted .mem k 0x048 0 n) ∧
    (s.deckResetting (k.val / 4) = true → Answers (exec (.channelRetrain k ch temp) s) s) ∧
    (c.trained = true → c.retraining = 0 → s.deckResetting (k.val / 4) = false → c.fencedCh.getLsbD ch = false → s.pchOut (64 * k.val + 2 * ch.val) = false →
      c.wantsRetrain ch temp.toInt = true → Answers (exec (.channelRetrain k ch temp) s) (s.onCtl k (fun c => { c with
        retraining := BitVec.ofNat 32 (2 ^ ch.val), retrainReq := c.retrainReq &&& ~~~(BitVec.ofNat 32 (2 ^ ch.val)) }))) ∧
    (c.retraining.getLsbD ch = true →
      (∃ u : State, Answers (exec (.channelRetrainDone k ch true temp) s) u.goOn ∧
        (u.ctl k).retraining = c.retraining &&& ~~~(BitVec.ofNat 32 (2 ^ ch.val)) ∧
        vget (u.ctl k).trainTemp ch 0 = temp.toInt ∧ (u.ctl k).err = c.err ∧ (u.ctl k).fencedCh = c.fencedCh ∧ u.mem = s.mem) ∧
      ((∀ f ∈ c.retrainFails, f.1 ≠ ch.val) → Answers (exec (.channelRetrainDone k ch false temp) s)
        (s.onCtl k (fun c => { c with retrainFails := (ch.val, 1) :: c.retrainFails }))) ∧
      ((∃ f ∈ c.retrainFails, f.1 = ch.val) → s.deckResetting (k.val / 4) = false → ∃ u : State,
        Answers (exec (.channelRetrainDone k ch false temp) s) u.ckpFenced.goOn ∧
        (u.ctl k).retraining = c.retraining &&& ~~~(BitVec.ofNat 32 (2 ^ ch.val)) ∧ (u.ctl k).fencedCh.getLsbD ch = true ∧ (u.ctl k).err.getLsbD 3 = true ∧
        (u.ctl k).failing.getLsbD (2 * ch.val) = true ∧ (u.ctl k).failing.getLsbD (2 * ch.val + 1) = true ∧ u.mem = s.mem))

/-- R242, R245: the scrubber of a pseudo-channel in service reads its transfers in increasing offset, and each read decodes in table order: data as
read; poisoned; corrected, written back and counted; or uncorrectable, written back poisoned, counted, with UNCORR set; one pass a period. R232: a
report of the stack itself is in an error record, and changes nothing that the scrubber does. (That periods count from count 0, and the record's class
and code, are the model's: log entry 30.) -/
def Obligations.PatrolScrubDecodesItsTransfer : Prop :=
  ∀ (s : State) (k : Fin 16) (pch : Fin 64) (noise : List (Fin 36 × BitVec 16)) (report : Bool), s.serves = true → s.mem.wf = true →
    let c := (s.ctl k).inPeriod s.cad.count
    let off := vget c.scrubAt pch 0
    let line := pchKey (64 * k.val + pch.val) off / 64
    let e := noise.map (fun x => (x.1.val, x.2.toNat))
    let xored (t : State) (p : Pattern) : Prop := ∀ i, i < 64 → t.mem.get (line * 64 + i) = s.mem.get (line * 64 + i) ^^^ patternByte p i
    let others (t : State) : Prop := ∀ key, key / 64 ≠ line → t.mem.get key = s.mem.get key
    c.trained = true → s.pchOut (64 * k.val + pch.val) = false → c.fencedCh.getLsbD (pch.val / 2) = false →
    c.retraining.getLsbD (pch.val / 2) = false → c.scrubbed.getLsbD pch = false → s.deckResetting (k.val / 4) = false →
    off + 64 ≤ 2 ^ 30 → s.mem.upset = [] →
    exec (.patrolScrub k pch ⟨noise, true⟩) s = exec (.patrolScrub k pch ⟨noise, false⟩) (s.stackReport k pch) ∧
    Completes (.patrolScrub k pch ⟨noise, report⟩) s (fun t =>
      vget (t.ctl k).scrubAt pch 0 = (if off + 64 = 2 ^ 30 then 0 else off + 64) ∧
      (t.ctl k).scrubbed = (if off + 64 = 2 ^ 30 then c.scrubbed ||| BitVec.ofNat 64 (2 ^ pch.val) else c.scrubbed) ∧ t.cores = s.cores ∧ others t ∧
      (noise = [] → t.mem = s.mem ∧ (t.ctl k).corr = c.corr ∧ (t.ctl k).uncorr = c.uncorr) ∧
      (noise ≠ [] → match decodePattern (s.mem.isPoison line) e with
        | .clean p => xored t p ∧ t.mem.upset = [] ∧ t.mem.isPoison line = false ∧ (t.ctl k).corr = c.corr
        | .poisoned _ => t.mem.cells = s.mem.cells ∧ t.mem.isPoison line = true ∧ (t.ctl k).corr = c.corr
        | .corrected p => xored t p ∧ t.mem.upset = [] ∧ t.mem.isPoison line = false ∧ (t.ctl k).corr = satAdd c.corr 1
        | .uncorrectable p => xored t p ∧ t.mem.upset = [] ∧ t.mem.isPoison line = true ∧ (t.ctl k).uncorr = satAdd c.uncorr 1 ∧
            (t.ctl k).err.getLsbD 2 = true))

/-! ### The fabric -/

/-- R275, R277, R291, R377, R384: a tagged write whose tag stands in the replay table is answered with the recorded outcome and applies nothing; a retry
under an incarnation that is not current is answered REPLAY_LOST and applies nothing; any other is applied and recorded, unless a Deck in reset, a
staged hand or a retrain makes it wait. A write that has been applied is not applied again when it is retried. (REPLAY_LOST is answered with STATUS
0x09, or 0x02 to an ATOM: R271 gives it no code of its own, and these are the DEDUCED row of log entry 18.) -/
def Obligations.WritesTakeEffectExactlyOnce : Prop :=
  ∀ (s : State) (p : Packet), s.serves = true → s.takesRequest p →
    let a := p.hdr.laddr.toNat
    let n := p.payload.length
    let q := (s.packetReq p).1
    let atomWaits : Bool := (s.msReach q).any (fun x => s.stagedHit x.1 x.2) || s.msShut .fdie q
    let writes : List ((Packet → Instr) × Nat × Bool × Bool × (State × Nat × List Byte)) :=
      [(.store, 2, s.heldAt a n, s.stagedHit a n || s.shutAt .fdie a n, s.applyStore p),
       (.rputPacket, 3, s.heldAt a n, s.stagedHit a n || s.shutAt .fdie a n, s.applyStore p),
       (.atomPacket, 4, (s.msHeld q).isSome, atomWaits, s.applyAtom p)]
    ∀ w ∈ writes, p.hdr.kind.toNat = w.2.1 →
      (∀ r, s.replayOf p = some r → Answers (exec (w.1 p) s) (s.respond p 0x82 r.code.toNat r.fetched p.kh)) ∧
      (s.replayOf p = none → p.hdr.retry = true → p.hdr.incarnation ≠ s.fab.incarnation → s.heldWrite p = false →
        Answers (exec (w.1 p) s) (s.respond p 0x82 (if w.2.1 = 4 then 0x02 else 0x09) [] p.kh)) ∧
      (s.replayOf p = none → p.hdr.retry = false ∨ p.hdr.incarnation = s.fab.incarnation →
        (w.2.2.1 = false → w.2.2.2.1 = false →
          Answers (exec (w.1 p) s) (w.2.2.2.2.1.recordsAndAnswers (s.srcKey p) p w.2.2.2.2.2.1 w.2.2.2.2.2.2)) ∧
        (w.2.2.1 = true → Completes (w.1 p) s (fun t => t.mem = s.mem ∧ t.fab.replay = s.fab.replay ∧ t.heldWrite p = true)) ∧
        (w.2.2.1 = false → w.2.2.2.1 = true →
          Completes (w.1 p) s (fun t => t.mem = s.mem ∧ t.fab.replay = s.fab.replay ∧
            ∃ x ∈ t.hnd.waiting, x.1 = s.srcKey p ∧ x.2.hdr.tag = p.hdr.tag ∧ x.2.hdr.kind = p.hdr.kind ∧ x.2.hdr.laddr = p.hdr.laddr))) ∧
      (s.replayOf p = none → p.hdr.retry = false → w.2.2.1 = false → w.2.2.2.1 = false → w.2.1 ≠ 4 →
        Completes (w.1 p) s (fun t => t.mem = (if s.remoteReach a p.payload.length then (s.writeMem a p.payload).mem else s.mem) ∧
          Completes (w.1 { p with hdr := { p.hdr with retry := true } }) t (fun u => u.mem = t.mem ∧ u.fab.replay = t.fab.replay)))

/-- R272, R275, R283, R285, R301, R304, R307: a LOAD is answered with the bytes of an HBM window or a Suit buffer, with ADDR outside them, with POISON
where a transfer is poisoned; an INVAL drops this node's copies of the range and is acknowledged; a CONFIRM frees the entries that it covers. Every
request of a foreign job tag or a departed sender is dropped and counted, one of an older epoch is counted, and a fenced node takes none. -/
def Obligations.RequestsAreServedOrDropped : Prop :=
  ∀ (s : State) (p : Packet), s.serves = true →
    let a := p.hdr.laddr.toNat
    let n := p.hdr.len.toNat
    let rows : List ((Packet → Instr) × Nat) := [(.load, 1), (.store, 2), (.rputPacket, 3), (.atomPacket, 4), (.invalPacket, 5), (.confirm, 6)]
    (s.takesRequest p → p.hdr.kind = 1 → s.freeNow a n →
      (s.remoteReach a n = false → Answers (exec (.load p) s) (s.respond p 0x81 0x04 [] .none)) ∧
      (s.remoteReach a n = true → Answers (exec (.load p) s) (if (s.settle a n).poisonedIn a n then (s.settle a n).respond p 0x81 0x06 [] .none
        else (s.settle a n).respond p 0x81 0 ((s.settle a n).readMem a n) .none))) ∧
    (s.takesRequest p → p.hdr.kind = 5 → Completes (.invalPacket p) s (fun t => t.mem = s.mem ∧
      (∀ x, s.nodeOfRank (s.slotRank p.hdr.rangeSlot.toNat) = some x →
        ∀ l ∈ t.fab.rrc, l ∈ s.fab.rrc ∧ ¬ (l.node = x ∧ a / 256 ≤ l.line ∧ l.line < a / 256 + p.hdr.count.toNat)) ∧
      ∃ r, r ∈ t.tx ∧ r.hdr.kind = 0x82 ∧ r.hdr.status = 0 ∧ r.hdr.tag = p.hdr.tag)) ∧
    (p.hdr.kind = 6 → (p.srcRank = none ∧ s.takesRequest p) ∨ (∃ r, p.srcRank = some r ∧ (p.hdr.jobTag = 0 ∨ s.takesRequestOf r p)) →
      Completes (.confirm p) s (fun t => t.mem = s.mem ∧ t.cores = s.cores ∧
        (∀ r, (r ∈ t.fab.replay ↔ r ∈ s.fab.replay ∧ ¬ (r.key = s.frameKey p ∧ (p.hdr.tag - r.tag).toNat < 32768)) ∧
          (r ∈ t.fab.msgReplay ↔ r ∈ s.fab.msgReplay ∧ ¬ (r.key = s.frameKey p ∧ (p.hdr.tag - r.tag).toNat < 32768))))) ∧
    (∀ r ∈ rows, p.hdr.kind.toNat = r.2 →
      let sender := if r.2 = 6 then p.srcRank.getD (s.srcRank p) else s.srcRank p
      (r.2 ≠ 6 ∨ p.srcRank = none ∨ p.hdr.jobTag ≠ 0) →
      (s.flt.fenced = true → Answers (exec (r.1 p) s) s) ∧
      (s.flt.fenced = false → p.hdr.jobTag ≠ s.fab.jobTag ∨ s.goneRank sender p.hdr.epoch = true →
        Answers (exec (r.1 p) s) (s.onFab (fun f => { f with foreignTag := satAdd f.foreignTag 1 }))) ∧
      (s.takesFrom sender p → s.packageResetting = true → Answers (exec (r.1 p) s) s) ∧
      (s.takesFrom sender p → s.packageResetting = false → p.hdr.epoch ≠ s.fab.epoch → p.hdr.epoch + 1 ≠ s.fab.epoch → p.hdr.epoch.toNat < s.fab.epoch.toNat →
        Answers (exec (r.1 p) s) (s.onFab (fun f => { f with staleEpoch := satAdd f.staleEpoch 1 }))))

/-- R272, R276, R278, R282, R284: data of a load writes its register and lets its core go on; data of an RGET is written, and an error code leaves
its destination unwritten, or poisoned where it is POISON, and sets REMOTE_STATUS; an error code traps a load; an answer waits where its way retrains
(R384); an interim HELD restarts the retries; a line in flight is installed unless an invalidation has covered it. A response for an operation that is unknown
is counted. -/
def Obligations.ReadsEndWithTheirData : Prop :=
  ∀ (s : State) (id : Nat) (o : OutOp) (p : Packet), s.serves = true → s.op id = some o → s.takesFrom o.rank p → p.hdr.kind = 0x81 →
    (o.kind = .load ∨ o.kind = .rget → (∃ c w, o.st = .unknown c w) →
      Answers (exec (.data id p) s) (s.onFab (fun f => { f with lateAck := satAdd f.lateAck 1 }))) ∧
    (o.kind = .load ∨ o.kind = .rget → o.st = .outstanding → s.answerWaits o = false →
      (p.hdr.status = 0x0D → Answers (exec (.data id p) s) (s.onOp id (fun x => { x with retries := 0, held := true, sentAt := s.now }))) ∧
      (∀ line, p.hdr.status = 0 → line = p.hdr.laddr.toNat / 256 → line ∈ o.want → (∃ l ∈ o.want, l ≠ line) →
        Completes (.data id p) s (fun t => t.mem = s.mem ∧ t.cores = s.cores ∧
          (o.noInstall.contains line = true ∨ s.rrcUsed o.addr.toNat = false → t.fab.rrc = s.fab.rrc) ∧
          (o.noInstall.contains line = false → s.rrcUsed o.addr.toNat = true → t.rrcGet o.node line = some p.payload)))) ∧
    (o.kind = .load → o.st = .outstanding → ∀ c d size sg toF, o.core = some c → (s.core c).stall = some (.load id d size sg toF) →
      s.fabricShut c = false → o.want = [] →
      (p.hdr.status = 0 → Leaves (.data id p) s
        ((s.dropOp id).coreRuns c (fun x => ({ x with stall := none }).setLoaded d toF (loadValue size sg p.payload)))) ∧
      (p.hdr.status = 0x04 → Answers (exec (.data id p) s) ((s.dropOp id).trap c 3)) ∧
      (p.hdr.status = 0x06 → Answers (exec (.data id p) s) ((s.dropOp id).trap c 5))) ∧
    (o.kind = .rget → o.st = .outstanding → o.want = [] → p.hdr.status = 0 → s.blockWaits .fdie o.localAddr o.len = false →
      Answers (exec (.data id p) s) (if o.core = none then s.dropOp id
        else ((s.putLocal o.localAddr p.payload).arrive o.localAddr p.payload.length).dropOp id)) ∧
    (o.kind = .rget → o.st = .outstanding → o.core ≠ none → s.blockWaits .fdie o.localAddr o.len = false →
      p.hdr.status = 0x04 ∨ p.hdr.status = 0x06 →
      Completes (.data id p) s (fun t => t.mem.cells = s.mem.cells ∧ t.cores = s.cores ∧ t.op id = none ∧ t.fab.err.getLsbD 0 = true ∧
        (p.hdr.status = 0x04 → t.mem = s.mem) ∧
        (p.hdr.status = 0x06 → (∀ l ∈ extentLines o.localAddr o.len, t.mem.isPoison (s.lineOf l) = true) ∧
          ∀ line, (∀ l ∈ extentLines o.localAddr o.len, line ≠ s.lineOf l) → t.mem.isPoison line = s.mem.isPoison line))) ∧
    (o.kind = .load ∨ o.kind = .rget → o.st = .outstanding → s.answerWaits o = true → p.hdr.status ≠ 0x0D →
      Answers (exec (.data id p) s) (s.onFab (fun f => { f with answers := f.answers ++ [(id, p)] })))

/-- R270, R274 to R276, R278: a final acknowledgement ends its operation: the issuer holds the outcome, an error code sets REMOTE_STATUS, and a core
that waits for a fetching ATOM gets its status; an interim one restarts the retries; one that says the operation is lost makes it unknown; one for an
operation that is unknown is counted. An operation without an answer for TIMEOUT is sent again, up to LIMIT times, and then is unknown; an entry of
the replay table is freed 16 cd after its write. R288, R290, R295: when every target of a hand has acknowledged its decision, or that acknowledgement
is unknown, FETCHED of a shown hand, OUTCOME and G[D] are written and its core goes on, with HAND_UNKNOWN where an acknowledgement of SHOW is unknown; a
staging packet that is unknown folds its hand with UNREACHABLE. (Which code says that an operation is lost: log entry 18. That an outcome waits at the F-die where
its way retrains: R384.) -/
def Obligations.AcknowledgementsAndRetries : Prop :=
  ∀ (s : State) (p : Packet) (o : OutOp) (key : Nat) (tag : BitVec 16), s.serves = true →
    let plain := o.kind = .store ∨ o.kind = .rput ∨ o.kind = .atom ∨ o.kind = .invalSend ∨ (o.kind = .msg ∧ o.core ≠ none)
    let outcome (h : HandOut) (shown : Bool) : Nat := if shown then (if h.silent = [] then 0 else 2) else 1
    let told (h : HandOut) (code : Nat) (t : State) : Prop := t.handOut h.num = none ∧ (t.core h.core).stall = none ∧
      (t.core h.core).pc = (s.core h.core).pc + 4 ∧ (t.core h.core).gr = ((s.core h.core).setG h.dreg (BitVec.ofNat 64 code)).gr
    let header (h : HandOut) (code : Nat) : List Byte :=
      leBytes 1 code ++ leBytes 1 (if code = 1 then h.reason else 0) ++ leBytes 1 (if code = 1 then h.foldSlot else 0xFF)
    (s.takesFrom (s.ackRank p) p → p.hdr.kind = 0x82 → p.hdr.jobTag ≠ 0 → s.ackedOp p = some o → plain →
      (o.isUnknown = true → Answers (exec (.ack p) s) (s.onFab (fun f => { f with lateAck := satAdd f.lateAck 1 }))) ∧
      (o.isUnknown = false →
        (interimCode p.hdr.status.toNat = true →
          Answers (exec (.ack p) s) (s.onOp o.id (fun x => { x with retries := 0, held := true, sentAt := s.now }))) ∧
        (p.hdr.status = 0x02 ∨ p.hdr.status = 0x09 ∨ p.hdr.status = 0x0A → Completes (.ack p) s (fun t =>
          t.fab.unknown = satAdd s.fab.unknown 1 ∧ t.fab.err.getLsbD 1 = true ∧ (s.waitsFor o = false → t.mem = s.mem) ∧
          ∃ x ∈ t.fab.ops, x.id = o.id ∧ x.isUnknown = true)) ∧
        (p.hdr.status = 0 → s.waitsFor o = false → Completes (.ack p) s (fun t => t.mem = s.mem ∧ t.cores = s.cores ∧ t.fab.err = s.fab.err ∧
          ∃ x ∈ t.fab.ops, x.id = o.id ∧ x.st = .acked 0)) ∧
        (p.hdr.status = 0x04 → s.waitsFor o = false → Completes (.ack p) s (fun t => t.mem = s.mem ∧ t.cores = s.cores ∧
          t.fab.err.getLsbD 0 = true ∧ ∃ x ∈ t.fab.ops, x.id = o.id ∧ x.st = .acked 4)) ∧
        (o.kind = .atom → s.waitsFor o = true → s.outcomeShut o = true → p.hdr.status.toNat < 9 → p.hdr.status ≠ 2 →
          Completes (.ack p) s (fun t => t.mem = s.mem ∧ t.cores = s.cores ∧ (o.id, p) ∈ t.fab.answers)) ∧
        (∀ c d, p.hdr.status.toNat < 9 → p.hdr.status ≠ 2 → o.core = some c → (s.core c).stall = some (.atom o.id d) →
          s.outcomeShut o = false →
          Completes (.ack p) s (fun t => (t.core c).stall = none ∧ (t.core c).pc = (s.core c).pc + 4 ∧
            t.mem = (s.putLocal (o.localAddr + 320) (p.data.take 16)).mem ∧
            (t.core c).gr = ((s.core c).setG (Fin.ofNat 32 d) (p.hdr.status.setWidth 64)).gr)))) ∧
    (∀ hh h shown, s.takesFrom (s.ackRank p) p → p.hdr.kind = 0x82 → p.hdr.jobTag ≠ 0 → s.ackedOp p = some o → o.isUnknown = false → o.kind = .hand →
      p.hdr.status.toNat < 9 → p.hdr.status ≠ 2 → o.pkt.kh = .hand hh → s.handOut hh.hand = some h → h.decided = some shown →
      o.pkt.hdr.kind = (if shown then 0x0A else 0x0B) →
      let old := h.fetched ++ (if shown then fetchedOf (h.entries.filter (fun e => e.slot = o.slot)) p.data else [])
      ((∃ x ∈ h.slots, x ≠ o.slot ∧ x ∉ h.acks ∧ x ∉ h.silent) → Completes (.ack p) s (fun t => t.mem = s.mem ∧ t.cores = s.cores ∧
        ∃ y, t.handOut hh.hand = some y ∧ o.slot ∈ y.acks ∧ y.decided = h.decided ∧ y.fetched = old)) ∧
      ((∀ x ∈ h.slots, x = o.slot ∨ x ∈ h.acks ∨ x ∈ h.silent) → h.absorbed = false → s.handShut h = false →
        Completes (.ack p) s (fun t => told h (outcome h shown) t ∧ (outcome h shown = 2 → t.hnd.err.getLsbD 0 = true) ∧
          t.mem = (((if outcome h shown = 0 then old else []).foldl (fun u ef => u.putLocal (h.block + 2112 + 16 * ef.1) ef.2) s).putLocal
            (h.block + 1) (header h (outcome h shown))).mem))) ∧
    (∀ id, s.op id = some o → o.st = .outstanding → o.kind ≠ .localAtom → o.sentAt + s.fab.timeout.toNat ≤ s.now →
      (∀ x ∈ s.fab.answers, x.1 ≠ id) →
      (o.held = true ∨ o.retries < s.fab.limit.toNat → Completes (.retryTimeout id) s (fun t => t.mem = s.mem ∧ t.cores = s.cores ∧
        t.op id = some { o with retries := if o.held then 0 else o.retries + 1, held := false, sentAt := s.now
                                port := s.portFor { o.pkt with hdr := { o.pkt.hdr with retry := true } } o.port } ∧
        (s.flt.fenced = false → t.tx = s.tx ++ o.frames.map (fun q => { q with hdr := { q.hdr with retry := true, epoch := s.fab.epoch } })))) ∧
      (∀ hh h, o.held = false → s.fab.limit.toNat ≤ o.retries → o.kind = .hand → o.pkt.kh = .hand hh → s.handOut hh.hand = some h →
        (o.pkt.hdr.kind = 0x08 → h.decided = none → Completes (.retryTimeout id) s (fun t =>
          ∃ y, t.handOut hh.hand = some y ∧ y.decided = some false ∧ y.reason = 2)) ∧
        (o.pkt.hdr.kind = 0x0A → h.decided = some true → (∀ x ∈ h.slots, x = o.slot ∨ x ∈ h.acks ∨ x ∈ h.silent) → h.absorbed = false →
          s.handShut h = false → Completes (.retryTimeout id) s (fun t => told h 2 t ∧ t.hnd.err.getLsbD 0 = true ∧
            t.mem = (s.putLocal (h.block + 1) (header h 2)).mem))) ∧
      (o.held = false → s.fab.limit.toNat ≤ o.retries → o.kind = .store ∨ o.kind = .rput ∨ o.kind = .invalSend ∨ (o.kind = .msg ∧ o.core ≠ none) →
        Completes (.retryTimeout id) s (fun t => t.mem = s.mem ∧ t.cores = s.cores ∧ t.fab.unknown = satAdd s.fab.unknown 1 ∧
          t.fab.err.getLsbD 1 = true ∧ ∃ x ∈ t.fab.ops, x.id = id ∧ x.isUnknown = true))) ∧
    Completes (.replayEntryExpiry key tag) s (fun t =>
      (∀ r, (r ∈ t.fab.replay ↔ r ∈ s.fab.replay ∧ ¬ (r.key = key ∧ r.tag = tag ∧ r.at_ + 960000 ≤ s.now)) ∧
        (r ∈ t.fab.msgReplay ↔ r ∈ s.fab.msgReplay ∧ ¬ (r.key = key ∧ r.tag = tag ∧ r.at_ + 960000 ≤ s.now))) ∧ t.mem = s.mem ∧ t.cores = s.cores)

/-- R259 to R262, R276, R286: a flit of a port that is up is taken where its CRC checks and its sequence number is the next, answered with an
acknowledgement, and else with a negative one; the codewords that came with symbols corrected are counted, and one whose wavelength passes FEC_LIMIT
within a cd fails it; a wavelength that fails gives its share to a spare, and the port degrades below 8 and goes down below 4; FAB_RETRY is refused above 900,000 ac with FAB_ERR.CFG; FAB_CTRL sets its fields, and RRC_EN 0 empties the cache; a role changes only while no job
is attached. (The places of the sequence number and the type in a flit's link header are log entry 13's DESIGN CHOICE; codewords given as corrected and
one acknowledging flit for each flit are log entry 12's.) -/
def Obligations.LinksWavelengthsAndFabricRegisters : Prop :=
  ∀ (s : State) (port : Fin 32) (flit : List Byte) (fec : List (Fin 10 × Fin 16)) (w : Fin 10) (v : W64), s.serves = true →
    let x := s.fab.ports[port]
    let n := v.toNat
    (x.up = false → Answers (exec (.flitReceive port ⟨flit, fec⟩) s) s) ∧
    (x.up = true → Completes (.flitReceive port ⟨flit, fec⟩) s (fun t =>
      let y := t.fab.ports[port]
      let seq := BitVec.ofNat 12 (leAt flit 0 8)
      t.mem = s.mem ∧ t.cores = s.cores ∧
      (flitOk flit = true → field (leAt flit 0 8) 27 24 = 0 → seq = x.rxNext →
        y.rxNext = x.rxNext + 1 ∧ y.rxData = x.rxData ++ slice flit 8 240) ∧
      (flitOk flit = false ∨ (field (leAt flit 0 8) 27 24 = 0 ∧ seq ≠ x.rxNext) → y.rxNext = x.rxNext ∧ y.rxData = x.rxData ∧
        flitBytes 0 x.rxNext 2 [] ∈ y.txFlits) ∧
      y.fecCorr = satAdd x.fecCorr (fec.filter (fun c => decide (0 < c.2.val))).length ∧
      (∀ k : Fin 16, fec = [(w, k)] →
        let sum := (if x.fecCd = s.cad.count then x.fecSyms[w] else 0) + k.val
        y.fecCd = s.cad.count ∧ y.fecSyms[w] = sum ∧ (x.fecLimit.toNat < sum → y.failed.getLsbD w = true ∧ y.activeW.getLsbD w = (x.activeW.getLsbD w && x.failed.getLsbD w)) ∧
        (sum ≤ x.fecLimit.toNat → y.failed = x.failed ∧ y.activeW = x.activeW)))) ∧
    (x.up = false ∨ x.failed.getLsbD w = true → Answers (exec (.wavelengthFailing port w) s) s) ∧
    (x.up = true → x.failed.getLsbD w = false → Completes (.wavelengthFailing port w) s (fun t =>
      let y := t.fab.ports[port]
      let moves := x.activeW.getLsbD w && decide (x.moving.length < popCount 10 (x.working &&& ~~~x.activeW).toNat)
      y.failed = x.failed ||| BitVec.ofNat 10 (2 ^ w.val) ∧ y.activeW = x.activeW &&& ~~~(BitVec.ofNat 10 (2 ^ w.val)) ∧
      y.switching = (x.switching || moves) ∧ y.moving = (if moves then x.moving ++ [w] else x.moving) ∧ t.mem = s.mem ∧ t.cores = s.cores ∧
      y.degraded = decide (popCount 10 y.activeW.toNat < 8) ∧ y.up = decide (4 ≤ popCount 10 y.working.toNat) ∧
      (y.up = false → t.fab.err.getLsbD 3 = true))) ∧
    (x.switching = true → Completes (.wavelengthSpared port) s (fun t =>
      let y := t.fab.ports[port]
      y.moving = x.moving.drop 1 ∧ y.switching = !(x.moving.drop 1).isEmpty ∧ y.failed = x.failed ∧ t.mem = s.mem ∧ t.cores = s.cores ∧
      (∀ q, x.spareW = some q → y.activeW = x.activeW ||| BitVec.ofNat 10 (2 ^ q) ∧ t.fab.err.getLsbD 2 = true) ∧
      (x.spareW = none → y.activeW = x.activeW))) ∧
    (900000 < (field n 35 32 + 1) * field n 19 0 → Completes (.fabRetryWrite v) s (fun t =>
      t.fab.limit = s.fab.limit ∧ t.fab.timeout = s.fab.timeout ∧ t.fab.err.getLsbD 4 = true)) ∧
    ((field n 35 32 + 1) * field n 19 0 ≤ 900000 → Answers (exec (.fabRetryWrite v) s)
      (s.onFab (fun f => { f with limit := BitVec.ofNat 4 (field n 35 32), timeout := BitVec.ofNat 20 (field n 19 0) }))) ∧
    Answers (exec (.fabCtrlWrite v) s) (s.onFab (fun f => { f with
      rackBase := BitVec.ofNat 16 (field n 31 16), mySlot := BitVec.ofNat 6 (field n 13 8), rrcEn := n.testBit 1, enable := n.testBit 0
      rrc := if n.testBit 1 then f.rrc else [] })) ∧
    Completes (.portRoleWrite port v) s (fun t =>
      let y := t.fab.ports[port]
      y.fecLimit = BitVec.ofNat 16 (n / 2 ^ 16) ∧ (s.job.attached = true → y.role = x.role ∧ y.up = x.up) ∧
      (s.job.attached = false → y.role = BitVec.ofNat 2 n ∧ (n % 4 = 0 → y.up = false) ∧ (n % 4 ≠ 0 → y.up = x.up)))

/-! ### Hands, messages, partners -/

/-- R290 to R294, R304, R309: a hand packet is acted on once, when its last segment has come. An HSTAGE with room whose entries pass their checks and
meet no other hand is held and voted STAGED; without room it folds with CAPACITY, one whose check fails with CHECK; one whose bytes meet those of
other hands folds with OVERLAP, with those of them that have not voted, and the issuers of the others are asked to fold them. The last STAGED vote decides SHOW, a FOLD vote or an HFOLD_REQ before the decision FOLD. HSHOW applies the held
entries in entry order and answers with the old values; HFOLD discards them. An HQUERY departs the issuer and is answered with the state, behind a
decision that has arrived before. -/
def Obligations.HandsVoteDecideAndApply : Prop :=
  ∀ (s : State) (p : Packet) (hh : HandHdr), s.serves = true → s.takesRequest p → p.kh = .hand hh →
    let src := p.hdr.srcSlot.toNat
    let es := (List.range hh.nent.toNat).map (fun i => entryOf p.data i (fun off n => slice p.data off n))
    let size := (es.map (fun e => e.payload.length)).sum
    let rows : List ((Packet → Instr) × Nat) := [(.hstage, 0x08), (.hvote, 0x09), (.hshow, 0x0A), (.hfold, 0x0B), (.hfoldReq, 0x0C), (.hquery, 0x0D)]
    let quiet := p.hdr.kind = 0x0D → s.showWaits hh.issuer.toNat hh.hand = false
    let sent (t : State) (kind : Nat) (v : HandHdr → Prop) : Prop :=
      (∃ r x, r ∈ t.tx ∧ r.hdr.kind.toNat = kind ∧ r.kh = .hand x ∧ v x) ∨ (∃ x ∈ t.hnd.unsent, x.kind = kind ∧ v x.hdr)
    let folded (t : State) (reason : Nat) : Prop := (∀ x ∈ t.hnd.inn, x.issuer = src → x.num = hh.hand → x.st = .discarded) ∧
      sent t 0x09 (fun v => v.hand = hh.hand ∧ v.code = 1 ∧ v.reason.toNat = reason)
    (∀ w ∈ rows, p.hdr.kind.toNat = w.2 → quiet → ∀ n, p.total = some n →
      let same (x : Partial) : Bool := x.key == s.frameKey p && x.kind == p.hdr.kind && x.tag == p.hdr.tag && x.total == n
      let pieces := (p.off, p.data) :: ((s.fab.parts.find? same).elim [] (·.pieces)).filter (fun x => x.1 ≠ p.off)
      let others := s.fab.parts.filter (fun x => !(same x))
      (joinPieces n pieces = none → Answers (exec (w.1 p) s) (s.onFab (fun f => { f with parts := others ++ [⟨s.frameKey p, p.hdr.kind, p.hdr.tag, n, pieces⟩] }))) ∧
      (∀ data, joinPieces n pieces = some data →
        exec (w.1 p) s = exec (w.1 { p with data := data, off := 0, total := none }) (s.onFab (fun f => { f with parts := others })))) ∧
    (∀ w ∈ rows, p.hdr.kind.toNat = w.2 → quiet → p.total = none → ∀ r, s.replayOf p = some r →
      Answers (exec (w.1 p) s) (s.respond p 0x82 r.code.toNat r.fetched p.kh)) ∧
    (s.replayOf p = none → p.hdr.retry = false → p.total = none →
      (p.hdr.kind = 0x08 → Answers (exec (.hstage p) s) ((s.takeStage p hh).recordsAndAnswers (s.srcKey p) p 0 []) ∧
        (s.handIn src hh.hand = none → s.mem.upset = [] →
          (s.stagedHands < 256 → s.stagedBytes + size ≤ 2 ^ 20 → (∀ e ∈ es, s.entryCheck e = 0) →
            (∀ e ∈ es, s.busyAt .fdie (s.entryReach e).1 (s.entryReach e).2 = false) →
            (∀ g ∈ s.hnd.inn, g.holds = true → anyOverlap (es.map s.entryExtent) (s.handExtents g) = false) →
            Completes (.hstage p) s (fun t => t.mem = s.mem ∧ (∃ h, t.handIn src hh.hand = some h ∧ h.st = .voted ∧ h.entries = es) ∧
              let node := (s.translate src).getD ⟨0, 0⟩
              (s.unconfirmed (keyNode node) < 4096 → (∀ x ∈ s.hnd.unsent, x.node ≠ node) →
                ∃ r v, r ∈ t.tx ∧ r.hdr.kind = 0x09 ∧ r.kh = .hand v ∧ v.hand = hh.hand ∧ v.code = 0) ∧
              (4096 ≤ s.unconfirmed (keyNode node) ∨ (∃ x ∈ s.hnd.unsent, x.node = node) →
                ∃ x ∈ t.hnd.unsent, x.kind = 0x09 ∧ x.node = node ∧ x.hdr.hand = hh.hand ∧ x.hdr.code = 0))) ∧
          (s.stagedHands < 256 → s.stagedBytes + size ≤ 2 ^ 20 → (∀ e ∈ es, s.busyAt .fdie (s.entryReach e).1 (s.entryReach e).2 = false) →
            ((∃ e ∈ es, s.entryCheck e ≠ 0) → Completes (.hstage p) s (fun t => folded t 3)) ∧
            ((∀ e ∈ es, s.entryCheck e = 0) →
              let rival (g : HandIn) : Prop := g ∈ s.hnd.inn ∧ g.holds = true ∧ anyOverlap (es.map s.entryExtent) (s.handExtents g) = true
              (∃ g, rival g) → Completes (.hstage p) s (fun t => folded t 1 ∧
                (∀ g, rival g → g.st = .staged → ∀ x ∈ t.hnd.inn, x.issuer = g.issuer → x.num = g.num → x.st = .discarded) ∧
                (∀ g, rival g → g.st = .voted → sent t 0x0C (fun v => v.hand = g.num ∧ v.reason = 1)) ∧
                ((∀ g, rival g → g.st = .voted) → ∀ g, rival g → ∃ x ∈ t.hnd.inn, x.issuer = g.issuer ∧ x.num = g.num ∧ x.st = .voted)))) ∧
          (256 ≤ s.stagedHands ∨ 2 ^ 20 < s.stagedBytes + size → ∃ h, h.num = hh.hand ∧ h.entries = es ∧
            s.takeStage p hh = (s.onHnd (fun x => { x with
              inn := x.inn.filter (fun g => !(g.issuer = src && g.num = hh.hand && !g.holds)) ++ [h] })).foldVote h foldCapacity))) ∧
      (p.hdr.kind = 0x09 → ∀ h, s.handOut hh.hand = some h → h.decided = none →
        (hh.code = 1 → Completes (.hvote p) s (fun t => ∃ y, t.handOut hh.hand = some y ∧ y.decided = some false ∧ y.reason = hh.reason.toNat ∧ y.foldSlot = src)) ∧
        (hh.code ≠ 1 → (∀ x ∈ h.slots, x = src ∨ x ∈ h.votes) → Completes (.hvote p) s (fun t => ∃ y, t.handOut hh.hand = some y ∧ y.decided = some true)) ∧
        (hh.code ≠ 1 → (∃ x ∈ h.slots, x ≠ src ∧ x ∉ h.votes) → Completes (.hvote p) s (fun t => ∃ y, t.handOut hh.hand = some y ∧ y.decided = none ∧
          src ∈ y.votes))) ∧
      (p.hdr.kind = 0x0A →
        (∀ h, s.votedHere hh = some h →
          ((∀ e ∈ h.entries, s.shutAt .fdie (s.entryReach e).1 (s.entryReach e).2 = false) →
            Answers (exec (.hshow p) s) (((s.applyHand h).1.letGo h .applied).recordsAndAnswers (s.srcKey p) p 0 (s.applyHand h).2)) ∧
          ((∃ e ∈ h.entries, s.shutAt .fdie (s.entryReach e).1 (s.entryReach e).2 = true) →
            Completes (.hshow p) s (fun t => t.mem = s.mem ∧ t.hnd.inn = s.hnd.inn ∧ t.fab.replay = s.fab.replay ∧ t.hnd.waiting ≠ [])) ∧
          ((∀ e ∈ h.entries, e.kind = 2) → s.applyHand h =
            (h.entries.foldl (fun u e => (u.writeMem e.laddr e.payload).arrive e.laddr e.payload.length) s, []))) ∧
        (s.votedHere hh = none → Answers (exec (.hshow p) s) (s.recordsAndAnswers (s.srcKey p) p 0x09 []))) ∧
      (p.hdr.kind = 0x0B → Answers (exec (.hfold p) s) ((match s.handIn hh.issuer.toNat hh.hand with
        | some h => if h.holds then s.letGo h .discarded else s
        | none => s).recordsAndAnswers (s.srcKey p) p 0 [])) ∧
      (p.hdr.kind = 0x0C → ∀ h, s.handOut hh.hand = some h →
        (h.decided = none → Completes (.hfoldReq p) s (fun t => ∃ y, t.handOut hh.hand = some y ∧ y.decided = some false ∧ y.reason = hh.reason.toNat)) ∧
        (h.decided ≠ none → Answers (exec (.hfoldReq p) s) (s.recordsAndAnswers (s.srcKey p) p 0 []))) ∧
      (p.hdr.kind = 0x0D → s.departedRank (s.slotRank hh.issuer.toNat) = false →
        (∀ x ∈ s.fab.partners, x.rank.toNat ≠ s.slotRank hh.issuer.toNat) →
        Completes (.hquery p) s (fun t => t.departedRank (s.slotRank hh.issuer.toNat) = true ∧
          (s.showWaits hh.issuer.toNat hh.hand = true → t.hnd.waiting ≠ []))) ∧
      (p.hdr.kind = 0x0D → quiet → s.departedRank (s.slotRank hh.issuer.toNat) = true →
        (∀ x ∈ s.fab.partners, x.rank.toNat = s.slotRank hh.issuer.toNat → x.departed = true) →
        Answers (exec (.hquery p) s) (s.recordsAndAnswers (s.srcKey p) p 0 (leBytes 4 hh.hand.toNat ++ leBytes 1 hh.issuer.toNat ++
          leBytes 1 (match s.handIn hh.issuer.toNat hh.hand with
            | none => 0
            | some h => match h.st with
              | .staged => 1
              | .voted => 2
              | .applied => 3
              | .discarded => 4) ++ List.replicate 10 0))))

/-- R297, R298, R375, R377, R389, R424, R442: a message takes its slot with its first byte, is written into it once, and the slot's pip rises, at re-entry where its Deck is
in reset; one that its queue does not
take is refused MSG_BAD, MSG_BUSY or ADDR, one that finds the table full MSG_FULL, and one for a Deck in reset is held with HELD. A challenge is answered; a response that passes attests its partner;
a request of an attested job manager enters its mailbox; a witness counts a report under its suspect and window. -/
def Obligations.MessagesAndServiceFrames : Prop :=
  ∀ (s : State) (p : Packet) (h : RankHdr) (suspect : BitVec 32) (w : BitVec 48), s.serves = true → p.kh = .rank h →
    let key := keyRank h.srcRank.toNat
    let q := vget s.hnd.rxq (h.queue.toNat % 64) ⟨0, 0, 0, 12, 0, false, []⟩
    let i := h.slot.toNat
    let a := q.slotAddr i
    let fits := q.valid = true ∧ i < q.slots.toNat ∧ p.data.length ≤ 2 ^ q.slotLog2.toNat
    let took (u : State) (code : Nat) : State :=
      ((u.onFab (fun f => { f with msgReplay := f.msgReplay ++ [⟨key, p.hdr.tag, BitVec.ofNat 8 code, [], u.now⟩] })).onHnd (fun x => { x with
        claims := x.claims.filter (fun c => !(c.key = key && c.tag = p.hdr.tag)) })).ackRanked p code
    let qi := h.queue.toNat % 64
    let full := s.slotBusy key p.hdr.tag qi i = true
    let begun := s.msgBegun.contains (key, p.hdr.kind, p.hdr.tag)
    let rows := s.fab.msgReplay.length + (s.msgBegun.filter (fun x => x.2.1 == 0x10 || x.2.1 == 0x23)).length
    (p.hdr.kind = 0x10 → s.takesRequestOf h.srcRank.toNat p →
      (∀ r, replayOf s.fab.msgReplay key p.hdr.tag = some r → p.total = none → Answers (exec (.msg p) s) (s.ackRanked p r.code.toNat)) ∧
      (replayOf s.fab.msgReplay key p.hdr.tag = none → begun = false → 16384 ≤ rows →
        Answers (exec (.msg p) s) (if p.off = 0 then (s.hndErr 4).ackRanked p 0x0E else s)) ∧
      (replayOf s.fab.msgReplay key p.hdr.tag = none → p.hdr.retry = false → p.total = none → begun = true ∨ rows < 16384 →
        (q.valid = true → s.heldAt a p.data.length = true → Completes (.msg p) s (fun t => t.mem = s.mem ∧ t.hnd.rxq = s.hnd.rxq ∧
          t.fab.msgReplay = s.fab.msgReplay ∧ (∃ x ∈ t.fab.heldOps, x.key = key ∧ x.pkt.hdr.tag = p.hdr.tag) ∧
          ∃ r ∈ t.tx, r.hdr.kind = 0x82 ∧ r.hdr.status = 0x0D ∧ r.hdr.tag = p.hdr.tag)) ∧
        ((q.valid = true → s.freeNow a p.data.length) →
          (¬ fits → Answers (exec (.msg p) s) (took (s.hndErr 4) 0x0C)) ∧
          (fits → full → Answers (exec (.msg p) s) (took (s.hndErr 4) 0x0B)) ∧
          (fits → ¬ full → s.remoteReach a p.data.length = false → Answers (exec (.msg p) s) (took s 0x04)) ∧
          (fits → ¬ full → s.remoteReach a p.data.length = true → s.pieceQueue qi = false →
            Completes (.msg p) s (fun t => t.mem = (s.writeMem a p.data).mem ∧
              (s.deckResetting (q.suit.toNat / 4) = false → t.pipUp q.suit.toNat ((q.pipBase.toNat + i) % 4096) = true) ∧
              (s.deckResetting (q.suit.toNat / 4) = true → t.hbm.pips = s.hbm.pips ∧ (q.suit.toNat, q.pipBase.toNat + i) ∈ t.fab.heldPips) ∧
              i ∈ (vget t.hnd.rxq qi ⟨0, 0, 0, 12, 0, false, []⟩).busy ∧
              ∃ r, replayOf t.fab.msgReplay key p.hdr.tag = some r ∧ r.code = 0)))) ∧
      (∀ n, p.total = some n → replayOf s.fab.msgReplay key p.hdr.tag = none → begun = false → rows < 16384 → q.valid = true → i < q.slots.toNat →
        n ≤ 2 ^ q.slotLog2.toNat → ¬ full → joinPieces n [(p.off, p.data)] = none → Completes (.msg p) s (fun t => t.mem = s.mem ∧
          t.hbm.pips = s.hbm.pips ∧ t.slotBusy key p.hdr.tag qi i = false ∧
          ∀ k tag, k ≠ key ∨ tag ≠ p.hdr.tag → t.slotBusy k tag qi i = true))) ∧
    (p.hdr.jobTag = 0 → p.total = none → replayOf s.fab.replay (keyId h.srcId) p.hdr.tag = none → p.hdr.retry = false →
      let done (u : State) : State := u.tookRanked (keyId h.srcId) p
      (p.hdr.kind = 0x24 → Answers (exec (.attestReq p) s) (done (s.sendOutside 0x25 h.srcId h.srcRank (.port p.port) (s.rankHdr h.srcRank (s.nodeOfRank h.srcRank.toNat))
        (s.attestation (slice p.data 0 32) ++ Config.certificate)))) ∧
      (p.hdr.kind = 0x25 → ∀ x nonce, s.partnerOf h.srcId = some x → x.challenge = some nonce → Completes (.attestRsp p) s (fun t =>
        ∃ y, t.partner x.identity = some y ∧ y.challenge = none ∧
          y.attested = (if attestPasses nonce p.data && attestIdentity p.data == x.identity then true else x.attested))) ∧
      (p.hdr.kind = 0x26 → ∀ x, s.partnerOf h.srcId = some x → x.attested = true → s.isJobManager x.identity = true → ∀ m : Fin 16, h.slot.toNat = m.val →
        let msg := MbxMsg.ofBytes p.data
        let box := vget s.bnk.mbx (16 + m.val) Mailbox.reset
        (∀ k, box.msg.own = false → box.kept = some k → k.seq = msg.seq → k.part = msg.part →
          Answers (exec (.mbxReq p) s) (done (s.sendMbxRsp m.val x k))) ∧
        (box.msg.own = false → (∀ k, box.kept = some k → ¬ (k.seq = msg.seq ∧ k.part = msg.part)) → Completes (.mbxReq p) s (fun t =>
          let box' := vget t.bnk.mbx (16 + m.val) Mailbox.reset
          box'.msg = { msg with own := true } ∧ box'.from_ = some x.identity ∧ box'.kept = box.kept))) ∧
      (p.hdr.kind = 0x27 → Answers (exec (.mbxRsp p) s) (done s)) ∧ (p.hdr.kind = 0x28 → Answers (exec (.mbxEvent p) s) (done s))) ∧
    (p.hdr.kind = 0x23 → s.takesRequestOf h.srcRank.toNat p → p.total = none → replayOf s.fab.msgReplay key p.hdr.tag = none → p.hdr.retry = false →
      begun = true ∨ rows < 16384 →
      let who := BitVec.ofNat 32 (leAt p.data 8 4)
      let win := leAt p.data 0 8 % 2 ^ 48 / 16
      let reasons := BitVec.ofNat 5 (leAt p.data 12 1 % 32)
      (∀ e, s.flt.entries.find? (fun e => e.suspect = who ∧ e.w = win) = some e → Completes (.suspect p) s (fun t =>
        t.flt.counted = satAdd s.flt.counted 1 ∧ t.flt.forwarded = s.flt.forwarded ∧
        t.flt.entries.find? (fun e => e.suspect = who ∧ e.w = win) = some { e with count := e.count + 1, reasons := e.reasons ||| reasons })) ∧
      (s.flt.entries.find? (fun e => e.suspect = who ∧ e.w = win) = none → s.flt.entries.length < 256 → Completes (.suspect p) s (fun t =>
        t.flt.entries = s.flt.entries ++ [⟨who, win, 1, reasons⟩] ∧ t.flt.forwarded = satAdd s.flt.forwarded 1))) ∧
    ((∃ e ∈ s.flt.entries, e.suspect = suspect ∧ e.w = w.toNat) → 16 * (w.toNat + 1) * 60000 ≤ s.now → Completes (.witnessEntryFree suspect w) s (fun t =>
      t.flt.entries = s.flt.entries.filter (fun e => !(e.suspect = suspect && e.w = w.toNat))))

/-- R300, R303 to R306, R314, R379: a timely heartbeat renews its partner; the third miss in a row, or a FENCED frame, departs one, and frames of a
departed one are dropped and counted; a hello makes its sender known, and challenges it; a discovery epoch admits every partner that has been attested
and clean for two cd, and with an Abmos member sets OUTSIDE_PROMISE; a rank update takes effect at its release, with its epoch, and empties the read
cache; a receive queue is set while no slot of it is busy. -/
def Obligations.PartnersRankUpdatesAndQueues : Prop :=
  ∀ (s : State) (p : Packet) (id : BitVec 256) (x : Partner) (q : Fin 64) (cfg : Bool) (v : W64), s.serves = true →
    let c := srCount p
    let gone := s.goneRank (srRank p).toNat p.hdr.epoch = true
    (p.hdr.kind = 0x20 → s.flt.fenced = false → p.hdr.jobTag = s.fab.jobTag → p.hdr.jobTag ≠ 0 →
      (s.partner (srIdentity p) = some x → x.departed = true ∨ (gone ∧ x.admitted = false) → Answers (exec (.heartbeat p) s) s.dropForeign) ∧
      (s.partner (srIdentity p) = some x → x.departed = false → ¬ gone ∨ x.admitted = true → Completes (.heartbeat p) s (fun t => ∃ y, t.partner (srIdentity p) = some y ∧
        y.rank = srRank p ∧ y.incarnation = p.hdr.incarnation ∧ y.departed = false ∧
        (x.admitted = true → ∀ g ∈ t.fab.gone, g.1 = (srRank p).toNat → g.2 ≠ none) ∧
        (s.now ≤ c.toNat * 60000 + 2000 → x.lastBeat.toNat + x.misses < c.toNat → y.lastBeat = c ∧ y.misses = 0))) ∧
      (s.partner (srIdentity p) = none → gone → Answers (exec (.heartbeat p) s) s.dropForeign) ∧
      (s.partner (srIdentity p) = none → ¬ gone →
        Completes (.heartbeat p) s (fun t => ∃ y, t.partner (srIdentity p) = some y ∧ y.rank = srRank p))) ∧
    (s.partner id = some x → x.departed = false → s.flt.fenced = false → x.lastBeat ≠ 0 → x.lastBeat.toNat + x.misses + 1 ≤ s.beatDue →
      let missed := s.onPartner id (fun y => { y with misses := y.misses + 1 })
      Answers (exec (.heartbeatMiss id) s) (if x.misses + 1 < 3 then missed else missed.declareDeparted id 1)) ∧
    (p.hdr.kind = 0x22 → s.flt.fenced = false → p.hdr.jobTag = s.fab.jobTag →
      (gone ∨ (s.partner (srIdentity p) = some x ∧ x.departed = true) → Answers (exec (.fenced p) s) s.dropForeign) ∧
      (¬ gone → s.partner (srIdentity p) = none ∨ (s.partner (srIdentity p) = some x ∧ x.departed = false) → Answers (exec (.fenced p) s)
        (((s.knowPartner (srIdentity p) p.port).onPartner (srIdentity p) (fun y => { y with rank := srRank p })).declareDeparted (srIdentity p) 17))) ∧
    (p.hdr.kind = 0x21 → p.hdr.jobTag = 0 → s.flt.fenced = false → Completes (.hello p) s (fun t => t.mem = s.mem ∧
      ∃ y, t.partner (srIdentity p) = some y ∧ y.clean = srClean p ∧ y.incarnation = p.hdr.incarnation ∧
        (s.partner (srIdentity p) = none → y.challenge ≠ none ∧ ∃ r, r ∈ t.tx ∧ r.hdr.kind = 0x24))) ∧
    (s.cad.count.toNat % 1024 = 0 → s.cad.phase = 0 → s.cad.count.toNat ∈ s.fab.epochs → Answers (exec .discoveryEpoch s) s) ∧
    (s.cad.count.toNat % 1024 = 0 → s.cad.phase = 0 → s.cad.count.toNat ∉ s.fab.epochs → s.job.attached = true → s.flt.fenced = false →
      Completes .discoveryEpoch s (fun t =>
      let enters (y : Partner) : Bool := !y.admitted && y.attested && y.clean &&
        y.readySince.any (fun since => decide (since + 120000 ≤ s.cad.count.toNat * 60000))
      t.fab.partners = s.fab.partners.map (fun y => if enters y
        then { y with admitted := true, departed := false, misses := 0, lastBeat := s.cad.count } else y) ∧
      t.fab.notClean = satAdd s.fab.notClean (s.fab.partners.filter (fun y => !y.admitted && y.reported && !y.clean)).length ∧
      s.cad.count.toNat ∈ t.fab.epochs ∧
      t.job.outside = (s.job.outside || s.fab.partners.any (fun y => enters y && y.model == 2)) ∧ t.mem = s.mem ∧ t.cores = s.cores)) ∧
    (∀ u, s.fab.rankUpdate = some u → relReached s u.release.toNat = true → Completes .rankUpdateRelease s (fun t =>
      t.fab.ranks = u.entries.foldl (fun rs e => setRank rs e.1 e.2) s.fab.ranks ∧ t.fab.epoch = u.epoch ∧ t.fab.rankUpdate = none ∧ t.fab.rrc = [] ∧
      (∀ y ∈ s.fab.partners, y.departed = true → t.nodeOfRank y.rank.toNat ≠ s.nodeOfRank y.rank.toNat → (y.rank.toNat, some u.epoch) ∈ t.fab.gone) ∧
      t.mem = s.mem ∧ t.cores = s.cores)) ∧
    (let busy := (s.hnd.rxq[q]).busy
     (busy = [] → Answers (exec (.rxqWrite q cfg v) s) (s.onHnd (fun u => { u with rxq := vmod u.rxq q (fun y =>
       if cfg then y.setCfg v.toNat else { y with base := BitVec.ofNat 64 (v.toNat / 4096 * 4096) }) }))) ∧
     (busy ≠ [] → Completes (.rxqWrite q cfg v) s (fun t => t.hnd.rxq = s.hnd.rxq ∧ t.hnd.err.getLsbD 3 = true)))

/-! ### Trick and checkpoints -/

/-- R319 to R345: a launch is queued with its rank table, 16 at most; at the head it fails with the first check that it does not pass, or waits for its
release with a lag of 16 ac. A frame of a completed instance is counted stale, one that comes before its launch or start is kept; credits add up, an
ABORT ends the collective with 0x22, a chunk that has come already is ignored, one that fails its check is not acknowledged but asked for again, one that
passes it is added or placed, and one for memory that a reset or a retrain holds waits. A member for which alone a stage has waited SILENT_CD is silent,
status 0x20; a move chunk that has waited DETOUR_AC for credit is detoured to level 2. R335, R339, R344: a collective that an ABORT ends writes its record
with status 0x22 and raises no pip; when the last frame of one is acknowledged, the pips of the landing units that have become final rise, and so does
DONE_PIP, and its record with its flags is written. (A head's check and a frame meet the state as it is once the collectives that were ready have gone
on.) -/
def Obligations.TrickLaunchesAndFrames : Prop :=
  ∀ (s : State) (agent : Agent) (v : W64) (p : Packet) (h : TrkHdr) (slot : Fin 64) (inst rank : BitVec 32), s.serves = true →
    let a := s.trkAdvance
    let record (c : Collective) (t : State) (status : Nat) (named : BitVec 32) : List Byte :=
      leBytes 4 c.tag.toNat ++ leBytes 2 status ++
      leBytes 2 ((if status = 0 then c.flags.bits % 16 else 0) + 16 * c.late.toNat + 32 * c.detoured.toNat) ++
      leBytes 8 (c.start.getD t.stamp).toNat ++ leBytes 8 t.stamp.toNat ++ leBytes 4 named.toNat ++ leBytes 4 c.inst.toNat
    let ended (u t : State) (c : Collective) (status : Nat) (named : BitVec 32) : Prop := t.trk.cq.tail = u.trk.cq.tail + 1 ∧
      (c.progSlot % 64, c.inst) ∈ t.trk.done ∧
      ((u.storeOfExtent u.trk.cq.slot 32).any Store.shared = true → t.mem = (u.writeMem u.trk.cq.slot (record c u status named)).mem)
    (s.trk.queued < 16 → Answers (exec (.trickLaunch agent v) s)
      (s.onTrk (fun t => { t with queue := t.queue ++ [⟨v.toNat / 64 * 64, s.flushOf agent, s.fab.ranks⟩] }))) ∧
    (16 ≤ s.trk.queued → Answers (exec (.trickLaunch agent v) s) s) ∧
    (∀ q rest b, a.trk.queue = q :: rest → a.trk.runBit = true → (∀ c ∈ a.trk.running, c.phase ≠ .waitRelease ∧ c.phase ≠ .blocked) →
      a.readBlock (a.sharedExtent q.rec_ 64) q.rec_ 64 = .ok b →
      let n := leAt b 0 1 % 64
      let m := vget a.trk.progs n []
      let rel := leAt b 8 8
      let st := a.trkCheck q.ranks m rel
      (st ≠ 0 → Answers (exec .trickLaunchHead s) ((a.onTrk (fun t => { t with queue := rest })).trkFail n (BitVec.ofNat 32 (leAt b 4 4)) (BitVec.ofNat 32 (leAt b 16 4)) st)) ∧
      (st = 0 → Completes .trickLaunchHead s (fun t => t.trk.queue = rest ∧ t.mem = a.mem ∧ ∃ c, t.trk.running = a.trk.running ++ [c] ∧
        c.progSlot = n ∧ c.inst = BitVec.ofNat 32 (leAt b 4 4) ∧ c.tag = BitVec.ofNat 32 (leAt b 16 4) ∧ c.flush = q.flush ∧ c.image = m ∧
        c.members = trkMembers q.ranks m ∧ c.late = relLate a rel ∧
        c.phase = (if relReached a rel = false then .waitRelease else if a.trk.mayStart then .released else .blocked) ∧
        c.firstEffect = (if rel = relOnArrival ∨ relTime rel < a.now then a.now + 16 else relTime rel + 16)))) ∧
    (let rows : List ((Packet → Instr) × Nat) := [(.trkChunk, 0), (.trkCredit, 1), (.trkMaxima, 2), (.trkReady, 3), (.trkAbort, 4), (.trkResend, 5)]
     let key := a.trickKey h
     let n := h.progSlot.toNat
     ∀ r ∈ rows, p.kh = .trick h → p.hdr.kind = 0x18 → h.frame.toNat = r.2 → a.takesRequestOf h.srcRank.toNat p → p.total = none →
      (∀ x, replayOf a.fab.replay key p.hdr.tag = some x → Answers (exec (r.1 p) s) (a.ackRanked p x.code.toNat)) ∧
      (∀ c, replayOf a.fab.replay key p.hdr.tag = none → a.col n h.inst = some c → h.frame = 0 → c.phase = .running → a.trkBusy c = true →
        Completes (r.1 p) s (fun t => t.mem = a.mem ∧ t.trk = a.trk ∧ t.fab.replay = a.fab.replay ∧
          ((∃ x ∈ c.extents, a.heldAt x.1 x.2 = true) → (∃ x ∈ t.fab.heldOps, x.key = key ∧ x.pkt.hdr.tag = p.hdr.tag) ∧
            ∃ y ∈ t.tx, y.hdr.kind = 0x82 ∧ y.hdr.status = 0x0D ∧ y.hdr.tag = p.hdr.tag) ∧
          ((∀ x ∈ c.extents, a.heldAt x.1 x.2 = false) → t.hnd.waiting ≠ []))) ∧
      (replayOf a.fab.replay key p.hdr.tag = none → p.hdr.retry = false →
        (∀ c, a.col n h.inst = some c → h.frame = 0 → c.phase = .running → a.trkBusy c = false) →
        let took (u : State) : Prop := Answers (exec (r.1 p) s) (u.tookRanked key p)
        let early := took (a.onTrk (fun t => { t with early := t.early ++ [p] }))
        let stale := took (a.onTrk (fun t => { t with stale := satAdd t.stale 1 }))
        (a.trk.done.contains (n, h.inst) = true → stale) ∧
        (a.trk.done.contains (n, h.inst) = false → a.col n h.inst = none → early) ∧
        (∀ c, a.trk.done.contains (n, h.inst) = false → a.col n h.inst = some c → c.phase ≠ .running →
          (c.phase = .finished → stale) ∧
          (c.phase ≠ .finished → h.frame ≠ 4 → early) ∧
          (c.phase ≠ .finished → h.frame = 4 → took (a.trkFinish n h.inst 0x22 h.srcRank))) ∧
        (∀ c pos, a.trk.done.contains (n, h.inst) = false → a.col n h.inst = some c → c.phase = .running → c.posOf h.srcRank.toNat = some pos →
          (h.frame = 1 → took ((a.onCol n h.inst (fun x => { x with credits := countPut h.level.toNat pos (fun k => k + h.count.toNat) x.credits })).trkProgress n h.inst)) ∧
          (h.frame = 2 ∨ h.frame = 3 → took (a.trkMark c h pos p)) ∧
          (h.frame = 4 → took (a.trkFinish n h.inst 0x22 h.srcRank) ∧
            (a.trk.cq.full = false → Completes (r.1 p) s (fun t => ended a t c 0x22 h.srcRank ∧ t.hbm.pips = a.hbm.pips))) ∧
          (h.frame = 5 → took (a.trkAgain c h pos)) ∧
          (h.frame = 0 → a.chunkWaits c h pos = true → early) ∧
          (h.frame = 0 → c.chunkOf h pos = none → took a) ∧
          (h.frame = 0 → a.chunkWaits c h pos = false → ∀ x, c.chunkOf h pos = some x →
            let u := a.stageAt c.image x.level 0 p.data
            (x ∈ c.got → took a) ∧
            (x ∉ c.got →
              (∀ why, c.chunkBody x p.data = .error why → Answers (exec (r.1 p) s) (u.trkBadChunk c x pos why h.level.toNat)) ∧
              (∀ body, c.chunkBody x p.data = .ok body →
                took ((((u.trkApply c x p.hdr.code.toNat body).onCol n h.inst (fun y => { y with
                  got := x :: y.got, granted := countPut x.level pos (fun k => k - 1) y.granted })).trkGrant n h.inst x.level).trkProgress n h.inst))))))) ∧
    (∀ o c, s.takesFrom (s.ackRank p) p → p.hdr.kind = 0x82 → p.hdr.jobTag ≠ 0 → s.ackedOp p = some o → o.isUnknown = false →
      p.hdr.status.toNat < 9 → p.hdr.status ≠ 2 → o.kind = .trick → o.pkt.kh = .trick h →
      let u := ((s.dropOp o.id).confirmTo o).flushSends
      let m := c.image
      u.col h.progSlot.toNat h.inst = some c → c.phase = .running → u.trkBusy c = false → u.trkComplete c = true → c.isSum = false →
      (tReduce m = true → ∀ r ∈ c.owned, c.roundedRange r.1 r.2 = true) → (∀ k, k < tUnits m → k ∈ c.landed ∨ c.unitFinal k = true) →
      u.trk.cq.full = false → u.resets = [] → Completes (.ack p) s (fun t =>
        t.trk.cq.tail = u.trk.cq.tail + 1 ∧ (c.progSlot % 64, c.inst) ∈ t.trk.done ∧
        (∀ d ∈ tDecks m, ∀ q ∈ onesOf 4 (tDeck m d).suits, ∀ k, k < tUnits m → k ∉ c.landed →
          t.pipUp (4 * d + q) (((tDeck m d).pipBase + k) % 4096) = true) ∧
        (tCpip m = true → t.pipUp (tDoneSuit m) (tDonePip m % 4096) = true) ∧
        ((∀ k, k < tUnits m → k ∈ c.landed) → ended u t c 0 noRank))) ∧
    (∀ c pos, s.col slot inst = some c → c.posOf rank.toNat = some pos →
      (∀ stage since, c.phase = .running → (stage, pos, since) ∈ c.alone → since + tSilent c.image * 60000 ≤ s.now →
        Answers (exec (.rankSilent slot inst rank) s) (s.trkFinish slot inst 0x20 rank)) ∧
      (∀ x, c.sendable.find? (fun x => x.level = 1 && x.dst = pos && c.waits.any (fun y => y.1 = x && decide (y.2 + tDetourAc c.image ≤ s.now))) = some x →
        tDetour c.image = true → s.trkBusy c = false → Answers (exec (.detour slot inst rank) s)
          (((s.onCol slot inst (fun y => { y with sent := x :: y.sent, detoured := true })).sendChunk c x 2).trkProgress slot inst)))

/-- R35, R350 to R357, R363, R365: a Decant record is queued, 4 at most; the head is refused with the first check that it does not pass, or waits for its
release with a lag of 32 ac, and takes its snapshot in an enabled duty slot; at completion the twins hold the bytes of the snapshot and the Sachet is
HELD, or with a fenced channel the step is INCOMPLETE. A Dry-down starts in the cd after, is paused by DRY_PAUSE, and is lost with its storage partner; a
restore copies the twins back at its release, poison and all, and ends with the Sachet DRAINED, or with SHARD_BAD where it met poison or a fence. When
the last piece of a Dry-down is acknowledged the Sachet is DRAINED and DRY_STATUS is OK; a piece that is refused MSG_BUSY is sent again in the next cd,
and one with another outcome up to 3 times, after which the Dry-down is lost. -/
def Obligations.DecantsDryDownsAndRestores : Prop :=
  ∀ (s : State) (agent : Agent) (v : W64), s.serves = true →
    (s.ckp.queued < 4 → Answers (exec (.decantLaunch agent v) s) (s.onCkp (fun k => { k with queue := k.queue ++ [v.toNat / 64 * 64] }))) ∧
    (4 ≤ s.ckp.queued → Answers (exec (.decantLaunch agent v) s) s) ∧
    (∀ a rest, s.ckp.cur = none → s.ckp.phase = .idle → s.ckp.queue = a :: rest →
      let r := decantRec a (s.readMem a 64)
      let u := s.onCkp (fun k => { k with queue := rest })
      let st := s.decantCheck r false
      let rel := r.release.toNat
      (st ≠ 0 → Answers (exec .decantCheck s) (u.decantEnd r st)) ∧
      (st = 0 → Answers (exec .decantCheck s) (u.onCkp (fun k => { k with
        cur := some r, phase := if relReached s rel then .released else .waitRelease, late := relLate s rel
        firstEffect := if rel = relOnArrival ∨ relTime rel < s.now then s.now + 32 else relTime rel + 32 })).ckpAdvance)) ∧
    (∀ r, s.ckp.phase = .armed → s.ckp.cur = some r → s.ckp.queue = [] →
      Answers (exec .decantCheck s) (if s.ckp.firstEffect ≤ s.now ∧ s.pwr.slotOn = true then s.snapshot r else s)) ∧
    (∀ r m0, s.ckp.phase = .copying → s.ckp.cur = some r → s.ckp.snap = some m0 → s.ckpWaits = true ∨ s.pwr.slotOn = false → Answers (exec .decantComplete s) s) ∧
    (∀ r m0, s.ckp.phase = .copying → s.ckp.cur = some r → s.ckp.snap = some m0 → s.ckpWaits = false → s.pwr.slotOn = true →
      let risen (t : State) : Prop := s.deckResetting (r.doneSuit / 4) = false → t.pipUp r.doneSuit (r.donePip % 4096) = true
      (s.setFenced s.ckp.set = true → Completes .decantComplete s (fun t => t.ckp.st = .incomplete ∧ t.ckp.phase = .idle ∧ t.ckp.cur = none ∧
        t.ckp.err.getLsbD 1 = true ∧ risen t ∧ t.mem = (s.decantStatus r 40 0x34).mem)) ∧
      (s.setFenced s.ckp.set = false → Completes .decantComplete s (fun t => t.ckp.st = .held ∧ t.ckp.sachetStep = r.step ∧ t.ckp.lastStep = some r.step ∧
        t.ckp.phase = .idle ∧ t.ckp.cur = none ∧ t.ckp.dryReady = (if r.dryBudget = 0 then none else some r) ∧ t.ckp.dryReadyAt = s.cad.count.toNat + 1 ∧
        risen t ∧ t.ckp.index = (s.ckp.set.foldl (fun u e => u.copyEntry m0 e) s).shardIndex s.ckp.set ∧
        t.mem = ((s.ckp.set.foldl (fun u e => u.copyEntry m0 e) s).decantStatus r 40 0).mem)) ∧
      (∀ e, s.mem.wf = true → (∀ i j, i < e.len → j < e.len → s.twinOf (e.base + i) = s.twinOf (e.base + j) → i = j) →
        ∀ i, i < e.len → (s.copyEntry m0 e).mem.get (s.twinOf (e.base + i)) = m0.get (s.keyOf (e.base + i))) ∧
      (∀ e, ∀ l ∈ extentLines e.base e.len, (∀ l' ∈ extentLines e.base e.len, s.twinOf l' / 64 = s.twinOf l / 64 → l' = l) →
        (s.copyEntry m0 e).mem.isPoison (s.twinOf l / 64) =
          (m0.isPoison (s.lineOf l) || s.lineHurt (s.lineOf l) || s.lineHurt (s.twinOf l / 64)))) ∧
    (∀ r, s.ckp.dryReady = some r → s.ckp.st = .held → s.ckp.dryReadyAt ≤ s.cad.count.toNat → Answers (exec .dryDownStart s) (s.onCkp (fun k => { k with
      st := .draining, dryReady := none
      dry := some { rec_ := r, pieces := List.replicate (allPieces (shardLen k.set)) (.toSend 0), cd := s.cad.count.toNat, spent := 0 } }))) ∧
    (∀ d, s.ckp.dry = some d →
      let u := s.onCkp (fun k => { k with dry := some (d.newCd s.cad.count.toNat) })
      let gone := s.departedRank d.rec_.dryRank.toNat = true ∨ s.nodeOfRank d.rec_.dryRank.toNat = none
      (s.dryHeld = true ∨ s.flt.fenced = true → Answers (exec .dryDownCd s) u) ∧
      (s.dryHeld = false → s.flt.fenced = false → gone → Completes .dryDownCd s (fun t => t.ckp.dry = none ∧ t.ckp.st = .held ∧ t.ckp.err.getLsbD 2 = true)) ∧
      (s.dryHeld = false → s.flt.fenced = false → ¬ gone → Answers (exec .dryDownCd s) (u.sendPieces (d.pieces.length + 1) 0))) ∧
    (∀ (p : Packet) o d j k, s.takesFrom (s.ackRank p) p → p.hdr.kind = 0x82 → p.hdr.jobTag ≠ 0 → s.ackedOp p = some o → o.isUnknown = false →
      o.kind = .msg → o.core = none → s.ckp.dry = some d → s.pieceOf o.id = some (j, k) →
      let others (q : Nat → PieceState → Prop) : Prop := ∀ i x, i ≠ j → d.pieces[i]? = some x → q i x
      let now (t : State) (x : PieceState) : Prop := t.ckp.dry = some { d with pieces := d.pieces.set j x } ∧ t.ckp.st = s.ckp.st ∧ t.mem = s.mem
      (p.hdr.status = 0 → others (fun _ x => x = .acked) → Completes (.ack p) s (fun t => t.ckp.dry = none ∧ t.ckp.st = .drained ∧
        t.ckp.err = s.ckp.err ∧ t.mem = (s.decantStatus d.rec_ 42 0).mem)) ∧
      (p.hdr.status = 0 → ¬ others (fun _ x => x = .acked) → Completes (.ack p) s (fun t => now t .acked)) ∧
      (p.hdr.status = 0x0B → Completes (.ack p) s (fun t => now t (.nextCd k))) ∧
      (p.hdr.status = 0x0C ∨ p.hdr.status = 0x04 → k < 3 → Completes (.ack p) s (fun t => now t (.toSend (k + 1)))) ∧
      (p.hdr.status = 0x0C ∨ p.hdr.status = 0x04 → 3 ≤ k → Completes (.ack p) s (fun t => t.ckp.dry = none ∧ t.ckp.st = .held ∧
        t.ckp.err.getLsbD 2 = true ∧ t.mem = (s.decantStatus d.rec_ 42 0x35).mem))) ∧
    Answers (exec (.ckpCtrlWrite v) s) (s.onCkp (fun k => { k with dryPause := v.getLsbD 0 })) ∧
    (∀ c, s.ckp.commit = some c →
      let u := s.ckp.set.foldl (fun u e => u.restoreEntry e) s
      (c.copying = false → relReached s c.release.toNat = true → s.ckpWaits = false → Answers (exec .restoreCopy s)
        (u.onCkp (fun k => { k with commit := some { c with
          copying := true, bad := u.setFenced s.ckp.set || u.sachetPoison s.ckp.set 0 (shardLen s.ckp.set) } }))) ∧
      (c.copying = false → relReached s c.release.toNat = false ∨ s.ckpWaits = true → Answers (exec .restoreCopy s) s) ∧
      (c.copying = true → c.bad = false → s.setFenced s.ckp.set = false → s.setPoisoned s.ckp.set = false → Completes .restoreCopyDone s (fun t =>
        t.ckp.st = .drained ∧ t.ckp.commit = none ∧ (c.mbx, 0) ∈ t.ckp.answers ∧ t.mem = s.mem)) ∧
      (c.copying = true → c.bad = true ∨ s.setFenced s.ckp.set = true ∨ s.setPoisoned s.ckp.set = true → Completes .restoreCopyDone s (fun t =>
        t.ckp.st = .incomplete ∧ t.ckp.commit = none ∧ (c.mbx, 0x36) ∈ t.ckp.answers ∧ t.ckp.err.getLsbD 3 = true ∧ t.mem = s.mem)) ∧
      (∀ e, s.mem.upset = [] →
        (∀ l ∈ extentLines e.base e.len, s.mem.isPoison (s.twinOf l / 64) = true → (s.restoreEntry e).mem.isPoison (s.lineOf l) = true) ∧
        ((∀ l ∈ extentLines e.base e.len, s.mem.isPoison (s.twinOf l / 64) = false) →
          s.restoreEntry e = s.writeMem e.base ((List.range e.len).map (fun i => s.mem.get (s.twinOf (e.base + i)))))))

/-! ### Faults, resets, bring-up, power -/

/-- R371 to R374, R384 to R387: an arithmetic fault is replayed with a record, and the same one again goes to a spare, to the unit's own reset or to
the next larger scope; one in a core's retired registers loses its work; a corrected SRAM word is recorded, an uncorrectable one poisons its line,
empties a line of the read cache, or is recorded as a poisoned line and resets the package; a P-die cache line that is not held has none; a die link takes a
spare lane by a retrain, which waits for one in progress and for a reset that holds the link, and after which the traffic that it held goes on, and its ninth failing lane is contained; a lockstep fault and a write of FLT_CTRL fence the node. -/
def Obligations.FaultsAreReplayedSparedOrContained : Prop :=
  ∀ (s : State) (i : Fin 192) (c : Fin 192) (retired : Bool) (link : Fin 14) (v a : W64), s.serves = true →
    (∀ b k x rest, b.engKind = some k → b ≠ .dlr → (s.engine k i).fifo = x :: rest → (s.engine k i).head.phase = .running → i.val < k.count →
      let key := (k.block, i.val, x.seq.toNat)
      let others := s.flt.faulted.filter (fun y => !(y.1 == key.1 && y.2.1 == key.2.1))
      (s.flt.faulted.contains key = false → Answers (exec (.arithReplay b ⟨i, retired⟩) s)
        (((s.rewind k i).onFlt (fun f => { f with faulted := key :: others })).arithRecord b i)) ∧
      (s.flt.faulted.contains key = false → Completes (.arithReplay b ⟨i, retired⟩) s (fun t => t.flt.faulted.contains key = true ∧ t.mem = s.mem ∧
        (t.engine k i).fifo = (s.engine k i).fifo ∧ (t.engine k i).head.phase = .running ∧ (t.engine k i).head.flags = (if k = .sol then (s.engine k i).head.flags else {}))) ∧
      (s.flt.faulted.contains key = true → Answers (exec (.arithReplay b ⟨i, retired⟩) s)
        (((s.rewind k i).onFlt (fun f => { f with faulted := others })).arithAgain b i))) ∧
    (s.coreIssues c = true → s.boot.ready = true → s.scopeExists (.core .dlr c) = true → s.resets = [] → s.resetReqs = [] →
      Completes (.arithReplay .dlr ⟨c, true⟩) s (fun t =>
      (∃ r, t.resets = [r] ∧ r.scope = .core .dlr c ∧ r.workLost = true ∧ r.cores = []) ∧ (t.core c).runBit = false ∧ (t.core c).stall = none)) ∧
    (s.coreIssues c = true → Answers (exec (.arithReplay .dlr ⟨c, false⟩) s) (if (s.core c).faulted then (s.onCore c (fun x => { x with faulted := false })).arithAgain .dlr c
      else (s.onCore c (fun x => { x with faulted := true })).arithRecord .dlr c)) ∧
    (∀ lo hi k b n, s.storeOf a.toNat = some (lo, hi, k) → k.block = some (b, n) → s.flt.fenced = false →
      Completes (.sramError (.store a) false) s (fun t => t.mem = s.mem ∧ t.cores = s.cores ∧ ∃ r ∈ t.flt.log, r.cls = .corrected ∧ r.block = b ∧ r.code = 0x0101) ∧
      (k.plain = true → Completes (.sramError (.store a) true) s (fun t => t.mem.isPoison (s.lineOf a.toNat) = true ∧ t.mem.cells = s.mem.cells ∧ t.cores = s.cores))) ∧
    (∀ line, (∃ l ∈ s.fab.rrc, l.line = line) → Completes (.sramError (.rrc line) true) s (fun t =>
      t.fab.rrc = s.fab.rrc.filter (fun l => l.line ≠ line) ∧ t.mem = s.mem)) ∧
    Answers (exec (.sramError .fdieTable true) s)
      (s.record { cls := .contained, block := .fab, code := 0x0102 }).packageReset ∧
    Answers (exec (.sramError .pdieDirectory true) s)
      (s.record { cls := .contained, block := .pdie, code := 0x0102 }).packageReset ∧
    (a.toNat / 64 ∉ s.pdc → Answers (exec (.sramError (.pdieCache a) retired) s) s) ∧
    (s.flt.repairReq = [] → (∃ x ∈ s.flt.repairing, x.1 = link) ∨ s.linkInReset link = true →
      Answers (exec (.dlinkLaneRepair link) s) (s.onFlt (fun f => { f with repairReq := [link] }))) ∧
    ((∀ x ∈ s.flt.repairing, x.1 ≠ link) → s.linkInReset link = false → s.flt.repairReq = [] →
      ((s.flt.spares[link]).toNat < 8 → Answers (exec (.dlinkLaneRepair link) s) (s.onFlt (fun f => { f with repairing := f.repairing ++ [(link, s.now)] }))) ∧
      (8 ≤ (s.flt.spares[link]).toNat → Answers (exec (.dlinkLaneRepair link) s) (s.linkDown link))) ∧
    (∀ x, s.flt.repairing.find? (fun x => x.1 = link) = some x →
      let u := ((s.onFlt (fun f => { f with repairing := f.repairing.filter (fun y => y.1 ≠ link) })).useLane link).record
        { cls := .corrected, block := .flt, unit := link, code := 0x0106, holdAc := s.now - x.2, stamp := stampOf x.2 }
      (s.flt.repairReq = [] → Answers (exec (.dlinkLaneRepairDone link) s) u.goOn) ∧ u.flt.spares[link] = s.flt.spares[link] + 1 ∧ u.flt.err.getLsbD 0 = true ∧
      (∀ y ∈ u.flt.repairing, y.1 ≠ link) ∧ u.mem = s.mem) ∧
    (s.boot.ready = true → s.flt.fenced = false → Completes .lockstep s (fun t => t.flt.fenced = true ∧ t.mem = s.mem ∧ t.cores = s.cores ∧
      ∃ r, t.flt.last = some r ∧ r.cls = .uncontained ∧ r.block = .bnk ∧ r.code = 0x0109)) ∧
    (s.boot.ready = false → Completes .lockstep s (fun t => t.boot.stage = 0xF ∧ t.boot.failCode = 4)) ∧
    (s.flt.fenced = false → Completes .fltFenceWrite s (fun t => t.flt.fenced = true ∧ t.mem = s.mem ∧ t.cores = s.cores)) ∧
    Completes (.witnessEnWrite v) s (fun t => t.flt.witnessEn = v.getLsbD 1 ∧ t.flt.fenced = (s.flt.fenced || v.getLsbD 0) ∧ t.mem = s.mem ∧ t.cores = s.cores)

/-- R370, R375, R378, R407 to R411: a containment reset stops the cores of its scope; it waits for voted hands, and then, in steps 2 and 3, clears what
the scope clears and sets its re-entry; at the re-entry the scope's crossings are aligned in a handshake of at most three attempts; then a Deck's channels
and die links retrain, or its stacks, where they are not kept, are poisoned and train anew; the units run the test set and return to service with RUN as it
was. A scope that does not re-enter or align moves to the next larger one. One within the scope of a reset in progress is absorbed; one in the same Deck
waits, and a larger one takes over at the end of a step. A Package reset waits for voted hands too; it leaves what reset leaves, with the flash, the next
incarnation and its record. (How long step 2 takes, and which scopes hold a crossing, are log entry 22's DEDUCED rows; what a unit that is not named answers
is log entry 27's.) -/
def Obligations.ResetsStopClearAndReturn : Prop :=
  ∀ (s : State) (sc : Scope) (controller : Bool) (runs : List (UnitId × BitVec 256)) (mismatch : BitVec 6), s.serves = true →
    (s.boot.ready = true → sc ≠ .package → s.scopeExists sc = true → s.resets = [] → s.resetReqs = [] → Completes (.partialReset sc controller) s (fun t =>
      (∃ r, t.resets = [r] ∧ r.scope = sc ∧ r.step = 1 ∧ r.began = s.now ∧ r.hbmKept = !controller ∧
        r.cores = sc.cores.filter (fun c => (s.core c).runBit)) ∧
      (∀ c ∈ sc.cores, (t.core c).runBit = false ∧ (t.core c).halted = true ∧ (t.core c).pc = (s.core c).pc ∧ (t.core c).g = (s.core c).g) ∧
      ∀ c, c ∉ sc.cores → t.core c = s.core c)) ∧
    ((∃ r ∈ s.resets, sc.within r.scope = true) → Answers (exec (.partialReset sc controller) s) s) ∧
    (s.boot.ready = true → sc ≠ .package → s.scopeExists sc = true → (∀ r ∈ s.resets, sc.within r.scope = false) → s.mayBegin sc = false →
      s.resetReqs = [] → Completes (.partialReset sc controller) s (fun t => t.resets = s.resets ∧ t.cores = s.cores ∧
        ∃ q, t.resetReqs = [q] ∧ q.scope = sc ∧ q.began = s.now ∧ q.controller = controller)) ∧
    (∀ r q, s.resets = [r] → r.scope = sc → r.step = 1 → s.resetReqs = [q] → sc.within q.scope = true → q.scope ≠ sc → sc ≠ .package →
      q.scope ≠ .package → r.workLost = false → q.dead = [] → (∀ c ∈ r.cores, c ∈ q.scope.cores) → (∀ h ∈ s.hnd.inn, h.st ≠ .voted) →
      Completes (.resetQuiesceDone sc) s (fun t => t.resetReqs = [] ∧ ∃ x, t.resets = [x] ∧ x.scope = q.scope ∧ x.step = 1 ∧ ∀ c ∈ r.cores, c ∈ x.cores)) ∧
    (∀ r, s.resetAt sc 1 = some r →
      ((∃ h ∈ s.hnd.inn, h.st = .voted) → Answers (exec (.resetQuiesceDone sc) s) s) ∧
      ((∀ h ∈ s.hnd.inn, h.st ≠ .voted) → sc = .package → Answers (exec (.resetQuiesceDone sc) s) s.packageEnd) ∧
      ((∀ h ∈ s.hnd.inn, h.st ≠ .voted) → sc ≠ .package → s.resetReqs = [] → Completes (.resetQuiesceDone sc) s (fun t =>
        (∃ x ∈ t.resets, x.scope = sc ∧ x.step = (if memoryStep sc = 0 then 3 else 2) ∧ x.since = s.now) ∧
        (∀ c ∈ sc.cores, t.core c = (if memoryStep sc = 0 then { s.core c with cycle := 0 } else s.core c)) ∧
        ∀ c, c ∉ sc.cores → t.core c = s.core c))) ∧
    (∀ r, s.resetAt sc 2 = some r → (∀ x ∈ s.resets, x.scope = sc → x = r) → s.resetReqs = [] →
      (s.now < r.since + memoryStep sc → s.resetTime sc = s) ∧
      (r.since + memoryStep sc + 1000 ≤ s.now → let t := s.resetTime sc
        (∃ x ∈ t.resets, x.scope = sc ∧ x.step = 4 ∧ x.reentry = some (BitVec.ofNat 48 ((r.since + memoryStep sc + 7000 + 59999) / 60000))) ∧
        (∀ c ∈ sc.cores, t.core c = { s.core c with cycle := 0 }) ∧ (∀ c, c ∉ sc.cores → t.core c = s.core c) ∧
        (∀ d, sc = .deck d → (∀ p ∈ t.hbm.pips, p / 4096 / 4 ≠ d.val) ∧ ∀ x ∈ t.mem.cells, ∀ q : Nat, q / 4 = d.val → q < 16 →
          ¬ (0x0100_0000_0000 + 0x0200_0000 * q ≤ x.1 ∧ x.1 < 0x0100_0000_0000 + 0x0200_0000 * (q + 1))))) ∧
    (∀ r, s.resetAt sc 4 = some r → (r.reentry.getD 0).toNat * 60000 ≤ s.now → (∀ x ∈ s.resets, x.scope = sc → x = r) → s.resetReqs = [] →
      (r.marker ≠ none → Answers (exec (.resetReentry ⟨sc, true⟩) s) s) ∧
      (r.marker = none → Completes (.resetReentry ⟨sc, true⟩) s (fun t => t.cores = s.cores ∧ t.mem = s.mem ∧
        (sc.crosses = true → ∃ x ∈ t.resets, x.scope = sc ∧ x.step = 4 ∧ x.attempts = 0 ∧ x.marker = some (r.reentry.getD 0)) ∧
        (sc.crosses = false → ∃ x ∈ t.resets, x.scope = sc ∧ x.step = 6 ∧ x.since = s.now)) ∧
        Answers (exec (.resetReentry ⟨sc, false⟩) s) (s.escalate sc))) ∧
    (∀ r m, s.cad.st ≠ .aligning → s.resets = [r] → r.step = 4 → r.marker = some m → (m.toNat + 4) * 60000 + 1024 ≤ s.now → s.resetReqs = [] →
      (mismatch.getLsbD r.scope.die = false →
        (∀ d, r.scope = .deck d → Completes (.alignmentHandshake mismatch) s (fun t =>
          (∃ x, t.resets = [x] ∧ x.scope = r.scope ∧ x.step = 5 ∧ x.marker = none ∧ x.links = deckLinks d.val ∧
            x.toTrain = (if r.hbmKept then [] else s.deckStacks d.val)) ∧ t.cores = s.cores ∧
          (r.hbmKept = true → t.mem = s.mem ∧ ∀ k ∈ s.deckStacks d.val, ∀ ch : Fin 32, (t.ctl k).retraining.getLsbD ch =
            (!(s.ctl k).fencedCh.getLsbD ch && !(s.ctl k).retired.getLsbD (2 * ch.val))) ∧
          (r.hbmKept = false → ∀ line, ∀ k ∈ s.deckStacks d.val, line / 2 ^ 30 = k →
            t.mem.isPoison line = true ∧ (t.ctl k).trained = false ∧ vget t.boot.attempts k 1 = 0))) ∧
        ((∀ d, r.scope ≠ .deck d) → Completes (.alignmentHandshake mismatch) s (fun t => t.mem = s.mem ∧ t.cores = s.cores ∧
          ∃ x, t.resets = [x] ∧ x.scope = r.scope ∧ x.step = 6 ∧ x.marker = none))) ∧
      (mismatch.getLsbD r.scope.die = true → r.attempts < 2 → Answers (exec (.alignmentHandshake mismatch) s)
        { s with resets := [{ r with attempts := r.attempts + 1, marker := some (s.cad.count + 1) }] }) ∧
      (mismatch.getLsbD r.scope.die = true → 2 ≤ r.attempts → Answers (exec (.alignmentHandshake mismatch) s)
        ((s.onInv (fun v => { v with failedDies := v.failedDies ||| BitVec.ofNat 6 (2 ^ r.scope.die) })).escalate r.scope))) ∧
    (∀ r (link : Fin 14), s.resets = [r] → r.step = 5 → r.scope = sc → link.val ∈ r.links → (∀ x ∈ s.flt.repairing, x.1 ≠ link) → s.resetReqs = [] →
      Completes (.dlinkLaneRepairDone link) s (fun t => t.mem = s.mem ∧ t.cores = s.cores ∧ ∃ x, t.resets = [x] ∧
        x.links = r.links.filter (fun l => l ≠ link.val) ∧
        (x.step = 6 ↔ r.toTrain = [] ∧ (∀ l ∈ r.links, l = link.val) ∧ ∀ d, sc = .deck d → ∀ k ∈ s.deckStacks d.val, (s.ctl k).retraining = 0))) ∧
    (s.resetAt sc 6 = none → Answers (exec (.returnToService sc runs) s) s) ∧
    (∀ r, s.resetAt sc 6 = some r →
      let us := (s.failing runs).filter (UnitId.inScope sc s.inv)
      let p := (s.persist us).failUnits us
      Answers (exec (.returnToService sc runs) s) ((p.2.foldl (fun u x => u.unitRecord x.1 x.2.1 x.2.2) p.1).endReset r) ∧
      (s.resetReqs = [] → s.flt.repairReq = [] → Completes (.returnToService sc runs) s (fun t =>
        ∀ c ∈ r.cores, vget t.inv.dlr c .absent ≠ .absent → (t.core c).runBit = true))) ∧
    (s.packageResetting = true → Answers (exec .packageReset s) s) ∧
    (s.packageResetting = false → (∃ h ∈ s.hnd.inn, h.st = .voted) → (∀ h ∈ s.hnd.inn, ∀ g ∈ s.hnd.inn, h.issuer = g.issuer → h.num = g.num → h = g) →
      Completes .packageReset s (fun t => t.packageResetting = true ∧ (∀ c, (t.core c).runBit = false) ∧ ∀ h ∈ s.hnd.inn, h.st = .voted → h ∈ t.hnd.inn)) ∧
    (s.packageResetting = false → (∀ h ∈ s.hnd.inn, h.st ≠ .voted) → Completes .packageReset s (fun t => t.cores = State.reset.cores ∧ t.mem = State.reset.mem ∧ t.eng = State.reset.eng ∧ t.bnk = State.reset.bnk ∧
      t.fab.incarnation = s.flash.incarnation + 1 ∧ t.flash.slots = s.flash.slots ∧ t.flash.config = s.flash.config ∧ t.boot.stage = 3 ∧ t.boot.rstN = true ∧
      t.resets = [] ∧ ∃ r, t.boot.scopeReset = some r ∧ r.scope = 4 ∧ r.code = 0x0107 ∧ r.workLost = true))

/-- R394 to R405, R437, R438, R464: the supply above 44 V asserts PWR_OK; RST_N released with PWR_OK starts the boot ROM; asserted, or with an
undervoltage, it leaves what reset leaves; PERST_N empties the host's mailboxes; the chosen image runs where it is verified, else the other one, else
the ROM waits for one; each stack trains at the first rate that passes or is absent, and holds zero data; a port trains on its eight lowest good
wavelengths; the known answers, held against the test set of the flash, make the package ready, or FAILED with their code. A tripped package leaves its
trip where it has cooled (R471). (That the test set has parts and a unit that is not named passes is log entry 27's DESIGN CHOICE; training outcomes,
boot outcomes and the flash's answer by operand are log entry 17's.) -/
def Obligations.BringUpReachesReadiness : Prop :=
  ∀ (s : State) (vin : BitVec 16) (straps : BitVec 2),
    Completes (.supplyRamp vin) s (fun t => t.pwr.vin = vin ∧ t.boot.supply = (s.boot.supply || decide (4400 ≤ vin.toNat)) ∧
      (s.boot.supply = false → 4400 ≤ vin.toNat → t.boot.pwrOk = true)) ∧
    (s.boot.supply = true → Completes .undervoltage s (fun t => t.mem = State.reset.mem ∧ t.cores = State.reset.cores ∧ t.boot.supply = false ∧
      t.boot.pwrOk = false ∧ t.boot.rstN = false ∧ t.flash.inventory = s.flash.inventory ∧ t.flash.config = s.flash.config)) ∧
    (s.boot.rstN = true → Completes .rstNAssert s (fun t => t.mem = State.reset.mem ∧ t.cores = State.reset.cores ∧ t.bnk = State.reset.bnk ∧
      t.boot.rstN = false ∧ t.fab.incarnation = s.flash.incarnation + 1 ∧ t.flash.config = s.flash.config)) ∧
    (s.boot.rstN = false → s.boot.supply = true → s.pwr.tripped = true →
      (s.pwr.cool = false → Answers (exec (.rstNRelease straps) s) s) ∧
      (s.pwr.cool = true → Completes (.rstNRelease straps) s (fun t => t.pwr.tripped = false ∧ t.pwr.thermN = false ∧ t.boot.pwrOk = true ∧
        t.boot.rstN = true ∧ t.boot.stage = 3))) ∧
    (s.boot.rstN = false → s.boot.supply = true → s.pwr.tripped = false → s.boot.pwrOk = true → Completes (.rstNRelease straps) s (fun t =>
      t.boot.rstN = true ∧ t.boot.stage = 3 ∧ t.pwr.straps = straps ∧ t.cores = s.cores ∧ t.mem = s.mem)) ∧
    (s.awake = true → Completes .perstN s (fun t => ∀ m : Fin 32, (m.val < 16 → (t.bnk.mbx[m]).msg = MbxMsg.zero) ∧ (16 ≤ m.val → t.bnk.mbx[m] = s.bnk.mbx[m]))) ∧
    (s.awake = true → s.boot.stage = 3 → s.boot.mbxWait = false →
      let f := s.flash
      let slot : Fin 2 := if f.boot.trial ∧ f.boot.tries = 0 then 1 - f.boot.active else f.boot.active
      Completes (.firmwareVerified false) s (fun t => t.boot.mbxWait = true ∧ t.boot.stage = 3) ∧
      (s.imageCheck f.slots[slot] = none → Completes (.firmwareVerified true) s (fun t => t.boot.running = f.slots[slot] ∧
        (if s.cad.st = .acquiring then t.boot.stage = 4 else 6 ≤ t.boot.stage.toNat) ∧ t.boot.image = (if slot = 0 then 1 else 2))) ∧
      (s.imageCheck f.slots[slot] ≠ none → s.imageCheck f.slots[1 - slot] = none → Completes (.firmwareVerified true) s (fun t =>
        t.boot.running = f.slots[1 - slot] ∧ t.bnk.err.getLsbD 6 = true ∧ t.boot.image = (if slot = 0 then 2 else 1))) ∧
      (s.imageCheck f.slots[slot] ≠ none → s.imageCheck f.slots[1 - slot] ≠ none → Completes (.firmwareVerified true) s (fun t =>
        t.boot.mbxWait = true ∧ t.boot.stage = 3 ∧ t.bnk.err.getLsbD 6 = true))) ∧
    (s.serves = true → ∀ (k : Fin 16) (temp : BitVec 8), (∃ r ∈ s.resets, k.val ∈ r.toTrain) →
      let n := vget s.boot.attempts k 0
      Completes (.hbmTrainingDone k true temp) s (fun t => (t.ctl k).trained = true ∧ (t.ctl k).rate = BitVec.ofNat 3 n ∧ t.mem = s.mem ∧
        ∀ r ∈ t.resets, k.val ∉ r.toTrain) ∧
      (n < 3 → Answers (exec (.hbmTrainingDone k false temp) s) (s.onBoot (fun b => { b with attempts := vput b.attempts k (n + 1) }))) ∧
      (3 ≤ n → Completes (.hbmTrainingDone k false temp) s (fun t => vget t.inv.hbmc k .own = .absent ∧ ∀ r ∈ t.resets, k.val ∉ r.toTrain))) ∧
    (s.serves = true → ∀ (k : Fin 16) (temp : BitVec 8), s.boot.stage = 7 → k.val ∈ s.boot.stacksLeft → (∀ r ∈ s.resets, k.val ∉ r.toTrain) →
      let n := vget s.boot.attempts k 0
      Completes (.hbmTrainingDone k true temp) s (fun t => (t.ctl k).trained = true ∧ (t.ctl k).rate = BitVec.ofNat 3 n ∧ k.val ∉ t.boot.stacksLeft ∧
        ∀ key, key / 2 ^ 36 = k.val → t.mem.get key = 0 ∧ t.mem.isPoison (key / 64) = false) ∧
      (n < 3 → Answers (exec (.hbmTrainingDone k false temp) s) (s.onBoot (fun b => { b with attempts := vput b.attempts k (n + 1) }))) ∧
      (3 ≤ n → Completes (.hbmTrainingDone k false temp) s (fun t => vget t.inv.hbmc k .own = .absent ∧ k.val ∉ t.boot.stacksLeft))) ∧
    (s.serves = true → ∀ (port : Fin 32) (delay : BitVec 16) (bad : BitVec 10), (s.fab.ports[port]).role ≠ 0 → s.pwr.detached.getLsbD (port.val / 8) = false →
      7 ≤ s.boot.stage.toNat → (s.fab.ports[port]).trained = false → Completes (.portTrainingDone port delay bad) s (fun t =>
        let y := t.fab.ports[port]
        y.trained = true ∧ y.delay = delay ∧ y.failed = bad ||| fuseBadW port ∧ y.activeW = lowestW 8 (allW &&& ~~~(bad ||| fuseBadW port)) ∧
        y.up = decide (4 ≤ popCount 10 (allW &&& ~~~(bad ||| fuseBadW port)).toNat) ∧ port.val ∉ t.boot.portsLeft)) ∧
    (s.serves = true → s.boot.stage = 8 → ∀ (dies : DieRuns) (runs : List (UnitId × BitVec 256)),
      let passes (x : UnitId × BitVec 256) : Prop := ∃ p ∈ s.boot.testSet.parts, p.kind = x.1.kind ∧ p.expected = x.2
      let failed (u : UnitId) : Prop :=
        ∃ x, (x ∈ runs ∨ (x.1 = .fdie ∧ dies.fdie = some x.2) ∨ (x.1 = .pdie ∧ dies.pdie = some x.2)) ∧ x.1 = u ∧ ¬ passes x
      (s.boot.setGood = false → Completes (.knownAnswerRun dies runs) s (fun t => t.boot.stage = 0xF ∧ t.boot.failCode = 2)) ∧
      (s.boot.setGood = true → failed .fdie ∨ failed .pdie → Completes (.knownAnswerRun dies runs) s (fun t => t.boot.stage = 0xF ∧ t.boot.failCode = 3)) ∧
      (s.boot.setGood = true → ¬ failed .fdie → ¬ failed .pdie → Completes (.knownAnswerRun dies runs) s (fun t =>
        (if ∀ d : Fin 4, t.inv.deckAbsent[d] = true then t.boot.stage = 0xF ∧ t.boot.failCode = 5 else t.boot.stage = 9 ∧ t.boot.ready = true ∧ t.boot.scopeReset = none) ∧
        ∀ u, failed u → .unit u ∈ t.flash.inventory)))

/-- R462, R466 to R471, R473: a detached fibre block takes its ports down; a sample gives the power unit its temperatures, three critical ones in a
row fence the node; the throttle level rises by 1 after a cd over a budget or at a throttle temperature, and falls by 1 after 4 calm ones, and the
level withholds the highest enabled slots; a low supply is recorded. (The average of 'Conversion and control' as what the package takes beyond its dies is
log entry 26's.) -/
def Obligations.PowerTemperatureAndFibreBlocks : Prop :=
  ∀ (s : State) (b : Fin 4) (vin : BitVec 16) (decks : BitVec 32) (f p hbm : BitVec 8) (wPkg wP wF wHbm wDecks : BitVec 12),
    (s.pwr.detached.getLsbD b = false → s.boot.supply = false ∨ s.pwr.tripped = true → Answers (exec (.blockDetach b) s)
      (s.onPwr (fun x => { x with detached := x.detached ||| BitVec.ofNat 4 (2 ^ b.val) }))) ∧
    (s.pwr.detached.getLsbD b = false → s.boot.supply = true → s.pwr.tripped = false → Completes (.blockDetach b) s (fun t => t.pwr.detached.getLsbD b = true ∧ t.pwr.err.getLsbD 4 = true ∧
      ∀ q : Fin 32, (q.val / 8 = b.val → (t.fab.ports[q]).up = false ∧ (t.fab.ports[q]).trained = false) ∧ (q.val / 8 ≠ b.val → t.fab.ports[q] = s.fab.ports[q]))) ∧
    Answers (exec (.blockReattach b) s) (s.onPwr (fun x => { x with detached := x.detached &&& ~~~(BitVec.ofNat 4 (2 ^ b.val)) })) ∧
    (s.serves = true →
      (s.pwr.tripAt = none → Completes (.thermalSample decks f p hbm) s (fun t =>
        let ts : List (Int × Bool) := (List.range 4).map (fun d => (toSigned 8 (decks.toNat / 256 ^ d), false)) ++ [(f.toInt, false), (p.toInt, false), (hbm.toInt, true)]
        let warm (x : Int × Bool) : Int := if x.2 then 90 else 100
        t.pwr.tempDeck = decks ∧ t.pwr.tempF = f ∧ t.pwr.tempP = p ∧ t.pwr.tempHbm = hbm ∧
        ((∃ x ∈ ts, warm x ≤ x.1) → t.pwr.thermN = true) ∧ ((∀ x ∈ ts, x.1 ≤ warm x - 3) → t.pwr.thermN = false) ∧
        ((∃ i : Fin 7, 2 ≤ s.pwr.critical[i] ∧ ∃ x, ts[i.val]? = some x ∧ (if x.2 then 95 else 110) ≤ x.1) →
          t.flt.fenced = true ∧ t.pwr.tripAt = some (s.cad.refAc + 60000)))) ∧
      (s.pwr.throttled = some s.cad.count → Answers (exec (.throttleUpdate wPkg wP wF wHbm wDecks) s) s) ∧
      (s.cad.phase = 0 → s.pwr.throttled ≠ some s.cad.count → Completes (.throttleUpdate wPkg wP wF wHbm wDecks) s (fun t =>
        let air := s.pwr.profile = 0
        let excess := (if air then 760 else 1680) < wDecks.toNat ∨ (if air then 340 else 560) < wHbm.toNat ∨ (if air then 220 else 300) < wF.toNat ∨
          (if air then 140 else 220) < wP.toNat ∨ (if air then 1500 else 2800) < wPkg.toNat ∨
          40 < wPkg.toNat - (wDecks.toNat + wHbm.toNat + wF.toNat + wP.toNat)
        let bad := s.pwr.hot = true ∨ excess
        (bad → t.pwr.level = (if s.pwr.level < (if air then 27 else 54) then s.pwr.level + 1 else s.pwr.level)) ∧
        (¬ bad → 3 ≤ s.pwr.calm → t.pwr.level = s.pwr.level - 1) ∧ (¬ bad → s.pwr.calm < 3 → t.pwr.level = s.pwr.level))) ∧
      Completes .dutySlot s (fun t =>
        let slot := s.cad.phase / 1000
        let inProfile (x : Nat) : Bool := s.pwr.profile != 0 || decide (33 * x / 60 < 33 * (x + 1) / 60)
        (t.pwr.slotOn = true ↔ inProfile slot = true ∧ s.pwr.level ≤ ((List.range 60).filter (fun x => inProfile x && decide (slot < x))).length) ∧
        t.mem = s.mem ∧ t.cores = s.cores) ∧
      (4200 ≤ vin.toNat → vin.toNat < 4600 → Completes (.vinLow vin) s (fun t => t.pwr.vin = vin ∧ t.pwr.err.getLsbD 3 = true ∧ t.mem = s.mem ∧ t.cores = s.cores)))

/-! ### Banker firmware -/

/-- R419 to R422, R426: the host hands a request over by setting OWN, and its writes to a mailbox whose OWN is 1 are dropped and counted; a poll, at
phases that are multiples of 3,750, goes through the mailboxes in order. A whole request whose OWN is 1 is refused as the statuses say, or is in hand; a
state command is BUSY while another is in hand. A part before the last is answered OK once it is taken in, as one of a stream is consumed; a part out of
order is BAD_PART, and ends its transfer. An answer has its STATUS, its RSP_LEN and OWN 0. The order of the refusals (NOT_READY, BAD_CMD, HOST_ONLY, the
length, BUSY) is DEDUCED, and BAD_CMD for a BOOT_LOAD that no ROM waits for is the model's choice: log entry 23. -/
def Obligations.MailboxesHandOverTakeUpAndAnswer : Prop :=
  ∀ (s : State) (k : Fin 16) (writes : BitVec 16) (r : MbxReq) (m : Fin 32), s.serves = true →
    (let km : Fin 32 := k.castLE (by decide)
     ((s.mbx km).msg.own = false → Completes (.mailboxHandoff k writes r) s (fun t =>
       let b := (t.mbx km).msg
       b.own = true ∧ b.seq = r.seq ∧ b.cmd = r.cmd ∧ b.reqLen = r.reqLen ∧ b.part = r.part ∧ b.arg = r.arg ∧ b.last = r.last ∧
       b.payload = r.payload.take 4064 ∧ (∀ o, o ≠ km → t.mbx o = s.mbx o) ∧ t.bnk.dropped = s.bnk.dropped ∧ t.mem = s.mem)) ∧
     ((s.mbx km).msg.own = true → Completes (.mailboxHandoff k writes r) s (fun t => t.bnk.mbx = s.bnk.mbx ∧
       t.bnk.dropped = (if writes = 0 then s.bnk.dropped else satAdd s.bnk.dropped writes.toNat) ∧ t.mem = s.mem))) ∧
    (s.boot.mbxWait = true ∨ s.boot.running ≠ [] → s.cad.st.locked = true → (s.polls = true ↔ s.cad.phase % 3750 = 0)) ∧
    (s.polls = true → Answers (exec .mailboxPoll s) ((List.finRange 32).foldl (fun u o => u.takeUp o) s.answerEnded)) ∧
    (s.polls = false → Answers (exec .mailboxPoll s) s) ∧
    (let x := (s.mbx m).msg
     let cmd := x.cmd.toNat
     let whole : MbxMsg := { x with payload := slice x.payload 0 x.reqLen.toNat }
     (x.own = false ∨ (s.mbx m).inHand.isSome = true → s.takeUp m = s) ∧
     (x.own = true → (s.mbx m).inHand = none → (s.mbx m).xfer = none →
       (s.boot.mbxWait = true → cmd ≠ 0x0904 → s.takeUp m = s.mbxAnswer m 0x0107 []) ∧
       (s.boot.mbxWait = false →
         (cmd ∉ mbxCommands ∨ cmd = 0x0904 → s.takeUp m = s.mbxAnswer m 0x0100 []) ∧
         (cmd ∈ mbxCommands → cmd ≠ 0x0904 →
           (16 ≤ m.val → hostOnly x = true → s.takeUp m = s.mbxAnswer m 0x0104 []) ∧
           (m.val < 16 ∨ hostOnly x = false →
             (4064 < x.reqLen.toNat → s.takeUp m = s.mbxAnswer m 0x0101 []) ∧
             (x.reqLen.toNat ≤ 4064 → multiPart cmd = false → cmd ≠ 0x0704 → cmd ≠ 0x0706 →
               (stateCommand cmd = true → s.bnk.stateCmd.isSome = true →
                 s.takeUp m = (s.onMbx m (fun b => { b with xfer := none })).mbxAnswer m 0x0103 []) ∧
               ((stateCommand cmd = false ∨ s.stateBusy m = false) → badArg whole = false →
                 ((s.takeUp m).mbx m).inHand = some whole ∧ (s.takeUp m).mem = s.mem ∧
                 (s.takeUp m).bnk.stateCmd = (if stateCommand cmd then some m else s.bnk.stateCmd))))))) ∧
     (x.own = true → (s.mbx m).inHand = none → s.boot.mbxWait = false → cmd ∈ mbxCommands → cmd ≠ 0x0904 → multiPart cmd = true →
       (m.val < 16 ∨ hostOnly x = false) → x.reqLen.toNat ≤ 4064 →
       let next := match (s.mbx m).xfer with
         | none => x.part = 0
         | some p => p.cmd = x.cmd ∧ p.seq = x.seq ∧ p.next = x.part.toNat
       let before := ((s.mbx m).xfer.map (·.data)).getD []
       let data := before ++ slice x.payload 0 x.reqLen.toNat
       let first := ((s.mbx m).xfer.map (·.firstAt)).getD s.now
       let ends : State := s.onMbx m (fun b => { b with xfer := none })
       (¬ next → s.takeUp m = ends.mbxAnswer m 0x0102 []) ∧
       (next → bufferedCmd cmd = true → (2 ^ 25 < data.length ∨ 2 ^ 26 < s.buffered + (data.length - before.length)) → s.takeUp m = ends.mbxAnswer m 0x0101 []) ∧
       (next → x.last = false → s.partRefused m cmd data before.length first = none → s.takeUp m =
         ((s.onMbx m (fun b => { b with xfer := some ⟨x.cmd, x.seq, x.part.toNat + 1, data, first⟩ })).consume cmd data before.length).mbxAnswer m 0 []))) ∧
    (∀ (status : BitVec 16) (rsp : List Byte), rsp.length < 2 ^ 16 → (s.mbx m).discard = false →
      let t := s.mbxAnswer m status.toNat rsp
      (t.mbx m).msg.own = false ∧ (t.mbx m).msg.status = status ∧ (t.mbx m).msg.rspLen.toNat = rsp.length ∧
      slice (t.mbx m).msg.payload 0 rsp.length = rsp ∧ (t.mbx m).inHand = none ∧ t.mem = s.mem ∧ ∀ o, o ≠ m → t.mbx o = s.mbx o)

/-- R382, R392, R404, R425, R427, R428, R434 to R444: what each command in hand of the inventory, the configuration, the registers, the log, the
identity, the firmware, the resets and the debug port does, and what it answers. Each part of a staged image goes into the slot that is not running;
the boot record is rewritten in the copy that is not in force. A configuration keeps FAB_RETRY within the bounds of R276 and R382. The bytes that the
inventory and the scope of a reset take, and AUTH_FAIL for an activation with nothing staged, are the model's (log entry 13), and so is BAD_CMD for a
BOOT_LOAD that no ROM waits for (log entry 23). -/
def Obligations.FirmwareCommandsActAndAnswer : Prop :=
  ∀ (s : State) (m : Fin 32) (x : MbxMsg), s.serves = true →
    let has (cmd : Nat) : Prop := s.inHand m cmd = some x
    (has 0x0101 → Answers (exec (.inventoryRead m) s) (s.mbxAnswer m 0 ((s.inventoryBytes ++ joinBytes (s.inventoryRecords.map InvRecord.bytes)).take 4064))) ∧
    (has 0x0102 → let rs := s.inventoryRecords
      (x.arg.toNat < rs.length → Completes (.inventoryClear m) s (fun t => t.flash.inventory = rs.eraseIdx x.arg.toNat ∧ t.flash.invBound = some Config.identity ∧
        t.flash.slots = s.flash.slots ∧ t.flash.config = s.flash.config ∧ t.mem = s.mem)) ∧
      (rs.length ≤ x.arg.toNat → Answers (exec (.inventoryClear m) s) (s.mbxAnswer m 0x0101 []))) ∧
    (has 0x0201 → Answers (exec (.configRead m) s) (s.mbxAnswer m 0 s.configBytes)) ∧
    (has 0x0202 →
      let es := (List.range (x.payload.length / 40)).map (configEntryOf x.payload)
      let whole := x.payload.length % 40 = 0 ∧ es ≠ [] ∧ es.length ≤ 101 ∧ ∀ e ∈ es, configOk e = true
      (¬ whole → Answers (exec (.configWrite m) s) (s.mbxAnswer m 0x0101 [])) ∧
      (whole → ∀ v, ((6 : BitVec 16), v) ∈ es → let n := (field v.toNat 35 32 + 1) * field v.toNat 19 0
        241400 ≤ n ∧ n ≤ 900000) ∧
      (whole → s.job.attached = true → (∃ e ∈ es, e.1 = 4) → Answers (exec (.configWrite m) s) (s.mbxAnswer m 0x0106 [])) ∧
      (whole → (s.job.attached = false ∨ ∀ e ∈ es, e.1 ≠ 4) → Completes (.configWrite m) s (fun t =>
        ∃ c, t.flash.config = some c ∧ c.boundId = Config.identity ∧ c.tagGood = true ∧
          (∀ f v, (f, v) ∈ c.fields ↔ (es.reverse.find? (fun e => e.1 = f) = some (f, v) ∨
            ((∀ e ∈ es, e.1 ≠ f) ∧ ∃ old, s.flash.config = some old ∧ old.tagGood = true ∧ (f, v) ∈ old.fields)))))) ∧
    (has 0x0501 → x.payload.length = 16 → let w := leAt x.payload 0 8
      let a := w / 2 * 2
      (∀ st, s.regRefused m (w.testBit 0) a = some st → Answers (exec (.regAccess m) s) (s.mbxAnswer m st x.payload (some 0))) ∧
      (s.regRefused m (w.testBit 0) a = none →
        (w.testBit 0 = true → Answers (exec (.regAccess m) s) ((s.regWrite .banker a (leAt x.payload 8 8)).mbxAnswer m 0 x.payload)) ∧
        (w.testBit 0 = false → ∀ v, s.bankerRead a = some v → Answers (exec (.regAccess m) s) (s.mbxAnswer m 0 (x.payload.take 8 ++ leBytes 8 v))))) ∧
    (has 0x0501 → x.payload.length % 16 ≠ 0 ∨ x.payload = [] ∨ 4064 < x.payload.length → Answers (exec (.regAccess m) s) (s.mbxAnswer m 0x0101 [])) ∧
    (has 0x0601 → Answers (exec (.logRead m) s) (s.mbxAnswer m 0 (joinBytes
      (((s.flt.log.filter (fun r => decide (x.arg.toNat % 2 ^ 32 ≤ r.seq.toNat))).take 63).map ErrRec.bytes)))) ∧
    (has 0x0801 → (x.payload.length = 32 → Answers (exec (.attest m) s) (s.mbxAnswer m 0 (s.attestation x.payload))) ∧
      (x.payload.length ≠ 32 → Answers (exec (.attest m) s) (s.mbxAnswer m 0x0101 []))) ∧
    (has 0x0802 → let off := 4064 * x.part.toNat
      (off < Config.certificate.length → Answers (exec (.certRead m) s)
        (s.mbxAnswer m 0 ((Config.certificate.drop off).take 4064) none (some (decide (Config.certificate.length ≤ off + 4064))))) ∧
      (Config.certificate.length ≤ off → 0 < off → Answers (exec (.certRead m) s) (s.mbxAnswer m 0x0102 []))) ∧
    (has 0x0901 →
      (x.payload.length ≤ 2 ^ 24 → Completes (.fwStage m) s (fun t => t.flash = s.flash ∧ (t.bnk.staged = true ↔ s.imageCheck s.flash.slots[s.spareSlot] = none) ∧
        t.mem = s.mem ∧ ((s.mbx m).discard = false → ((t.mbx m).msg.status = 0 ↔ s.imageCheck s.flash.slots[s.spareSlot] = none)))) ∧
      (2 ^ 24 < x.payload.length → Answers (exec (.fwStage m) s) (s.mbxAnswer m 0x0101 []))) ∧
    (∀ (b : List Byte) (o : Nat), o ≤ b.length → let t := s.consume 0x0901 b o
      slice t.flash.slots[s.spareSlot] o (b.length - o) = b.drop o ∧ (0 < o → o ≤ (s.flash.slots[s.spareSlot]).length → t.flash.slots[s.spareSlot].take o = s.flash.slots[s.spareSlot].take o) ∧
      (o = 0 → t.flash.slots[s.spareSlot] = b) ∧ t.flash.slots[1 - s.spareSlot] = s.flash.slots[1 - s.spareSlot] ∧ t.flash.copies = s.flash.copies ∧ t.mem = s.mem) ∧
    (has 0x0902 →
      (s.bnk.staged = true → s.flash.boot.seq.toNat + 1 < 2 ^ 64 → Completes (.fwActivate m) s (fun t =>
        t.flash.boot.active = s.spareSlot ∧ t.flash.boot.trial = true ∧ t.flash.boot.tries = 3 ∧ t.flash.boot.seq = s.flash.boot.seq + 1 ∧
        t.flash.copies[s.flash.copy] = s.flash.copies[s.flash.copy] ∧ t.flash.slots = s.flash.slots)) ∧
      (s.bnk.staged = false → Answers (exec (.fwActivate m) s) (s.mbxAnswer m 0x0108 []))) ∧
    (has 0x0903 → s.flash.boot.seq.toNat + 1 < 2 ^ 64 → Completes (.fwConfirm m) s (fun t =>
      t.flash.boot.trial = false ∧ t.flash.svnRaised = max s.flash.svnRaised (imageSvn s.boot.running) ∧
      t.flash.slots = s.flash.slots ∧ t.flash.boot.active = s.flash.boot.active ∧ t.flash.copies[s.flash.copy] = s.flash.copies[s.flash.copy])) ∧
    (has 0x0904 → (s.boot.mbxWait = false → Answers (exec (.bootLoad m) s) (s.mbxAnswer m 0x0100 [])) ∧
      (s.boot.mbxWait = true → x.payload.length ≤ 2 ^ 24 →
        (∀ st, s.imageCheck x.payload = some st → Answers (exec (.bootLoad m) s) ((s.noteImage (some st)).mbxAnswer m st [])) ∧
        (s.imageCheck x.payload = none → Answers (exec (.bootLoad m) s) ((s.runImage x.payload 3).mbxAnswer m 0 [])))) ∧
    (has 0x0A01 →
      (scopeOfArg x.arg.toNat = none → Answers (exec (.scopedReset m) s) (s.mbxAnswer m 0x0101 [])) ∧
      (scopeOfArg x.arg.toNat = some .package → Answers (exec (.scopedReset m) s) s.packageReset) ∧
      (∀ sc, scopeOfArg x.arg.toNat = some sc → sc ≠ .package → s.bnk.resetOf = none → s.boot.ready = true → s.scopeExists sc = true → s.resets = [] → s.resetReqs = [] →
        Completes (.scopedReset m) s (fun t => t.bnk.resetOf = some sc ∧ (∃ r, t.resets = [r] ∧ r.scope = sc) ∧
          ∀ c ∈ sc.cores, (t.core c).halted = true)) ∧
      (∀ sc, scopeOfArg x.arg.toNat = some sc → sc ≠ .package → s.bnk.resetOf = some sc → s.resets = [] → s.resetReqs = [] →
        Answers (exec (.scopedReset m) s) (s.mbxAnswer m 0 []))) ∧
    (has 0x0B01 → x.arg = 0 → Completes (.debugUnlockChallenge m) s (fun t => t.bnk.challenge = some (Config.entropy s.freeCtr) ∧ t.bnk.debugOpen = s.bnk.debugOpen ∧
      ((s.mbx m).discard = false → slice (t.mbx m).msg.payload 0 32 = digestBytes (Config.entropy s.freeCtr)))) ∧
    (has 0x0B01 → x.arg = 1 →
      let whole := x.payload.length = 72 + sigLen ∧ leAt x.payload 2 1 = 1
      (¬ whole → Answers (exec (.debugUnlockToken m) s) (s.mbxAnswer m 0x0101 [])) ∧
      (whole → s.job.attached = true → Answers (exec (.debugUnlockToken m) s) (s.mbxAnswer m 0x0106 [])) ∧
      (whole → s.job.attached = false → s.tokenGood x.payload = false → Completes (.debugUnlockToken m) s (fun t => t.bnk.debugOpen = s.bnk.debugOpen ∧ t.mem = s.mem)) ∧
      (whole → s.job.attached = false → s.tokenGood x.payload = true → Completes (.debugUnlockToken m) s (fun t => t.bnk.debugOpen = true ∧ t.mem = s.mem)))

/-- R190, R300, R308, R429 to R433: the rank entries and the image bytes of an attach go to their places as their parts come, and the record writes
WIN_SPLIT; an attach that fails a check attaches nothing; one that passes them all writes the key, the ranks, the image and
epoch 1, and waits for START, when the named units run and the named cores start at ENTRY; a detach stops the units, waits for voted hands and for the
replay tables, and leaves no job. A rank update is held until its release; a small program is written where its checks pass. The layout of a rank
update is the model's (log entry 13). -/
def Obligations.JobsAttachStartDetachAndLoad : Prop :=
  ∀ (s : State) (m : Fin 32) (x : MbxMsg), s.serves = true →
    let has (cmd : Nat) : Prop := s.inHand m cmd = some x
    let b := x.payload
    (has 0x0301 → s.job.attachMbx = none →
      (s.job.attached = true → Answers (exec (.jobAttach m) s) (s.mbxAnswer m 0x0106 [])) ∧
      (s.job.attached = false → s.bnk.debugOpen = true → Answers (exec (.jobAttach m) s) (s.mbxAnswer m 0x0111 [])) ∧
      (s.job.attached = false → s.bnk.debugOpen = false → s.attachBad b (((s.mbx m).xfer.map (·.firstAt)).getD s.now) = true →
        Answers (exec (.jobAttach m) s) (s.mbxAnswer m 0x0101 [])) ∧
      (s.job.attached = false → s.bnk.debugOpen = false → s.attachBad b (((s.mbx m).xfer.map (·.firstAt)).getD s.now) = false →
        let img := streamImage b
        let good := (digest256 img).toNat = leAt b 40 32 ∧ 64 ≤ img.length ∧ leAt img 0 2 = 1
        let present := s.namesAbsent (usesOf img) = false
        (¬ (good ∧ present) → Completes (.jobAttach m) s (fun t => t.job.attached = false ∧ t.fab.ranks = [] ∧ t.eng.key = s.eng.key ∧ t.cores = s.cores ∧
          ((s.mbx m).discard = false → (t.mbx m).msg.status = (if good then 0x0110 else 0x0112)))) ∧
        (good ∧ present → Completes (.jobAttach m) s (fun t => t.job.attached = true ∧ t.job.started = false ∧ t.job.attachMbx = some m ∧
          t.job.tag.toNat = leAt b 0 2 ∧ t.job.rank.toNat = leAt b 12 4 ∧ t.job.seed.toNat = leAt b 16 8 ∧ t.job.start.toNat = leAt b 104 8 ∧
          t.job.entry = leAt img 62 2 ∧ t.fab.jobTag.toNat = leAt b 0 2 ∧ t.fab.epoch = 1 ∧ t.fab.enable = true ∧
          t.eng.key = BitVec.ofNat 128 (leNat (shake256 16 (leBytes 1 1 ++ leBytes 8 (leAt b 16 8) ++ leBytes 8 (leAt img 8 8)))) ∧
          t.cores = s.cores ∧ (t.mbx m).msg.own = (s.mbx m).msg.own)))) ∧
    (∀ (d : List Byte) (o : Nat), let t := s.consume 0x0301 d o
      let r0 := 128 + 16 * leAt d 3 1
      let r1 := r0 + 8 * leAt d 8 4
      (o = 0 → d.length = r0 → s.job.attached = false → leAt d 112 2 * 2 ^ 20 ≤ s.liveBytes → t.hbm.winSplit.toNat = leAt d 112 2 ∧ t.fab.ranks = [] ∧ t.flash = s.flash) ∧
      (r0 ≤ o → d.length ≤ r1 → (o - r0) % 8 = 0 → t.mem = s.mem ∧ ∀ rank : Nat, (t.fab.ranks.find? (fun e => e.rank = rank)).map (·.node) =
        (if o ≤ r0 + 8 * rank ∧ r0 + 8 * rank + 8 ≤ d.length then rankNode (BitVec.ofNat 64 (leAt d (r0 + 8 * rank) 8))
          else (s.fab.ranks.find? (fun e => e.rank = rank)).map (·.node))) ∧
      (r1 ≤ o → o < d.length → t.mem = (s.writeMem (leAt d 24 8 + (o - r1)) (d.drop o)).mem ∧ t.fab.ranks = s.fab.ranks)) ∧
    (∀ o, s.job.attachMbx = some o →
      (relReached s s.job.start.toNat = false → Answers (exec .attachStart s) s) ∧
      (relReached s s.job.start.toNat = true → Completes .attachStart s (fun t => t.job.started = true ∧ t.job.attachMbx = none ∧ t.job.attached = s.job.attached ∧
        t.mem = s.mem ∧ t.trk.runBit = true ∧
        ∀ c : Fin 192, let y := t.core c
          if s.job.uses.dlr.getLsbD c = true then y = Core.startAt (s.job.imageBase + 64 * s.job.entry) (s.core c) else y = s.core c))) ∧
    (s.job.attachMbx = none → Answers (exec .attachStart s) s) ∧
    (has 0x0302 →
      (s.job.attached = false → Answers (exec (.jobDetach m) s) (s.mbxAnswer m 0x0105 [])) ∧
      (s.job.attached = true → s.job.detachStep = 0 → (∃ h ∈ s.hnd.inn, h.st = .voted ∧ h.stuck = false) → Completes (.jobDetach m) s (fun t =>
        t.job.attached = true ∧ t.job.detachStep = 2 ∧ t.trk.runBit = false ∧
        ∀ c : Fin 192, (t.core c).runBit = false ∧ ((s.core c).stall = none → (t.core c).halted = true))) ∧
      (s.job.attached = true → s.job.detachStep = 2 → (∃ h ∈ s.hnd.inn, h.st = .voted ∧ h.stuck = false) → Answers (exec (.jobDetach m) s) s) ∧
      (s.job.attached = true → s.job.detachStep = 2 → (∀ h ∈ s.hnd.inn, h.st ≠ .voted ∨ h.stuck = true) → s.fab.replay ≠ [] ∨ s.fab.msgReplay ≠ [] →
        Completes (.jobDetach m) s (fun t => t.job.attached = true ∧ t.job.detachStep = 5 ∧ t.eng.key = 0 ∧ t.fab.jobTag = 0 ∧ t.fab.ranks = [] ∧
          t.hbm.areg = State.reset.hbm.areg ∧ t.hnd.rxq = State.reset.hnd.rxq ∧ t.mem = s.mem ∧ t.cores = s.cores)) ∧
      (s.job.attached = true → 3 ≤ s.job.detachStep → s.fab.replay = [] → s.fab.msgReplay = [] → Completes (.jobDetach m) s (fun t =>
        t.job.attached = false ∧ t.job.detachStep = 0 ∧ t.cores = s.cores ∧ ((s.mbx m).discard = false → (t.mbx m).msg.status = 0 ∧ (t.mbx m).msg.own = false)))) ∧
    (has 0x0303 → s.job.attached = true →
      let n := leAt b 4 4
      let rel := leAt b 8 8
      let good := b.length = 16 + 16 * n ∧ n ≤ 4096 ∧ rel % 65536 = 0 ∧ relValid s rel = true ∧ s.now + 60000 ≤ relTime rel ∧
        leAt b 0 4 = s.fab.epoch.toNat + 1 ∧ s.fab.rankUpdate = none ∧ ∀ i, i < n → leAt b (16 + 16 * i) 4 < 65536
      (good → Completes (.rankUpdate m) s (fun t => t.fab.rankUpdate = some ⟨BitVec.ofNat 32 (leAt b 0 4), BitVec.ofNat 64 rel,
          (List.range n).map (fun i => (leAt b (16 + 16 * i) 4, BitVec.ofNat 64 (leAt b (24 + 16 * i) 8)))⟩ ∧ t.fab.ranks = s.fab.ranks ∧ t.fab.epoch = s.fab.epoch ∧ t.mem = s.mem)) ∧
      (¬ good → Answers (exec (.rankUpdate m) s) (s.mbxAnswer m 0x0101 []))) ∧
    (has 0x0401 →
      let n := x.arg.toNat / 256
      let kind := x.arg.toNat % 16
      let placed := n % 64 = 0 ∧ s.storeOfExtent n b.length = some .hbm ∧ ∃ r ∈ s.job.regions, inside n b.length r.base r.len = true
      let rows : List (Instr × Nat × Bool) := [(.formulaLoad m, 1, formulaRefused b), (.atomizerProgramLoad m, 2, atmImageRefused b)]
      (∀ r ∈ rows, kind = r.2.1 →
        (s.job.attached = false → Answers (exec r.1 s) (s.mbxAnswer m 0x0105 [])) ∧
        (s.job.attached = true → ¬ placed → Answers (exec r.1 s) (s.mbxAnswer m 0x0101 [])) ∧
        (s.job.attached = true → placed → r.2.2 = true → Answers (exec r.1 s) (s.mbxAnswer m 0x010E [])) ∧
        (s.job.attached = true → placed → r.2.2 = false → Answers (exec r.1 s) ((s.writeMem n b).mbxAnswer m 0 []))) ∧
      (kind = 3 →
        (63 < n → Answers (exec (.trickProgramLoad m) s) (s.mbxAnswer m 0x0101 [])) ∧
        (n ≤ 63 → s.slotInUse n = true → Answers (exec (.trickProgramLoad m) s) (s.mbxAnswer m 0x010D [])) ∧
        (n ≤ 63 → s.slotInUse n = false → trkImageRefused b = true → Answers (exec (.trickProgramLoad m) s) (s.mbxAnswer m 0x010E [])) ∧
        (n ≤ 63 → s.slotInUse n = false → trkImageRefused b = false → Completes (.trickProgramLoad m) s (fun t =>
          (∀ k : Fin 64, t.trk.progs[k] = if k.val = n then b.take 320 else s.trk.progs[k]) ∧ t.mem = s.mem))) ∧
      (kind = 4 →
        (15 < n → Answers (exec (.recipeLoad m) s) (s.mbxAnswer m 0x0101 [])) ∧
        (n ≤ 15 → recipeRefused b = true → Answers (exec (.recipeLoad m) s) (s.mbxAnswer m 0x010E [])) ∧
        (n ≤ 15 → recipeRefused b = false → Completes (.recipeLoad m) s (fun t =>
          (∀ k : Fin 16, t.hbm.recipes[k] = if k.val = n then slice b 0 (64 + 8 * leAt b 0 1) else s.hbm.recipes[k]) ∧ t.mem = s.mem))))

/-- R356, R358 to R364: the checkpoint commands in hand need a job. A Dry-down starts only on the step that the Sachet holds; a statement is given
once it has drained; a seal and a staging check the manifest; a staging of a step that is held recomputes its digest, and of another takes its pieces
anew; a commit needs the step VERIFIED here; a shard read needs a range within its shard, and several run at once. The layouts of the payloads are the
model's (log entry 13), and so is SACHET_BUSY for a staging while a Decant has its checks behind it or copies (log entry 20). -/
def Obligations.CheckpointCommandsActAndAnswer : Prop :=
  ∀ (s : State) (m : Fin 32) (x : MbxMsg), s.serves = true →
    let has (cmd : Nat) : Prop := s.inHand m cmd = some x
    let b := x.payload
    let rows : List (Instr × Nat) := [(.ckpDrydown m, 0x0701), (.ckpStatement m, 0x0702), (.ckpSeal m, 0x0703), (.ckpStage m, 0x0704), (.ckpCommit m, 0x0705),
      (.ckpShardRead m, 0x0706)]
    (∀ r ∈ rows, has r.2 → s.job.attached = false → Answers (exec r.1 s) (s.mbxAnswer m 0x0105 [])) ∧
    (s.job.attached = true →
      (has 0x0701 → let r := decantRec 0 (slice b 0 64)
        let good := 64 ≤ b.length ∧ 1 ≤ r.dryBudget ∧ r.dryBudget ≤ 1023 ∧ 1 ≤ r.drySlots ∧ r.drySlots ≤ 4095
        (¬ good → Answers (exec (.ckpDrydown m) s) (s.mbxAnswer m 0x0101 [])) ∧
        (good → s.ckp.st ≠ .held ∨ r.step ≠ s.ckp.sachetStep → Answers (exec (.ckpDrydown m) s) (s.mbxAnswer m ckInconsistent [])) ∧
        (good → s.ckp.st = .held → r.step = s.ckp.sachetStep → Completes (.ckpDrydown m) s (fun t => t.ckp.st = .draining ∧ t.mem = s.mem ∧
          ((s.mbx m).discard = false → (t.mbx m).msg.status = 0)))) ∧
      (has 0x0702 →
        (s.ckp.st = .drained → Answers (exec (.ckpStatement m) s) (s.mbxAnswer m 0 (s.shardStatement ++ signed s.shardStatement))) ∧
        (s.ckp.st ≠ .drained → Answers (exec (.ckpStatement m) s) (s.mbxAnswer m ckInconsistent []))) ∧
      (has 0x0703 →
        (s.sealGood b = true → Answers (exec (.ckpSeal m) s) (s.mbxAnswer m 0
          (if (manBody b ++ signed (manBody b)).length ≤ 4064 then manBody b ++ signed (manBody b) else signed (manBody b)))) ∧
        (s.sealGood b = false → Answers (exec (.ckpSeal m) s) (s.mbxAnswer m ckManifestBad [])) ∧
        (s.sealGood b = true → s.job.rank = 0 ∧ leAt b 96 32 = Config.identity.toNat)) ∧
      (has 0x0704 → (∀ a ∈ s.ckp.answers, a.1 ≠ m.val) → (∀ g, s.ckp.staging = some g → g.mbx ≠ m.val) →
        let good (e : List Byte) : Prop := manEntryOf b s.job.rank.toNat = some e ∧ manifestLen b ≤ b.length ∧ manSigned b = true ∧
          leAt b 4 4 = s.job.nodeCount.toNat ∧ leAt b 24 32 = s.job.imageDigest.toNat ∧ setDigest (s.stageSet (x.arg.toNat / 64 * 64) (leAt e 4 2)) = slice e 48 16
        ((∀ e, ¬ good e) → Answers (exec (.ckpStage m) s) (s.mbxAnswer m ckManifestBad [])) ∧
        (∀ e, good e →
          let busy := s.ckp.st = .decanting ∨ s.ckp.phase = .armed
          (busy → Answers (exec (.ckpStage m) s) (s.mbxAnswer m ckBusy [])) ∧
          (¬ busy → s.ckp.sachetStep.toNat = leAt b 8 8 → s.ckp.st.holds = true → s.ckpWaits = true → Answers (exec (.ckpStage m) s) s) ∧
          (¬ busy → s.ckp.sachetStep.toNat = leAt b 8 8 → s.ckp.st.holds = true → s.ckpWaits = false → s.mem.upset = [] →
            let ok := s.sachetPoison s.ckp.set 0 (shardLen s.ckp.set) = false ∧ (shardDigest (s.shardIndex s.ckp.set)).toNat = leAt e 16 32
            Completes (.ckpStage m) s (fun t => (ok → t.ckp.st = .verified) ∧ (¬ ok → t.ckp.st = .incomplete) ∧ t.ckp.dry = none ∧ t.mem = s.mem)) ∧
          (¬ busy → (s.ckp.sachetStep.toNat ≠ leAt b 8 8 ∨ s.ckp.st.holds = false) → Completes (.ckpStage m) s (fun t =>
            t.ckp.st = .staging ∧ t.ckp.sachetStep.toNat = leAt b 8 8 ∧ t.ckp.dry = none ∧ t.ckp.commit = none ∧ (s.ckp.dry.isSome = true → t.ckp.err.getLsbD 2 = true) ∧ ∃ g, t.ckp.staging = some g ∧ g.mbx = m.val ∧ g.queue = x.arg.toNat % 64)))) ∧
      (has 0x0705 → (∀ a ∈ s.ckp.answers, a.1 ≠ m.val) → (∀ c, s.ckp.commit = some c → c.mbx ≠ m.val) →
        let good := b.length = 8 ∧ x.arg.toNat % 65536 = 0 ∧ relValid s x.arg.toNat = true
        let mine := s.ckp.commit = none ∧ s.ckp.st = .verified ∧ s.ckp.sachetStep.toNat = leAt b 0 8
        (¬ good → Answers (exec (.ckpCommit m) s) (s.mbxAnswer m 0x0101 [])) ∧
        (good → ¬ mine → Answers (exec (.ckpCommit m) s) (s.mbxAnswer m ckInconsistent [])) ∧
        (good → mine → Answers (exec (.ckpCommit m) s) (s.onCkp (fun k => { k with commit := some ⟨s.ckp.sachetStep, x.arg, false, false, m.val⟩ })))) ∧
      (has 0x0706 → (∀ a ∈ s.ckp.answers, a.1 ≠ m.val) → (∀ r ∈ s.ckp.reads, r.mbx ≠ m.val) →
        let man := b.drop 64
        let off := leAt b 8 8
        let len := leAt b 16 8
        let good (e : List Byte) : Prop := manEntryOf man (leAt b 0 4) = some e ∧ manifestLen man ≤ man.length ∧ manSigned man = true
        let fits (e : List Byte) : Prop := off + len ≤ leAt e 8 8 ∧ leAt b 4 1 < 64 ∧ s.storeOfExtent (leAt b 24 8) (max len 1) = some .hbm
        ((∀ e, ¬ good e) → Answers (exec (.ckpShardRead m) s) (s.mbxAnswer m ckManifestBad [])) ∧
        (∀ e, good e →
          (¬ fits e → Answers (exec (.ckpShardRead m) s) (s.mbxAnswer m 0x0101 [])) ∧
          (fits e → len = 0 → Answers (exec (.ckpShardRead m) s) (s.mbxAnswer m 0 [])) ∧
          (fits e → 0 < len → Completes (.ckpShardRead m) s (fun t => t.mem = s.mem ∧ ∃ r, t.ckp.reads = s.ckp.reads ++ [r] ∧ r.off = off ∧ r.len = len ∧
            r.dest = leAt b 24 8 ∧ r.rank.toNat = leAt b 0 4 ∧ r.total = leAt e 8 8 ∧ r.mbx = m.val)))))

/-- R443, R445: the management bus answers three block reads and refuses any other; the scan port takes its four instructions while there is a supply.
R448 to R453, R458: a write of SCO_CTL takes effect in the next cycle, a write of SCO_CNT stands in place of that cycle's addition and clears LOST and
OVF under a 1, and a write of SCO_SAMPLE starts the count of completions again. An enabled counter adds its event's value, or what its comparison or its
edge makes of it; every Nth completion of a unit is a sample record. That BYPASS captures 0 is the model's (log entry 13). -/
def Obligations.ScanPortManagementBusAndScorecard : Prop :=
  ∀ (s : State) (cmd : Byte) (pins preload : BitVec 40) (u : ScoUnit) (i : Fin 16) (v : W64),
    (s.awake = true → Completes (.smbusBlockRead cmd) s (fun t => t.mem = s.mem ∧ t.bnk.smbus =
      (if cmd = 0 then some (leBytes 8 s.bnkBoot) else if cmd = 1 then some (leBytes 8 s.bnkSec) else if cmd = 2 then some (digestBytes Config.identity) else none))) ∧
    (s.boot.supply = true →
      Answers (exec .bypass s) { s with jtag := { s.jtag with ir := .bypass, dr := 0 } } ∧
      Answers (exec .idcode s) { s with jtag := { s.jtag with ir := .idcode, dr := Config.jtagIdcode.setWidth 64 } } ∧
      Answers (exec (.samplePreload pins preload) s) { s with jtag := { ir := .samplePreload, dr := pins.setWidth 64, cells := preload } } ∧
      Answers (exec (.extest pins) s) { s with jtag := { s.jtag with ir := .extest, dr := pins.setWidth 64 } }) ∧
    (s.serves = true →
      (∀ k, i.val < u.counters → (s.sco.inst u).counters[i.val]? = some k → 
        Completes (.scoCtlWrite u i v) s (fun t => ∃ n, (t.sco.inst u).counters[i.val]? = some n ∧ n.count = k.count ∧ n.ctl = k.ctl ∧ ∀ (gate : Bool) (ev : Option Nat),
          (n.cycle gate ev).count = (k.cycle gate ev).count ∧ let c := (n.cycle gate ev).ctl
          c.thresh = v.extractLsb' 48 16 ∧ c.cmp = v.extractLsb' 46 2 ∧ c.edge = v.getLsbD 45 ∧ c.gated = v.getLsbD 44 ∧
            c.enable = v.getLsbD 43 ∧ c.sub = v.extractLsb' 32 6 ∧ c.event = v.extractLsb' 0 16 ∧ (v.getLsbD 42 = true → c.badEvent = false)) ∧
        Completes (.scoCntWrite u i v) s (fun t => ∃ n, (t.sco.inst u).counters[i.val]? = some n ∧ n.ctl = k.ctl ∧ n.count = k.count ∧
          n.lost = (k.lost && !v.getLsbD 49) ∧ n.ovf = (k.ovf && !v.getLsbD 48) ∧
          ∀ (gate : Bool) (ev : Option Nat), (n.cycle gate ev).count = v.extractLsb' 0 48 ∧ (n.cycle gate ev).ovf = n.ovf)) ∧
      (u.counters ≤ i.val → Answers (exec (.scoCtlWrite u i v) s) s ∧ Answers (exec (.scoCntWrite u i v) s) s) ∧
      (Completes (.scoSampleWrite u v) s (fun t => t.mem = s.mem ∧ t.cores = s.cores ∧
        (u.samples = true → (t.sco.inst u).period = v.extractLsb' 0 32 ∧ (t.sco.inst u).done = 0)))) ∧
    (∀ (k : ScoCounter) (gate : Bool) (ev : Option Nat), k.written = none →
      let on := k.ctl.enable = true ∧ (k.ctl.gated = true → gate = true)
      let n := k.cycle gate ev
      let adds (a : Nat) : Prop := n.count.toNat = (k.count.toNat + a) % 2 ^ 48 ∧ (n.ovf = true ↔ k.ovf = true ∨ 2 ^ 48 ≤ k.count.toNat + a)
      let met (P : Prop) : Prop := (P → adds 1) ∧ (¬ P → adds 0)
      (¬ on → adds 0) ∧ (ev = none → k.ctl.enable = true → adds 0 ∧ (k.next = none → n.ctl.badEvent = true)) ∧
      (∀ w, ev = some w → on → k.ctl.edge = false →
        (k.ctl.cmp = 0 → adds w) ∧ (k.ctl.cmp = 1 → met (k.ctl.thresh.toNat < w)) ∧ (k.ctl.cmp = 2 → met (k.ctl.thresh.toNat ≤ w))) ∧
      (∀ w, ev = some w → on → k.ctl.edge = true → k.ctl.cmp = 0 → met (w ≠ 0 ∧ k.prev = false))) ∧
    (∀ (ps : List Pulse) (cyc sub : Nat) (e : Fin 64) (d : Fin 192) (c : Fin 16),
      eventValue s ps cyc u 0 sub = some 1 ∧
      eventValue s ps cyc (.tbl e) 0x0105 sub = some (s.engine .tbl e).fifo.length ∧
      (eventValue s ps cyc (.tbl e) 0x0103 sub = some 1 ↔ s.waitsPip .tbl e = true ∧ (s.engine .tbl e).head.firstEffect ≤ s.now) ∧
      (eventValue s ps cyc (.dlr d) 0x0505 sub = some 1 ↔ (s.core d).stall = some .submit) ∧
      (eventValue s ps cyc (.mem c) 0x0705 sub = some 1 ↔ (s.ctl c).retraining ≠ 0) ∧
      eventValue s ps cyc .fdie 0x0603 sub = some s.outstandingWrites ∧
      eventValue s ps cyc .fdie 0x0101 sub = none ∧ eventValue s ps cyc (.tbl e) 0x0501 sub = none) ∧
    (∀ id detail latency cause : Nat, let x := s.sco.inst u
      let t := s.completion u id detail latency cause
      let who : Nat × Nat := match u with
        | .tbl j => (1, j.val)
        | .atm j => (2, j.val)
        | .sol j => (3, j.val)
        | .shf j => (5, j.val)
        | .dlr j => (6, j.val)
        | _ => (0, 0)
      (x.period = 0 → t = s) ∧
      (x.period ≠ 0 → (t.sco.inst u).done = x.done + 1 ∧ t.mem = s.mem ∧
        ((x.done + 1) % x.period.toNat ≠ 0 → t.sco.samples = s.sco.samples) ∧
        ((x.done + 1) % x.period.toNat = 0 → ∃ r, t.sco.samples = s.sco.samples ++ [r] ∧ r.bytes =
          leBytes 1 who.1 ++ leBytes 1 cause ++ leBytes 2 who.2 ++ leBytes 4 (min latency (2 ^ 32 - 1)) ++ leBytes 8 id ++ leBytes 8 s.stamp.toNat ++ leBytes 8 detail)))

/-! ### The whole machine -/

/-- The convention of the commands (log entries 1 and 2): a step takes the command at the front of the queue and runs it on the state with the queue's
rest; with an empty queue one cycle passes, and the queue stays empty. Every command completes in every state: no step faults and none is refused,
however long the run (log entry 1: a command whose condition does not hold changes nothing). -/
def Obligations.StepRunsTheFrontOfTheQueue : Prop :=
  ((∀ (c : Instr) (rest : List Instr) (s : State), step { s with pending := c :: rest } = exec c { s with pending := rest }) ∧
  ∀ s : State, s.pending = [] → Answers (step s) s.idle) ∧
  ((∀ (c : Instr) (s : State), ∃ t, Answers (exec c s) t) ∧ ∀ (n : Nat) (s : State), SafeRun n s)

/-- What reset leaves: the values that the register tables give (R25, R34, R116, R216, R231, R258, R259, R286, R314, R393, R446, R473), with no job
attached, nothing queued and no memory listed, which is memory in canonical form. Where the spec gives no value (the pips, the tables of outstanding
work) it is the model's zero or empty one (log entry 4). -/
def Obligations.ResetLeavesTheStatedValues : Prop :=
  let s := State.reset
  (∀ c : Fin 192, let x := s.core c
    x.halted = true ∧ x.runBit = false ∧ x.vtype = 3 ∧ x.k[0] = 0xFFFF ∧ x.fflags = 0 ∧ x.tvec = 0 ∧ x.err = 0 ∧ x.acr = 0) ∧
  (s.cad.st = .acquiring ∧ s.cad.aligned = false ∧ s.cad.events = 0 ∧ s.cad.count = 0 ∧ s.cad.src = 0) ∧
  (∀ (k : EngKind) (i : Fin 64), i.val < k.count → let e := s.engine k i
    e.runBit = false ∧ e.fifo = [] ∧ e.head.phase = .idle) ∧
  (s.fab.incarnation = 0 ∧ s.fab.jobTag = 0 ∧ s.fab.epoch = 0 ∧ s.fab.enable = false ∧ s.fab.rrcEn = true ∧ s.fab.limit = 8 ∧ s.fab.timeout = 30000 ∧
    s.fab.ops = [] ∧ s.fab.replay = [] ∧ s.fab.ranks = [] ∧ s.fab.partners = []) ∧
  (∀ p : Fin 32, let x := s.fab.ports[p]
    x.role = (if p.val < 7 then 1 else if 8 ≤ p.val ∧ p.val ≤ 23 then 2 else 3) ∧ x.up = false ∧ x.trained = false ∧ x.fecLimit = 4096 ∧ x.activeW = 0x0FF) ∧
  (∀ k : Fin 16, let x := s.ctl k
    x.scrubHours = 12 ∧ x.err = 0 ∧ x.trained = false ∧ x.retired = 0 ∧ x.retraining = 0) ∧
  (s.hbm.pips = [] ∧ s.mem.cells = [] ∧ s.mem.poison = [] ∧ s.mem.wf = true) ∧
  (s.hnd.err = 0 ∧ s.hnd.out = [] ∧ s.hnd.inn = [] ∧ s.trk.runBit = false ∧ s.trk.running = [] ∧ s.trk.queue = []) ∧
  (s.ckp.st = .empty ∧ s.flt.fenced = false ∧ s.flt.witnessEn = true ∧ s.flt.err = 0 ∧ s.flt.log = []) ∧
  (s.job.attached = false ∧ s.bnk.err = 0 ∧ s.bnk.debugOpen = false ∧ s.pwr.err = 0 ∧ s.pwr.level = 0 ∧ s.boot.ready = false ∧ s.resets = [])

/-- Every step keeps memory in its canonical form, rising addresses with no entry that reads as an unlisted address does, whatever command is at the
front of the queue and whatever state it stands in. -/
def Obligations.EveryStepKeepsMemoryCanonical : Prop :=
  (∀ (c : Instr) (s t : State), s.mem.wf = true → Answers (exec c s) t → t.mem.wf = true) ∧
  ∀ s t : State, s.mem.wf = true → Answers (step s) t → t.mem.wf = true

/-- R285: no field of a transaction header is lost in its 32 bytes. -/
def Obligations.HeadersSurviveTheirBytes : Prop := ∀ h : Hdr, h.bytes.length = 32 ∧ Hdr.ofBytes h.bytes = h

/-- R235 to R239: the HBM windows lay their bytes out one to one, with pseudo-channels out of service in any pattern: the byte of a window address has
a place of its own in a pseudo-channel in service, below the twins, and that place names the address again. -/
def Obligations.HbmWindowsAreOneToOne : Prop :=
  ∀ (s : State) (a : Nat), s.splitBytes ≤ s.liveBytes → a < s.hbmEnd →
    s.pchOut (s.hbmKey a / 2 ^ 30) = false ∧ s.hbmKey a / 2 ^ 30 < 1024 ∧ s.hbmKey a % 2 ^ 30 < s.liveBytes ∧ s.hbmKey a % 256 = a % 256 ∧
    s.hbmAddr (s.hbmKey a) = a
end

