-- ==== Sys2Proof/Laws/Exec.lean ====
section
/-!
SUPPORT. Exec.lean: what each arm of `exec` is.
-/
namespace Sys2Proof.Machine

open Sys2Proof

theorem exec_marker (src : Fin 33) (count : Count) (crc : Byte) (s : State) : exec (.marker src count crc) s = execMarker src count crc s := rfl
theorem exec_sourceInvalid (src : Fin 33) (s : State) : exec (.sourceInvalid src) s = execSourceInvalid src s := rfl
theorem exec_acquireTimeout (s : State) : exec (.acquireTimeout) s = execAcquireTimeout s := rfl
theorem exec_cadenceIntervalTick (s : State) : exec (.cadenceIntervalTick) s = execCadenceIntervalTick s := rfl
theorem exec_forcedFreeRun (s : State) : exec (.forcedFreeRun) s = execForcedFreeRun s := rfl
theorem exec_alignmentHandshake (mismatch : BitVec 6) (s : State) : exec (.alignmentHandshake mismatch) s = execAlignmentHandshake mismatch s := rfl
theorem exec_cadCtrlWrite (v : W64) (s : State) : exec (.cadCtrlWrite v) s = execCadCtrlWrite v s := rfl
theorem exec_actionRelease (ref : ActionRef) (s : State) : exec (.actionRelease ref) s = execActionRelease ref s := rfl
theorem exec_registerWrite (agent : Agent) (addr : W64) (v : W64) (s : State) : exec (.registerWrite agent addr v) s = execRegisterWrite agent addr v s := rfl
theorem exec_submit (c : Fin 192) (a b : Fin 32) (s : State) : exec (.submit c a b) s = execSubmit c a b s := rfl
theorem exec_tblAccept (i : Fin 64) (s : State) : exec (.tblAccept i) s = execTblAccept i s := rfl
theorem exec_atmAccept (i : Fin 64) (s : State) : exec (.atmAccept i) s = execAtmAccept i s := rfl
theorem exec_solAccept (i : Fin 16) (s : State) : exec (.solAccept i) s = execSolAccept i s := rfl
theorem exec_shfAccept (i : Fin 16) (s : State) : exec (.shfAccept i) s = execShfAccept i s := rfl
theorem exec_descriptorHead (k : EngKind) (i : Fin 64) (s : State) : exec (.descriptorHead k i) s = execDescriptorHead k i s := rfl
theorem exec_pipWaitSatisfied (k : EngKind) (i : Fin 64) (s : State) : exec (.pipWaitSatisfied k i) s = execPipWaitSatisfied k i s := rfl
theorem exec_chunkConsume (i : Fin 64) (s : State) : exec (.chunkConsume i) s = execChunkConsume i s := rfl
theorem exec_tblTileOutput (i : Fin 64) (s : State) : exec (.tblTileOutput i) s = execTblTileOutput i s := rfl
theorem exec_tblCommit (i : Fin 64) (s : State) : exec (.tblCommit i) s = execTblCommit i s := rfl
theorem exec_pipTimeout (k : EngKind) (i : Fin 64) (s : State) : exec (.pipTimeout k i) s = execPipTimeout k i s := rfl
theorem exec_cqHeadWrite (o : RingOwner) (v : W64) (s : State) : exec (.cqHeadWrite o v) s = execCqHeadWrite o v s := rfl
theorem exec_ctrlRunWrite (o : RingOwner) (v : W64) (s : State) : exec (.ctrlRunWrite o v) s = execCtrlRunWrite o v s := rfl
theorem exec_organSplitWrite (i : Fin 64) (v : W64) (s : State) : exec (.organSplitWrite i v) s = execOrganSplitWrite i v s := rfl
theorem exec_atmTileInvocation (i : Fin 64) (s : State) : exec (.atmTileInvocation i) s = execAtmTileInvocation i s := rfl
theorem exec_atmCommit (i : Fin 64) (s : State) : exec (.atmCommit i) s = execAtmCommit i s := rfl
theorem exec_compounderLaneGroup (i : Fin 16) (s : State) : exec (.compounderLaneGroup i) s = execCompounderLaneGroup i s := rfl
theorem exec_solFactorise (i : Fin 16) (p : BitVec 12) (s : State) : exec (.solFactorise i p) s = execSolFactorise i p s := rfl
theorem exec_solRefine (i : Fin 16) (p : BitVec 12) (s : State) : exec (.solRefine i p) s = execSolRefine i p s := rfl
theorem exec_solProblemCommit (i : Fin 16) (s : State) : exec (.solProblemCommit i) s = execSolProblemCommit i s := rfl
theorem exec_shfCommit (i : Fin 16) (s : State) : exec (.shfCommit i) s = execShfCommit i s := rfl
theorem exec_shfStateWrite (i : Fin 16) (off : BitVec 12) (v : W64) (s : State) : exec (.shfStateWrite i off v) s = execShfStateWrite i off v s := rfl
theorem exec_shfJaBaseWrite (i : Fin 16) (v : W64) (s : State) : exec (.shfJaBaseWrite i v) s = execShfJaBaseWrite i v s := rfl
theorem exec_add (c : Fin 192) (d a b : Fin 32) (s : State) : exec (.add c d a b) s = execAdd c d a b s := rfl
theorem exec_sub (c : Fin 192) (d a b : Fin 32) (s : State) : exec (.sub c d a b) s = execSub c d a b s := rfl
theorem exec_and (c : Fin 192) (d a b : Fin 32) (s : State) : exec (.and c d a b) s = execAnd c d a b s := rfl
theorem exec_or (c : Fin 192) (d a b : Fin 32) (s : State) : exec (.or c d a b) s = execOr c d a b s := rfl
theorem exec_xor (c : Fin 192) (d a b : Fin 32) (s : State) : exec (.xor c d a b) s = execXor c d a b s := rfl
theorem exec_sll (c : Fin 192) (d a b : Fin 32) (s : State) : exec (.sll c d a b) s = execSll c d a b s := rfl
theorem exec_srl (c : Fin 192) (d a b : Fin 32) (s : State) : exec (.srl c d a b) s = execSrl c d a b s := rfl
theorem exec_sra (c : Fin 192) (d a b : Fin 32) (s : State) : exec (.sra c d a b) s = execSra c d a b s := rfl
theorem exec_mul (c : Fin 192) (d a b : Fin 32) (s : State) : exec (.mul c d a b) s = execMul c d a b s := rfl
theorem exec_mulhs (c : Fin 192) (d a b : Fin 32) (s : State) : exec (.mulhs c d a b) s = execMulhs c d a b s := rfl
theorem exec_mulhu (c : Fin 192) (d a b : Fin 32) (s : State) : exec (.mulhu c d a b) s = execMulhu c d a b s := rfl
theorem exec_div (c : Fin 192) (d a b : Fin 32) (s : State) : exec (.div c d a b) s = execDiv c d a b s := rfl
theorem exec_divu (c : Fin 192) (d a b : Fin 32) (s : State) : exec (.divu c d a b) s = execDivu c d a b s := rfl
theorem exec_rem (c : Fin 192) (d a b : Fin 32) (s : State) : exec (.rem c d a b) s = execRem c d a b s := rfl
theorem exec_remu (c : Fin 192) (d a b : Fin 32) (s : State) : exec (.remu c d a b) s = execRemu c d a b s := rfl
theorem exec_slt (c : Fin 192) (d a b : Fin 32) (s : State) : exec (.slt c d a b) s = execSlt c d a b s := rfl
theorem exec_sltu (c : Fin 192) (d a b : Fin 32) (s : State) : exec (.sltu c d a b) s = execSltu c d a b s := rfl
theorem exec_addi (c : Fin 192) (d a : Fin 32) (imm : BitVec 16) (s : State) : exec (.addi c d a imm) s = execAddi c d a imm s := rfl
theorem exec_andi (c : Fin 192) (d a : Fin 32) (imm : BitVec 16) (s : State) : exec (.andi c d a imm) s = execAndi c d a imm s := rfl
theorem exec_ori (c : Fin 192) (d a : Fin 32) (imm : BitVec 16) (s : State) : exec (.ori c d a imm) s = execOri c d a imm s := rfl
theorem exec_xori (c : Fin 192) (d a : Fin 32) (imm : BitVec 16) (s : State) : exec (.xori c d a imm) s = execXori c d a imm s := rfl
theorem exec_slti (c : Fin 192) (d a : Fin 32) (imm : BitVec 16) (s : State) : exec (.slti c d a imm) s = execSlti c d a imm s := rfl
theorem exec_slli (c : Fin 192) (d a : Fin 32) (sh : BitVec 6) (s : State) : exec (.slli c d a sh) s = execSlli c d a sh s := rfl
theorem exec_srli (c : Fin 192) (d a : Fin 32) (sh : BitVec 6) (s : State) : exec (.srli c d a sh) s = execSrli c d a sh s := rfl
theorem exec_srai (c : Fin 192) (d a : Fin 32) (sh : BitVec 6) (s : State) : exec (.srai c d a sh) s = execSrai c d a sh s := rfl
theorem exec_lui (c : Fin 192) (d : Fin 32) (imm : BitVec 16) (s : State) : exec (.lui c d imm) s = execLui c d imm s := rfl
theorem exec_ld64 (c : Fin 192) (d a : Fin 32) (imm : BitVec 16) (s : State) : exec (.ld64 c d a imm) s = execLd64 c d a imm s := rfl
theorem exec_ld32 (c : Fin 192) (d a : Fin 32) (imm : BitVec 16) (s : State) : exec (.ld32 c d a imm) s = execLd32 c d a imm s := rfl
theorem exec_ld16 (c : Fin 192) (d a : Fin 32) (imm : BitVec 16) (s : State) : exec (.ld16 c d a imm) s = execLd16 c d a imm s := rfl
theorem exec_ld8 (c : Fin 192) (d a : Fin 32) (imm : BitVec 16) (s : State) : exec (.ld8 c d a imm) s = execLd8 c d a imm s := rfl
theorem exec_ld32u (c : Fin 192) (d a : Fin 32) (imm : BitVec 16) (s : State) : exec (.ld32u c d a imm) s = execLd32u c d a imm s := rfl
theorem exec_ld16u (c : Fin 192) (d a : Fin 32) (imm : BitVec 16) (s : State) : exec (.ld16u c d a imm) s = execLd16u c d a imm s := rfl
theorem exec_ld8u (c : Fin 192) (d a : Fin 32) (imm : BitVec 16) (s : State) : exec (.ld8u c d a imm) s = execLd8u c d a imm s := rfl
theorem exec_st64 (c : Fin 192) (d a : Fin 32) (imm : BitVec 16) (s : State) : exec (.st64 c d a imm) s = execSt64 c d a imm s := rfl
theorem exec_st32 (c : Fin 192) (d a : Fin 32) (imm : BitVec 16) (s : State) : exec (.st32 c d a imm) s = execSt32 c d a imm s := rfl
theorem exec_st16 (c : Fin 192) (d a : Fin 32) (imm : BitVec 16) (s : State) : exec (.st16 c d a imm) s = execSt16 c d a imm s := rfl
theorem exec_st8 (c : Fin 192) (d a : Fin 32) (imm : BitVec 16) (s : State) : exec (.st8 c d a imm) s = execSt8 c d a imm s := rfl
theorem exec_fld (c : Fin 192) (d a : Fin 32) (imm : BitVec 16) (s : State) : exec (.fld c d a imm) s = execFld c d a imm s := rfl
theorem exec_fst (c : Fin 192) (d a : Fin 32) (imm : BitVec 16) (s : State) : exec (.fst c d a imm) s = execFst c d a imm s := rfl
theorem exec_fld32 (c : Fin 192) (d a : Fin 32) (imm : BitVec 16) (s : State) : exec (.fld32 c d a imm) s = execFld32 c d a imm s := rfl
theorem exec_fst32 (c : Fin 192) (d a : Fin 32) (imm : BitVec 16) (s : State) : exec (.fst32 c d a imm) s = execFst32 c d a imm s := rfl
theorem exec_beq (c : Fin 192) (d a : Fin 32) (imm : BitVec 16) (s : State) : exec (.beq c d a imm) s = execBeq c d a imm s := rfl
theorem exec_bne (c : Fin 192) (d a : Fin 32) (imm : BitVec 16) (s : State) : exec (.bne c d a imm) s = execBne c d a imm s := rfl
theorem exec_blt (c : Fin 192) (d a : Fin 32) (imm : BitVec 16) (s : State) : exec (.blt c d a imm) s = execBlt c d a imm s := rfl
theorem exec_bge (c : Fin 192) (d a : Fin 32) (imm : BitVec 16) (s : State) : exec (.bge c d a imm) s = execBge c d a imm s := rfl
theorem exec_bltu (c : Fin 192) (d a : Fin 32) (imm : BitVec 16) (s : State) : exec (.bltu c d a imm) s = execBltu c d a imm s := rfl
theorem exec_bgeu (c : Fin 192) (d a : Fin 32) (imm : BitVec 16) (s : State) : exec (.bgeu c d a imm) s = execBgeu c d a imm s := rfl
theorem exec_jmp (c : Fin 192) (off : BitVec 26) (s : State) : exec (.jmp c off) s = execJmp c off s := rfl
theorem exec_jal (c : Fin 192) (off : BitVec 26) (s : State) : exec (.jal c off) s = execJal c off s := rfl
theorem exec_jr (c : Fin 192) (a : Fin 32) (s : State) : exec (.jr c a) s = execJr c a s := rfl
theorem exec_jalr (c : Fin 192) (a : Fin 32) (s : State) : exec (.jalr c a) s = execJalr c a s := rfl
theorem exec_fadd (c : Fin 192) (d a b : Fin 32) (single : Bool) (s : State) : exec (.fadd c d a b single) s = execFadd c d a b single s := rfl
theorem exec_fsub (c : Fin 192) (d a b : Fin 32) (single : Bool) (s : State) : exec (.fsub c d a b single) s = execFsub c d a b single s := rfl
theorem exec_fmul (c : Fin 192) (d a b : Fin 32) (single : Bool) (s : State) : exec (.fmul c d a b single) s = execFmul c d a b single s := rfl
theorem exec_ffma (c : Fin 192) (d a b : Fin 32) (single : Bool) (s : State) : exec (.ffma c d a b single) s = execFfma c d a b single s := rfl
theorem exec_fdiv (c : Fin 192) (d a b : Fin 32) (single : Bool) (s : State) : exec (.fdiv c d a b single) s = execFdiv c d a b single s := rfl
theorem exec_fsqrt (c : Fin 192) (d a : Fin 32) (single : Bool) (s : State) : exec (.fsqrt c d a single) s = execFsqrt c d a single s := rfl
theorem exec_fmin (c : Fin 192) (d a b : Fin 32) (single : Bool) (s : State) : exec (.fmin c d a b single) s = execFmin c d a b single s := rfl
theorem exec_fmax (c : Fin 192) (d a b : Fin 32) (single : Bool) (s : State) : exec (.fmax c d a b single) s = execFmax c d a b single s := rfl
theorem exec_feq (c : Fin 192) (d a b : Fin 32) (single : Bool) (s : State) : exec (.feq c d a b single) s = execFeq c d a b single s := rfl
theorem exec_flt (c : Fin 192) (d a b : Fin 32) (single : Bool) (s : State) : exec (.flt c d a b single) s = execFlt c d a b single s := rfl
theorem exec_fle (c : Fin 192) (d a b : Fin 32) (single : Bool) (s : State) : exec (.fle c d a b single) s = execFle c d a b single s := rfl
theorem exec_fcvt (c : Fin 192) (d a : Fin 32) (code : Fin 32) (single : Bool) (s : State) : exec (.fcvt c d a code single) s = execFcvt c d a code single s := rfl
theorem exec_ftoi (c : Fin 192) (d a : Fin 32) (single : Bool) (s : State) : exec (.ftoi c d a single) s = execFtoi c d a single s := rfl
theorem exec_itof (c : Fin 192) (d a : Fin 32) (single : Bool) (s : State) : exec (.itof c d a single) s = execItof c d a single s := rfl
theorem exec_fmvg (c : Fin 192) (d a : Fin 32) (single : Bool) (s : State) : exec (.fmvg c d a single) s = execFmvg c d a single s := rfl
theorem exec_fmvf (c : Fin 192) (d a : Fin 32) (single : Bool) (s : State) : exec (.fmvf c d a single) s = execFmvf c d a single s := rfl
theorem exec_fence (c : Fin 192) (d a : Fin 32) (s : State) : exec (.fence c d a) s = execFence c d a s := rfl
theorem exec_fenceComplete (c : Fin 192) (s : State) : exec (.fenceComplete c) s = execFenceComplete c s := rfl
theorem exec_rdcyc (c : Fin 192) (d : Fin 32) (s : State) : exec (.rdcyc c d) s = execRdcyc c d s := rfl
theorem exec_rdcad (c : Fin 192) (d : Fin 32) (s : State) : exec (.rdcad c d) s = execRdcad c d s := rfl
theorem exec_rdacr (c : Fin 192) (d : Fin 32) (s : State) : exec (.rdacr c d) s = execRdacr c d s := rfl
theorem exec_wracr (c : Fin 192) (a : Fin 32) (s : State) : exec (.wracr c a) s = execWracr c a s := rfl
theorem exec_rdflags (c : Fin 192) (d : Fin 32) (s : State) : exec (.rdflags c d) s = execRdflags c d s := rfl
theorem exec_wrflags (c : Fin 192) (a : Fin 32) (s : State) : exec (.wrflags c a) s = execWrflags c a s := rfl
theorem exec_trapret (c : Fin 192) (s : State) : exec (.trapret c) s = execTrapret c s := rfl
theorem exec_brk (c : Fin 192) (s : State) : exec (.brk c) s = execBrk c s := rfl
theorem exec_wrtvec (c : Fin 192) (a : Fin 32) (s : State) : exec (.wrtvec c a) s = execWrtvec c a s := rfl
theorem exec_setvl (c : Fin 192) (d a : Fin 32) (safe : Bool) (vt : BitVec 8) (s : State) : exec (.setvl c d a safe vt) s = execSetvl c d a safe vt s := rfl
theorem exec_vadd (c : Fin 192) (d a b : Fin 32) (m : Fin 8) (s : State) : exec (.vadd c d a b m) s = execVadd c d a b m s := rfl
theorem exec_vsub (c : Fin 192) (d a b : Fin 32) (m : Fin 8) (s : State) : exec (.vsub c d a b m) s = execVsub c d a b m s := rfl
theorem exec_vmul (c : Fin 192) (d a b : Fin 32) (m : Fin 8) (s : State) : exec (.vmul c d a b m) s = execVmul c d a b m s := rfl
theorem exec_vfma (c : Fin 192) (d a b : Fin 32) (m : Fin 8) (s : State) : exec (.vfma c d a b m) s = execVfma c d a b m s := rfl
theorem exec_vdiv (c : Fin 192) (d a b : Fin 32) (m : Fin 8) (s : State) : exec (.vdiv c d a b m) s = execVdiv c d a b m s := rfl
theorem exec_vsqrt (c : Fin 192) (d a : Fin 32) (m : Fin 8) (s : State) : exec (.vsqrt c d a m) s = execVsqrt c d a m s := rfl
theorem exec_vmin (c : Fin 192) (d a b : Fin 32) (m : Fin 8) (s : State) : exec (.vmin c d a b m) s = execVmin c d a b m s := rfl
theorem exec_vmax (c : Fin 192) (d a b : Fin 32) (m : Fin 8) (s : State) : exec (.vmax c d a b m) s = execVmax c d a b m s := rfl
theorem exec_vand (c : Fin 192) (d a b : Fin 32) (m : Fin 8) (s : State) : exec (.vand c d a b m) s = execVand c d a b m s := rfl
theorem exec_vor (c : Fin 192) (d a b : Fin 32) (m : Fin 8) (s : State) : exec (.vor c d a b m) s = execVor c d a b m s := rfl
theorem exec_vxor (c : Fin 192) (d a b : Fin 32) (m : Fin 8) (s : State) : exec (.vxor c d a b m) s = execVxor c d a b m s := rfl
theorem exec_vsll (c : Fin 192) (d a b : Fin 32) (m : Fin 8) (s : State) : exec (.vsll c d a b m) s = execVsll c d a b m s := rfl
theorem exec_vsrl (c : Fin 192) (d a b : Fin 32) (m : Fin 8) (s : State) : exec (.vsrl c d a b m) s = execVsrl c d a b m s := rfl
theorem exec_vsra (c : Fin 192) (d a b : Fin 32) (m : Fin 8) (s : State) : exec (.vsra c d a b m) s = execVsra c d a b m s := rfl
theorem exec_vcmpeq (c : Fin 192) (d a b : Fin 32) (m : Fin 8) (s : State) : exec (.vcmpeq c d a b m) s = execVcmpeq c d a b m s := rfl
theorem exec_vcmplt (c : Fin 192) (d a b : Fin 32) (m : Fin 8) (s : State) : exec (.vcmplt c d a b m) s = execVcmplt c d a b m s := rfl
theorem exec_vcmple (c : Fin 192) (d a b : Fin 32) (m : Fin 8) (s : State) : exec (.vcmple c d a b m) s = execVcmple c d a b m s := rfl
theorem exec_vsel (c : Fin 192) (d a b : Fin 32) (m : Fin 8) (s : State) : exec (.vsel c d a b m) s = execVsel c d a b m s := rfl
theorem exec_vsplat (c : Fin 192) (d a : Fin 32) (m : Fin 8) (s : State) : exec (.vsplat c d a m) s = execVsplat c d a m s := rfl
theorem exec_vmv (c : Fin 192) (d a : Fin 32) (m : Fin 8) (s : State) : exec (.vmv c d a m) s = execVmv c d a m s := rfl
theorem exec_vcvt (c : Fin 192) (d a : Fin 32) (code : Fin 32) (m : Fin 8) (s : State) : exec (.vcvt c d a code m) s = execVcvt c d a code m s := rfl
theorem exec_vsad (c : Fin 192) (d a b : Fin 32) (m : Fin 8) (s : State) : exec (.vsad c d a b m) s = execVsad c d a b m s := rfl
theorem exec_vsada (c : Fin 192) (d a b : Fin 32) (m : Fin 8) (s : State) : exec (.vsada c d a b m) s = execVsada c d a b m s := rfl
theorem exec_vredsum (c : Fin 192) (d a b : Fin 32) (m : Fin 8) (s : State) : exec (.vredsum c d a b m) s = execVredsum c d a b m s := rfl
theorem exec_vredmax (c : Fin 192) (d a b : Fin 32) (m : Fin 8) (s : State) : exec (.vredmax c d a b m) s = execVredmax c d a b m s := rfl
theorem exec_vld (c : Fin 192) (d a : Fin 32) (m : Fin 8) (s : State) : exec (.vld c d a m) s = execVld c d a m s := rfl
theorem exec_vst (c : Fin 192) (d a : Fin 32) (m : Fin 8) (s : State) : exec (.vst c d a m) s = execVst c d a m s := rfl
theorem exec_vlds (c : Fin 192) (d a b : Fin 32) (m : Fin 8) (s : State) : exec (.vlds c d a b m) s = execVlds c d a b m s := rfl
theorem exec_vsts (c : Fin 192) (d a b : Fin 32) (m : Fin 8) (s : State) : exec (.vsts c d a b m) s = execVsts c d a b m s := rfl
theorem exec_gather (c : Fin 192) (d a b : Fin 32) (m : Fin 8) (sh iw : BitVec 2) (s : State) : exec (.gather c d a b m sh iw) s = execGather c d a b m sh iw s := rfl
theorem exec_gatherff (c : Fin 192) (d a b : Fin 32) (m : Fin 8) (sh iw : BitVec 2) (s : State) : exec (.gatherff c d a b m sh iw) s = execGatherff c d a b m sh iw s := rfl
theorem exec_scatter (c : Fin 192) (d a b : Fin 32) (m : Fin 8) (sh iw : BitVec 2) (s : State) : exec (.scatter c d a b m sh iw) s = execScatter c d a b m sh iw s := rfl
theorem exec_atom (c : Fin 192) (d a b : Fin 32) (s : State) : exec (.atom c d a b) s = execAtom c d a b s := rfl
theorem exec_rput (c : Fin 192) (d a b : Fin 32) (s : State) : exec (.rput c d a b) s = execRput c d a b s := rfl
theorem exec_rget (c : Fin 192) (d a b : Fin 32) (s : State) : exec (.rget c d a b) s = execRget c d a b s := rfl
theorem exec_inval (c : Fin 192) (a b : Fin 32) (s : State) : exec (.inval c a b) s = execInval c a b s := rfl
theorem exec_invalSend (c : Fin 192) (d a b : Fin 32) (s : State) : exec (.invalSend c d a b) s = execInvalSend c d a b s := rfl
theorem exec_hand (c : Fin 192) (d a : Fin 32) (s : State) : exec (.hand c d a) s = execHand c d a s := rfl
theorem exec_msend (c : Fin 192) (d a : Fin 32) (s : State) : exec (.msend c d a) s = execMsend c d a s := rfl
theorem exec_dlrCtrlWrite (c : Fin 192) (v : W64) (s : State) : exec (.dlrCtrlWrite c v) s = execDlrCtrlWrite c v s := rfl
theorem exec_safepointHalt (c : Fin 192) (s : State) : exec (.safepointHalt c) s = execSafepointHalt c s := rfl
theorem exec_ctxSave (c : Fin 192) (s : State) : exec (.ctxSave c) s = execCtxSave c s := rfl
theorem exec_ctxRestore (c : Fin 192) (s : State) : exec (.ctxRestore c) s = execCtxRestore c s := rfl
theorem exec_pipRaise (suit : Fin 16) (v : W64) (s : State) : exec (.pipRaise suit v) s = execPipRaise suit v s := rfl
theorem exec_pipLower (suit : Fin 16) (v : W64) (s : State) : exec (.pipLower suit v) s = execPipLower suit v s := rfl
theorem exec_iadd (r : MsSource) (s : State) : exec (.iadd r) s = execIadd r s := rfl
theorem exec_smin (r : MsSource) (s : State) : exec (.smin r) s = execSmin r s := rfl
theorem exec_smax (r : MsSource) (s : State) : exec (.smax r) s = execSmax r s := rfl
theorem exec_umin (r : MsSource) (s : State) : exec (.umin r) s = execUmin r s := rfl
theorem exec_umax (r : MsSource) (s : State) : exec (.umax r) s = execUmax r s := rfl
theorem exec_msideFmin (r : MsSource) (s : State) : exec (.msideFmin r) s = execMsideFmin r s := rfl
theorem exec_msideFmax (r : MsSource) (s : State) : exec (.msideFmax r) s = execMsideFmax r s := rfl
theorem exec_plainFadd (r : MsSource) (s : State) : exec (.plainFadd r) s = execPlainFadd r s := rfl
theorem exec_aadd (r : MsSource) (s : State) : exec (.aadd r) s = execAadd r s := rfl
theorem exec_aclear (r : MsSource) (s : State) : exec (.aclear r) s = execAclear r s := rfl
theorem exec_aread (r : MsSource) (s : State) : exec (.aread r) s = execAread r s := rfl
theorem exec_recipe (r : MsSource) (s : State) : exec (.recipe r) s = execRecipe r s := rfl
theorem exec_swap (r : MsSource) (s : State) : exec (.swap r) s = execSwap r s := rfl
theorem exec_cas (r : MsSource) (s : State) : exec (.cas r) s = execCas r s := rfl
theorem exec_aregDeclare (x : Fin 64) (v : W64) (s : State) : exec (.aregDeclare x v) s = execAregDeclare x v s := rfl
theorem exec_memCtrlWrite (ctl : Fin 16) (v : W64) (s : State) : exec (.memCtrlWrite ctl v) s = execMemCtrlWrite ctl v s := rfl
theorem exec_memRetrain (ctl : Fin 16) (v : W64) (s : State) : exec (.memRetrain ctl v) s = execMemRetrain ctl v s := rfl
theorem exec_channelRetrain (ctl : Fin 16) (ch : Fin 32) (temp : BitVec 8) (s : State) : exec (.channelRetrain ctl ch temp) s = execChannelRetrain ctl ch temp s := rfl
theorem exec_channelRetrainDone (ctl : Fin 16) (ch : Fin 32) (ok : Bool) (temp : BitVec 8) (s : State) : exec (.channelRetrainDone ctl ch ok temp) s = execChannelRetrainDone ctl ch ok temp s := rfl
theorem exec_patrolScrub (ctl : Fin 16) (pch : Fin 64) (r : ScrubRead) (s : State) : exec (.patrolScrub ctl pch r) s = execPatrolScrub ctl pch r s := rfl
theorem exec_flitReceive (port : Fin 32) (f : FlitIn) (s : State) : exec (.flitReceive port f) s = execFlitReceive port f s := rfl
theorem exec_wavelengthFailing (port : Fin 32) (w : Fin 10) (s : State) : exec (.wavelengthFailing port w) s = execWavelengthFailing port w s := rfl
theorem exec_wavelengthSpared (port : Fin 32) (s : State) : exec (.wavelengthSpared port) s = execWavelengthSpared port s := rfl
theorem exec_load (p : Packet) (s : State) : exec (.load p) s = execLoad p s := rfl
theorem exec_store (p : Packet) (s : State) : exec (.store p) s = execStore p s := rfl
theorem exec_rputPacket (p : Packet) (s : State) : exec (.rputPacket p) s = execRputPacket p s := rfl
theorem exec_atomPacket (p : Packet) (s : State) : exec (.atomPacket p) s = execAtomPacket p s := rfl
theorem exec_invalPacket (p : Packet) (s : State) : exec (.invalPacket p) s = execInvalPacket p s := rfl
theorem exec_confirm (p : Packet) (s : State) : exec (.confirm p) s = execConfirm p s := rfl
theorem exec_data (id : Nat) (p : Packet) (s : State) : exec (.data id p) s = execData id p s := rfl
theorem exec_ack (p : Packet) (s : State) : exec (.ack p) s = execAck p s := rfl
theorem exec_retryTimeout (id : Nat) (s : State) : exec (.retryTimeout id) s = execRetryTimeout id s := rfl
theorem exec_replayEntryExpiry (key : Nat) (tag : BitVec 16) (s : State) : exec (.replayEntryExpiry key tag) s = execReplayEntryExpiry key tag s := rfl
theorem exec_fabRetryWrite (v : W64) (s : State) : exec (.fabRetryWrite v) s = execFabRetryWrite v s := rfl
theorem exec_fabCtrlWrite (v : W64) (s : State) : exec (.fabCtrlWrite v) s = execFabCtrlWrite v s := rfl
theorem exec_portRoleWrite (port : Fin 32) (v : W64) (s : State) : exec (.portRoleWrite port v) s = execPortRoleWrite port v s := rfl
theorem exec_hstage (p : Packet) (s : State) : exec (.hstage p) s = execHstage p s := rfl
theorem exec_hvote (p : Packet) (s : State) : exec (.hvote p) s = execHvote p s := rfl
theorem exec_hshow (p : Packet) (s : State) : exec (.hshow p) s = execHshow p s := rfl
theorem exec_hfold (p : Packet) (s : State) : exec (.hfold p) s = execHfold p s := rfl
theorem exec_hfoldReq (p : Packet) (s : State) : exec (.hfoldReq p) s = execHfoldReq p s := rfl
theorem exec_hquery (p : Packet) (s : State) : exec (.hquery p) s = execHquery p s := rfl
theorem exec_msg (p : Packet) (s : State) : exec (.msg p) s = execMsg p s := rfl
theorem exec_heartbeat (p : Packet) (s : State) : exec (.heartbeat p) s = execHeartbeat p s := rfl
theorem exec_heartbeatMiss (identity : BitVec 256) (s : State) : exec (.heartbeatMiss identity) s = execHeartbeatMiss identity s := rfl
theorem exec_hello (p : Packet) (s : State) : exec (.hello p) s = execHello p s := rfl
theorem exec_fenced (p : Packet) (s : State) : exec (.fenced p) s = execFenced p s := rfl
theorem exec_suspect (p : Packet) (s : State) : exec (.suspect p) s = execSuspect p s := rfl
theorem exec_witnessEntryFree (suspectRank : BitVec 32) (w : BitVec 48) (s : State) : exec (.witnessEntryFree suspectRank w) s = execWitnessEntryFree suspectRank w s := rfl
theorem exec_attestReq (p : Packet) (s : State) : exec (.attestReq p) s = execAttestReq p s := rfl
theorem exec_attestRsp (p : Packet) (s : State) : exec (.attestRsp p) s = execAttestRsp p s := rfl
theorem exec_mbxReq (p : Packet) (s : State) : exec (.mbxReq p) s = execMbxReq p s := rfl
theorem exec_mbxRsp (p : Packet) (s : State) : exec (.mbxRsp p) s = execMbxRsp p s := rfl
theorem exec_mbxEvent (p : Packet) (s : State) : exec (.mbxEvent p) s = execMbxEvent p s := rfl
theorem exec_discoveryEpoch (s : State) : exec (.discoveryEpoch) s = execDiscoveryEpoch s := rfl
theorem exec_rankUpdateRelease (s : State) : exec (.rankUpdateRelease) s = execRankUpdateRelease s := rfl
theorem exec_rxqWrite (q : Fin 64) (cfg : Bool) (v : W64) (s : State) : exec (.rxqWrite q cfg v) s = execRxqWrite q cfg v s := rfl
theorem exec_trickLaunch (agent : Agent) (v : W64) (s : State) : exec (.trickLaunch agent v) s = execTrickLaunch agent v s := rfl
theorem exec_trickLaunchHead (s : State) : exec (.trickLaunchHead) s = execTrickLaunchHead s := rfl
theorem exec_trkChunk (p : Packet) (s : State) : exec (.trkChunk p) s = execTrkChunk p s := rfl
theorem exec_trkCredit (p : Packet) (s : State) : exec (.trkCredit p) s = execTrkCredit p s := rfl
theorem exec_trkMaxima (p : Packet) (s : State) : exec (.trkMaxima p) s = execTrkMaxima p s := rfl
theorem exec_trkReady (p : Packet) (s : State) : exec (.trkReady p) s = execTrkReady p s := rfl
theorem exec_trkAbort (p : Packet) (s : State) : exec (.trkAbort p) s = execTrkAbort p s := rfl
theorem exec_trkResend (p : Packet) (s : State) : exec (.trkResend p) s = execTrkResend p s := rfl
theorem exec_rankSilent (progSlot : Fin 64) (inst : BitVec 32) (rank : BitVec 32) (s : State) : exec (.rankSilent progSlot inst rank) s = execRankSilent progSlot inst rank s := rfl
theorem exec_detour (progSlot : Fin 64) (inst : BitVec 32) (rank : BitVec 32) (s : State) : exec (.detour progSlot inst rank) s = execDetour progSlot inst rank s := rfl
theorem exec_decantLaunch (agent : Agent) (v : W64) (s : State) : exec (.decantLaunch agent v) s = execDecantLaunch agent v s := rfl
theorem exec_decantCheck (s : State) : exec (.decantCheck) s = execDecantCheck s := rfl
theorem exec_decantComplete (s : State) : exec (.decantComplete) s = execDecantComplete s := rfl
theorem exec_dryDownStart (s : State) : exec (.dryDownStart) s = execDryDownStart s := rfl
theorem exec_dryDownCd (s : State) : exec (.dryDownCd) s = execDryDownCd s := rfl
theorem exec_ckpCtrlWrite (v : W64) (s : State) : exec (.ckpCtrlWrite v) s = execCkpCtrlWrite v s := rfl
theorem exec_restoreCopy (s : State) : exec (.restoreCopy) s = execRestoreCopy s := rfl
theorem exec_restoreCopyDone (s : State) : exec (.restoreCopyDone) s = execRestoreCopyDone s := rfl
theorem exec_arithReplay (b : Block) (u : FaultyUnit) (s : State) : exec (.arithReplay b u) s = execArithReplay b u s := rfl
theorem exec_sramError (site : SramSite) (uncorrectable : Bool) (s : State) : exec (.sramError site uncorrectable) s = execSramError site uncorrectable s := rfl
theorem exec_dlinkLaneRepair (link : Fin 14) (s : State) : exec (.dlinkLaneRepair link) s = execDlinkLaneRepair link s := rfl
theorem exec_dlinkLaneRepairDone (link : Fin 14) (s : State) : exec (.dlinkLaneRepairDone link) s = execDlinkLaneRepairDone link s := rfl
theorem exec_lockstep (s : State) : exec (.lockstep) s = execLockstep s := rfl
theorem exec_fltFenceWrite (s : State) : exec (.fltFenceWrite) s = execFltFenceWrite s := rfl
theorem exec_witnessEnWrite (v : W64) (s : State) : exec (.witnessEnWrite v) s = execWitnessEnWrite v s := rfl
theorem exec_partialReset (sc : Scope) (controller : Bool) (s : State) : exec (.partialReset sc controller) s = execPartialReset sc controller s := rfl
theorem exec_resetQuiesceDone (sc : Scope) (s : State) : exec (.resetQuiesceDone sc) s = execResetQuiesceDone sc s := rfl
theorem exec_resetReentry (r : Reentry) (s : State) : exec (.resetReentry r) s = execResetReentry r s := rfl
theorem exec_returnToService (sc : Scope) (runs : List (UnitId × BitVec 256)) (s : State) : exec (.returnToService sc runs) s = execReturnToService sc runs s := rfl
theorem exec_packageReset (s : State) : exec (.packageReset) s = execPackageReset s := rfl
theorem exec_supplyRamp (vin : BitVec 16) (s : State) : exec (.supplyRamp vin) s = execSupplyRamp vin s := rfl
theorem exec_undervoltage (s : State) : exec (.undervoltage) s = execUndervoltage s := rfl
theorem exec_rstNAssert (s : State) : exec (.rstNAssert) s = execRstNAssert s := rfl
theorem exec_rstNRelease (straps : BitVec 2) (s : State) : exec (.rstNRelease straps) s = execRstNRelease straps s := rfl
theorem exec_perstN (s : State) : exec (.perstN) s = execPerstN s := rfl
theorem exec_firmwareVerified (answers : Bool) (s : State) : exec (.firmwareVerified answers) s = execFirmwareVerified answers s := rfl
theorem exec_hbmTrainingDone (k : Fin 16) (ok : Bool) (temp : BitVec 8) (s : State) : exec (.hbmTrainingDone k ok temp) s = execHbmTrainingDone k ok temp s := rfl
theorem exec_portTrainingDone (port : Fin 32) (delay : BitVec 16) (bad : BitVec 10) (s : State) : exec (.portTrainingDone port delay bad) s = execPortTrainingDone port delay bad s := rfl
theorem exec_knownAnswerRun (dies : DieRuns) (runs : List (UnitId × BitVec 256)) (s : State) :
    exec (.knownAnswerRun dies runs) s = execKnownAnswerRun dies runs s := rfl
theorem exec_blockDetach (b : Fin 4) (s : State) : exec (.blockDetach b) s = execBlockDetach b s := rfl
theorem exec_blockReattach (b : Fin 4) (s : State) : exec (.blockReattach b) s = execBlockReattach b s := rfl
theorem exec_thermalSample (decks : BitVec 32) (f p hbm : BitVec 8) (s : State) : exec (.thermalSample decks f p hbm) s = execThermalSample decks f p hbm s := rfl
theorem exec_throttleUpdate (package p f hbm decks : BitVec 12) (s : State) : exec (.throttleUpdate package p f hbm decks) s = execThrottleUpdate package p f hbm decks s := rfl
theorem exec_dutySlot (s : State) : exec (.dutySlot) s = execDutySlot s := rfl
theorem exec_mailboxHandoff (m : Fin 16) (writes : BitVec 16) (r : MbxReq) (s : State) : exec (.mailboxHandoff m writes r) s = execMailboxHandoff m writes r s := rfl
theorem exec_mailboxPoll (s : State) : exec (.mailboxPoll) s = execMailboxPoll s := rfl
theorem exec_inventoryRead (m : Fin 32) (s : State) : exec (.inventoryRead m) s = execInventoryRead m s := rfl
theorem exec_inventoryClear (m : Fin 32) (s : State) : exec (.inventoryClear m) s = execInventoryClear m s := rfl
theorem exec_configRead (m : Fin 32) (s : State) : exec (.configRead m) s = execConfigRead m s := rfl
theorem exec_configWrite (m : Fin 32) (s : State) : exec (.configWrite m) s = execConfigWrite m s := rfl
theorem exec_jobAttach (m : Fin 32) (s : State) : exec (.jobAttach m) s = execJobAttach m s := rfl
theorem exec_attachStart (s : State) : exec (.attachStart) s = execAttachStart s := rfl
theorem exec_jobDetach (m : Fin 32) (s : State) : exec (.jobDetach m) s = execJobDetach m s := rfl
theorem exec_rankUpdate (m : Fin 32) (s : State) : exec (.rankUpdate m) s = execRankUpdate m s := rfl
theorem exec_formulaLoad (m : Fin 32) (s : State) : exec (.formulaLoad m) s = execFormulaLoad m s := rfl
theorem exec_atomizerProgramLoad (m : Fin 32) (s : State) : exec (.atomizerProgramLoad m) s = execAtomizerProgramLoad m s := rfl
theorem exec_trickProgramLoad (m : Fin 32) (s : State) : exec (.trickProgramLoad m) s = execTrickProgramLoad m s := rfl
theorem exec_recipeLoad (m : Fin 32) (s : State) : exec (.recipeLoad m) s = execRecipeLoad m s := rfl
theorem exec_regAccess (m : Fin 32) (s : State) : exec (.regAccess m) s = execRegAccess m s := rfl
theorem exec_logRead (m : Fin 32) (s : State) : exec (.logRead m) s = execLogRead m s := rfl
theorem exec_ckpDrydown (m : Fin 32) (s : State) : exec (.ckpDrydown m) s = execCkpDrydown m s := rfl
theorem exec_ckpStatement (m : Fin 32) (s : State) : exec (.ckpStatement m) s = execCkpStatement m s := rfl
theorem exec_ckpSeal (m : Fin 32) (s : State) : exec (.ckpSeal m) s = execCkpSeal m s := rfl
theorem exec_ckpStage (m : Fin 32) (s : State) : exec (.ckpStage m) s = execCkpStage m s := rfl
theorem exec_ckpCommit (m : Fin 32) (s : State) : exec (.ckpCommit m) s = execCkpCommit m s := rfl
theorem exec_ckpShardRead (m : Fin 32) (s : State) : exec (.ckpShardRead m) s = execCkpShardRead m s := rfl
theorem exec_attest (m : Fin 32) (s : State) : exec (.attest m) s = execAttest m s := rfl
theorem exec_certRead (m : Fin 32) (s : State) : exec (.certRead m) s = execCertRead m s := rfl
theorem exec_fwStage (m : Fin 32) (s : State) : exec (.fwStage m) s = execFwStage m s := rfl
theorem exec_fwActivate (m : Fin 32) (s : State) : exec (.fwActivate m) s = execFwActivate m s := rfl
theorem exec_fwConfirm (m : Fin 32) (s : State) : exec (.fwConfirm m) s = execFwConfirm m s := rfl
theorem exec_bootLoad (m : Fin 32) (s : State) : exec (.bootLoad m) s = execBootLoad m s := rfl
theorem exec_scopedReset (m : Fin 32) (s : State) : exec (.scopedReset m) s = execScopedReset m s := rfl
theorem exec_debugUnlockChallenge (m : Fin 32) (s : State) : exec (.debugUnlockChallenge m) s = execDebugUnlockChallenge m s := rfl
theorem exec_debugUnlockToken (m : Fin 32) (s : State) : exec (.debugUnlockToken m) s = execDebugUnlockToken m s := rfl
theorem exec_smbusBlockRead (cmd : Byte) (s : State) : exec (.smbusBlockRead cmd) s = execSmbusBlockRead cmd s := rfl
theorem exec_bypass (s : State) : exec (.bypass) s = execBypass s := rfl
theorem exec_idcode (s : State) : exec (.idcode) s = execIdcode s := rfl
theorem exec_samplePreload (pins preload : BitVec 40) (s : State) : exec (.samplePreload pins preload) s = execSamplePreload pins preload s := rfl
theorem exec_extest (pins : BitVec 40) (s : State) : exec (.extest pins) s = execExtest pins s := rfl
theorem exec_scoCtlWrite (u : ScoUnit) (i : Fin 16) (v : W64) (s : State) : exec (.scoCtlWrite u i v) s = execScoCtlWrite u i v s := rfl
theorem exec_scoCntWrite (u : ScoUnit) (i : Fin 16) (v : W64) (s : State) : exec (.scoCntWrite u i v) s = execScoCntWrite u i v s := rfl
theorem exec_scoSampleWrite (u : ScoUnit) (v : W64) (s : State) : exec (.scoSampleWrite u v) s = execScoSampleWrite u v s := rfl
theorem exec_vinLow (vin : BitVec 16) (s : State) : exec (.vinLow vin) s = execVinLow vin s := rfl

end Sys2Proof.Machine
end

