-- ==== Sys2Proof/Laws/Flash.lean ====
section
/-!
SUPPORT. Flash.lean: what the flash holds after it is written (R434, R435, R438): a record that this package writes verifies, and a rewrite of
the boot record is the one in force, the other copy kept.
-/
namespace Sys2Proof.Machine

open Sys2Proof

/-! ### Records with a tag (R434, R435) -/

@[simp] theorem ConfigRecord.bound_fields (fs : List (BitVec 16 × BitVec 256)) : (ConfigRecord.bound fs).fields = fs := rfl
@[simp] theorem ConfigRecord.bound_boundId (fs : List (BitVec 16 × BitVec 256)) : (ConfigRecord.bound fs).boundId = Config.identity := rfl
@[simp] theorem ConfigRecord.bound_tagGood (fs : List (BitVec 16 × BitVec 256)) : (ConfigRecord.bound fs).tagGood = true :=
  beq_self_eq_true (recordTag (ConfigRecord.bound fs).body)

@[simp] theorem Flash.putRecords_invTagGood (rs : List InvRecord) (f : Flash) : (f.putRecords rs).invTagGood = true :=
  beq_self_eq_true (recordTag (invBody Config.identity rs))

@[simp] theorem Flash.putRecords_records (rs : List InvRecord) (f : Flash) : (f.putRecords rs).records = rs := by
  unfold Flash.records
  rw [Flash.putRecords_invTagGood]
  rfl

/-- A field of a configuration that this package wrote. -/
theorem State.configField_bound {s : State} {fs : List (BitVec 16 × BitVec 256)} (h : s.flash.config = some (ConfigRecord.bound fs)) {id : Nat} :
    s.configField id = (fs.find? (fun x => x.1.toNat = id)).map (·.2) := by
  unfold State.configField
  rw [h]
  simp

/-! ### The boot record (R438) -/

/-- The copy in force holds the boot record in force, where either copy is valid. -/
theorem Flash.rewrite_kept (g : BootRecord → BootRecord) (f : Flash) : (f.rewrite g).copies[f.copy] = f.copies[f.copy] := by
  unfold Flash.rewrite Flash.copy
  split <;> simp [vput, vmod]

/-- A copy whose check is its sum is valid. -/
theorem BootRecord.good_sum (r : BootRecord) : ({ r with check := r.sum } : BootRecord).good = true := by
  simp only [BootRecord.good, BootRecord.sum, BootRecord.body, beq_self_eq_true]

end Sys2Proof.Machine
end

