-- ==== Sys2Proof/Laws/State.lean ====
section
/-!
SUPPORT. State.lean: what each update of one unit of the state leaves in every field.
-/
namespace Sys2Proof.Machine

open Sys2Proof

/-! ### `State.onCad` -/

@[simp] theorem State.onCad_cad (s : State) (f : Cadence → Cadence) : (s.onCad f).cad = f s.cad := rfl
@[simp] theorem State.onCad_mem (s : State) (f : Cadence → Cadence) : (s.onCad f).mem = s.mem := rfl
@[simp] theorem State.onCad_hbm (s : State) (f : Cadence → Cadence) : (s.onCad f).hbm = s.hbm := rfl
@[simp] theorem State.onCad_eng (s : State) (f : Cadence → Cadence) : (s.onCad f).eng = s.eng := rfl
@[simp] theorem State.onCad_cores (s : State) (f : Cadence → Cadence) : (s.onCad f).cores = s.cores := rfl
@[simp] theorem State.onCad_dlrMask (s : State) (f : Cadence → Cadence) : (s.onCad f).dlrMask = s.dlrMask := rfl
@[simp] theorem State.onCad_fab (s : State) (f : Cadence → Cadence) : (s.onCad f).fab = s.fab := rfl
@[simp] theorem State.onCad_hnd (s : State) (f : Cadence → Cadence) : (s.onCad f).hnd = s.hnd := rfl
@[simp] theorem State.onCad_trk (s : State) (f : Cadence → Cadence) : (s.onCad f).trk = s.trk := rfl
@[simp] theorem State.onCad_ckp (s : State) (f : Cadence → Cadence) : (s.onCad f).ckp = s.ckp := rfl
@[simp] theorem State.onCad_flt (s : State) (f : Cadence → Cadence) : (s.onCad f).flt = s.flt := rfl
@[simp] theorem State.onCad_resets (s : State) (f : Cadence → Cadence) : (s.onCad f).resets = s.resets := rfl
@[simp] theorem State.onCad_inv (s : State) (f : Cadence → Cadence) : (s.onCad f).inv = s.inv := rfl
@[simp] theorem State.onCad_flash (s : State) (f : Cadence → Cadence) : (s.onCad f).flash = s.flash := rfl
@[simp] theorem State.onCad_boot (s : State) (f : Cadence → Cadence) : (s.onCad f).boot = s.boot := rfl
@[simp] theorem State.onCad_pwr (s : State) (f : Cadence → Cadence) : (s.onCad f).pwr = s.pwr := rfl
@[simp] theorem State.onCad_bnk (s : State) (f : Cadence → Cadence) : (s.onCad f).bnk = s.bnk := rfl
@[simp] theorem State.onCad_jtag (s : State) (f : Cadence → Cadence) : (s.onCad f).jtag = s.jtag := rfl
@[simp] theorem State.onCad_bus (s : State) (f : Cadence → Cadence) : (s.onCad f).bus = s.bus := rfl
@[simp] theorem State.onCad_pdc (s : State) (f : Cadence → Cadence) : (s.onCad f).pdc = s.pdc := rfl
@[simp] theorem State.onCad_sco (s : State) (f : Cadence → Cadence) : (s.onCad f).sco = s.sco := rfl
@[simp] theorem State.onCad_tx (s : State) (f : Cadence → Cadence) : (s.onCad f).tx = s.tx := rfl
@[simp] theorem State.onCad_irq (s : State) (f : Cadence → Cadence) : (s.onCad f).irq = s.irq := rfl
@[simp] theorem State.onCad_freeCtr (s : State) (f : Cadence → Cadence) : (s.onCad f).freeCtr = s.freeCtr := rfl
@[simp] theorem State.onCad_pending (s : State) (f : Cadence → Cadence) : (s.onCad f).pending = s.pending := rfl

/-! ### `State.onMem` -/

@[simp] theorem State.onMem_cad (s : State) (f : Memory → Memory) : (s.onMem f).cad = s.cad := rfl
@[simp] theorem State.onMem_mem (s : State) (f : Memory → Memory) : (s.onMem f).mem = f s.mem := rfl
@[simp] theorem State.onMem_hbm (s : State) (f : Memory → Memory) : (s.onMem f).hbm = s.hbm := rfl
@[simp] theorem State.onMem_eng (s : State) (f : Memory → Memory) : (s.onMem f).eng = s.eng := rfl
@[simp] theorem State.onMem_cores (s : State) (f : Memory → Memory) : (s.onMem f).cores = s.cores := rfl
@[simp] theorem State.onMem_dlrMask (s : State) (f : Memory → Memory) : (s.onMem f).dlrMask = s.dlrMask := rfl
@[simp] theorem State.onMem_fab (s : State) (f : Memory → Memory) : (s.onMem f).fab = s.fab := rfl
@[simp] theorem State.onMem_hnd (s : State) (f : Memory → Memory) : (s.onMem f).hnd = s.hnd := rfl
@[simp] theorem State.onMem_trk (s : State) (f : Memory → Memory) : (s.onMem f).trk = s.trk := rfl
@[simp] theorem State.onMem_ckp (s : State) (f : Memory → Memory) : (s.onMem f).ckp = s.ckp := rfl
@[simp] theorem State.onMem_flt (s : State) (f : Memory → Memory) : (s.onMem f).flt = s.flt := rfl
@[simp] theorem State.onMem_resets (s : State) (f : Memory → Memory) : (s.onMem f).resets = s.resets := rfl
@[simp] theorem State.onMem_inv (s : State) (f : Memory → Memory) : (s.onMem f).inv = s.inv := rfl
@[simp] theorem State.onMem_flash (s : State) (f : Memory → Memory) : (s.onMem f).flash = s.flash := rfl
@[simp] theorem State.onMem_boot (s : State) (f : Memory → Memory) : (s.onMem f).boot = s.boot := rfl
@[simp] theorem State.onMem_pwr (s : State) (f : Memory → Memory) : (s.onMem f).pwr = s.pwr := rfl
@[simp] theorem State.onMem_bnk (s : State) (f : Memory → Memory) : (s.onMem f).bnk = s.bnk := rfl
@[simp] theorem State.onMem_jtag (s : State) (f : Memory → Memory) : (s.onMem f).jtag = s.jtag := rfl
@[simp] theorem State.onMem_bus (s : State) (f : Memory → Memory) : (s.onMem f).bus = s.bus := rfl
@[simp] theorem State.onMem_pdc (s : State) (f : Memory → Memory) : (s.onMem f).pdc = s.pdc := rfl
@[simp] theorem State.onMem_sco (s : State) (f : Memory → Memory) : (s.onMem f).sco = s.sco := rfl
@[simp] theorem State.onMem_tx (s : State) (f : Memory → Memory) : (s.onMem f).tx = s.tx := rfl
@[simp] theorem State.onMem_irq (s : State) (f : Memory → Memory) : (s.onMem f).irq = s.irq := rfl
@[simp] theorem State.onMem_freeCtr (s : State) (f : Memory → Memory) : (s.onMem f).freeCtr = s.freeCtr := rfl
@[simp] theorem State.onMem_pending (s : State) (f : Memory → Memory) : (s.onMem f).pending = s.pending := rfl

/-! ### `State.onHbm` -/

@[simp] theorem State.onHbm_cad (s : State) (f : MemUnit → MemUnit) : (s.onHbm f).cad = s.cad := rfl
@[simp] theorem State.onHbm_mem (s : State) (f : MemUnit → MemUnit) : (s.onHbm f).mem = s.mem := rfl
@[simp] theorem State.onHbm_hbm (s : State) (f : MemUnit → MemUnit) : (s.onHbm f).hbm = f s.hbm := rfl
@[simp] theorem State.onHbm_eng (s : State) (f : MemUnit → MemUnit) : (s.onHbm f).eng = s.eng := rfl
@[simp] theorem State.onHbm_cores (s : State) (f : MemUnit → MemUnit) : (s.onHbm f).cores = s.cores := rfl
@[simp] theorem State.onHbm_dlrMask (s : State) (f : MemUnit → MemUnit) : (s.onHbm f).dlrMask = s.dlrMask := rfl
@[simp] theorem State.onHbm_fab (s : State) (f : MemUnit → MemUnit) : (s.onHbm f).fab = s.fab := rfl
@[simp] theorem State.onHbm_hnd (s : State) (f : MemUnit → MemUnit) : (s.onHbm f).hnd = s.hnd := rfl
@[simp] theorem State.onHbm_trk (s : State) (f : MemUnit → MemUnit) : (s.onHbm f).trk = s.trk := rfl
@[simp] theorem State.onHbm_ckp (s : State) (f : MemUnit → MemUnit) : (s.onHbm f).ckp = s.ckp := rfl
@[simp] theorem State.onHbm_flt (s : State) (f : MemUnit → MemUnit) : (s.onHbm f).flt = s.flt := rfl
@[simp] theorem State.onHbm_resets (s : State) (f : MemUnit → MemUnit) : (s.onHbm f).resets = s.resets := rfl
@[simp] theorem State.onHbm_inv (s : State) (f : MemUnit → MemUnit) : (s.onHbm f).inv = s.inv := rfl
@[simp] theorem State.onHbm_flash (s : State) (f : MemUnit → MemUnit) : (s.onHbm f).flash = s.flash := rfl
@[simp] theorem State.onHbm_boot (s : State) (f : MemUnit → MemUnit) : (s.onHbm f).boot = s.boot := rfl
@[simp] theorem State.onHbm_pwr (s : State) (f : MemUnit → MemUnit) : (s.onHbm f).pwr = s.pwr := rfl
@[simp] theorem State.onHbm_bnk (s : State) (f : MemUnit → MemUnit) : (s.onHbm f).bnk = s.bnk := rfl
@[simp] theorem State.onHbm_jtag (s : State) (f : MemUnit → MemUnit) : (s.onHbm f).jtag = s.jtag := rfl
@[simp] theorem State.onHbm_bus (s : State) (f : MemUnit → MemUnit) : (s.onHbm f).bus = s.bus := rfl
@[simp] theorem State.onHbm_pdc (s : State) (f : MemUnit → MemUnit) : (s.onHbm f).pdc = s.pdc := rfl
@[simp] theorem State.onHbm_sco (s : State) (f : MemUnit → MemUnit) : (s.onHbm f).sco = s.sco := rfl
@[simp] theorem State.onHbm_tx (s : State) (f : MemUnit → MemUnit) : (s.onHbm f).tx = s.tx := rfl
@[simp] theorem State.onHbm_irq (s : State) (f : MemUnit → MemUnit) : (s.onHbm f).irq = s.irq := rfl
@[simp] theorem State.onHbm_freeCtr (s : State) (f : MemUnit → MemUnit) : (s.onHbm f).freeCtr = s.freeCtr := rfl
@[simp] theorem State.onHbm_pending (s : State) (f : MemUnit → MemUnit) : (s.onHbm f).pending = s.pending := rfl

/-! ### `State.onEng` -/

@[simp] theorem State.onEng_cad (s : State) (f : Engines → Engines) : (s.onEng f).cad = s.cad := rfl
@[simp] theorem State.onEng_mem (s : State) (f : Engines → Engines) : (s.onEng f).mem = s.mem := rfl
@[simp] theorem State.onEng_hbm (s : State) (f : Engines → Engines) : (s.onEng f).hbm = s.hbm := rfl
@[simp] theorem State.onEng_eng (s : State) (f : Engines → Engines) : (s.onEng f).eng = f s.eng := rfl
@[simp] theorem State.onEng_cores (s : State) (f : Engines → Engines) : (s.onEng f).cores = s.cores := rfl
@[simp] theorem State.onEng_dlrMask (s : State) (f : Engines → Engines) : (s.onEng f).dlrMask = s.dlrMask := rfl
@[simp] theorem State.onEng_fab (s : State) (f : Engines → Engines) : (s.onEng f).fab = s.fab := rfl
@[simp] theorem State.onEng_hnd (s : State) (f : Engines → Engines) : (s.onEng f).hnd = s.hnd := rfl
@[simp] theorem State.onEng_trk (s : State) (f : Engines → Engines) : (s.onEng f).trk = s.trk := rfl
@[simp] theorem State.onEng_ckp (s : State) (f : Engines → Engines) : (s.onEng f).ckp = s.ckp := rfl
@[simp] theorem State.onEng_flt (s : State) (f : Engines → Engines) : (s.onEng f).flt = s.flt := rfl
@[simp] theorem State.onEng_resets (s : State) (f : Engines → Engines) : (s.onEng f).resets = s.resets := rfl
@[simp] theorem State.onEng_inv (s : State) (f : Engines → Engines) : (s.onEng f).inv = s.inv := rfl
@[simp] theorem State.onEng_flash (s : State) (f : Engines → Engines) : (s.onEng f).flash = s.flash := rfl
@[simp] theorem State.onEng_boot (s : State) (f : Engines → Engines) : (s.onEng f).boot = s.boot := rfl
@[simp] theorem State.onEng_pwr (s : State) (f : Engines → Engines) : (s.onEng f).pwr = s.pwr := rfl
@[simp] theorem State.onEng_bnk (s : State) (f : Engines → Engines) : (s.onEng f).bnk = s.bnk := rfl
@[simp] theorem State.onEng_jtag (s : State) (f : Engines → Engines) : (s.onEng f).jtag = s.jtag := rfl
@[simp] theorem State.onEng_bus (s : State) (f : Engines → Engines) : (s.onEng f).bus = s.bus := rfl
@[simp] theorem State.onEng_pdc (s : State) (f : Engines → Engines) : (s.onEng f).pdc = s.pdc := rfl
@[simp] theorem State.onEng_sco (s : State) (f : Engines → Engines) : (s.onEng f).sco = s.sco := rfl
@[simp] theorem State.onEng_tx (s : State) (f : Engines → Engines) : (s.onEng f).tx = s.tx := rfl
@[simp] theorem State.onEng_irq (s : State) (f : Engines → Engines) : (s.onEng f).irq = s.irq := rfl
@[simp] theorem State.onEng_freeCtr (s : State) (f : Engines → Engines) : (s.onEng f).freeCtr = s.freeCtr := rfl
@[simp] theorem State.onEng_pending (s : State) (f : Engines → Engines) : (s.onEng f).pending = s.pending := rfl

/-! ### `State.onFab` -/

@[simp] theorem State.onFab_cad (s : State) (f : Fabric → Fabric) : (s.onFab f).cad = s.cad := rfl
@[simp] theorem State.onFab_mem (s : State) (f : Fabric → Fabric) : (s.onFab f).mem = s.mem := rfl
@[simp] theorem State.onFab_hbm (s : State) (f : Fabric → Fabric) : (s.onFab f).hbm = s.hbm := rfl
@[simp] theorem State.onFab_eng (s : State) (f : Fabric → Fabric) : (s.onFab f).eng = s.eng := rfl
@[simp] theorem State.onFab_cores (s : State) (f : Fabric → Fabric) : (s.onFab f).cores = s.cores := rfl
@[simp] theorem State.onFab_dlrMask (s : State) (f : Fabric → Fabric) : (s.onFab f).dlrMask = s.dlrMask := rfl
@[simp] theorem State.onFab_fab (s : State) (f : Fabric → Fabric) : (s.onFab f).fab = f s.fab := rfl
@[simp] theorem State.onFab_hnd (s : State) (f : Fabric → Fabric) : (s.onFab f).hnd = s.hnd := rfl
@[simp] theorem State.onFab_trk (s : State) (f : Fabric → Fabric) : (s.onFab f).trk = s.trk := rfl
@[simp] theorem State.onFab_ckp (s : State) (f : Fabric → Fabric) : (s.onFab f).ckp = s.ckp := rfl
@[simp] theorem State.onFab_flt (s : State) (f : Fabric → Fabric) : (s.onFab f).flt = s.flt := rfl
@[simp] theorem State.onFab_resets (s : State) (f : Fabric → Fabric) : (s.onFab f).resets = s.resets := rfl
@[simp] theorem State.onFab_inv (s : State) (f : Fabric → Fabric) : (s.onFab f).inv = s.inv := rfl
@[simp] theorem State.onFab_flash (s : State) (f : Fabric → Fabric) : (s.onFab f).flash = s.flash := rfl
@[simp] theorem State.onFab_boot (s : State) (f : Fabric → Fabric) : (s.onFab f).boot = s.boot := rfl
@[simp] theorem State.onFab_pwr (s : State) (f : Fabric → Fabric) : (s.onFab f).pwr = s.pwr := rfl
@[simp] theorem State.onFab_bnk (s : State) (f : Fabric → Fabric) : (s.onFab f).bnk = s.bnk := rfl
@[simp] theorem State.onFab_jtag (s : State) (f : Fabric → Fabric) : (s.onFab f).jtag = s.jtag := rfl
@[simp] theorem State.onFab_bus (s : State) (f : Fabric → Fabric) : (s.onFab f).bus = s.bus := rfl
@[simp] theorem State.onFab_pdc (s : State) (f : Fabric → Fabric) : (s.onFab f).pdc = s.pdc := rfl
@[simp] theorem State.onFab_sco (s : State) (f : Fabric → Fabric) : (s.onFab f).sco = s.sco := rfl
@[simp] theorem State.onFab_tx (s : State) (f : Fabric → Fabric) : (s.onFab f).tx = s.tx := rfl
@[simp] theorem State.onFab_irq (s : State) (f : Fabric → Fabric) : (s.onFab f).irq = s.irq := rfl
@[simp] theorem State.onFab_freeCtr (s : State) (f : Fabric → Fabric) : (s.onFab f).freeCtr = s.freeCtr := rfl
@[simp] theorem State.onFab_pending (s : State) (f : Fabric → Fabric) : (s.onFab f).pending = s.pending := rfl

/-! ### `State.onHnd` -/

@[simp] theorem State.onHnd_cad (s : State) (f : HandUnit → HandUnit) : (s.onHnd f).cad = s.cad := rfl
@[simp] theorem State.onHnd_mem (s : State) (f : HandUnit → HandUnit) : (s.onHnd f).mem = s.mem := rfl
@[simp] theorem State.onHnd_hbm (s : State) (f : HandUnit → HandUnit) : (s.onHnd f).hbm = s.hbm := rfl
@[simp] theorem State.onHnd_eng (s : State) (f : HandUnit → HandUnit) : (s.onHnd f).eng = s.eng := rfl
@[simp] theorem State.onHnd_cores (s : State) (f : HandUnit → HandUnit) : (s.onHnd f).cores = s.cores := rfl
@[simp] theorem State.onHnd_dlrMask (s : State) (f : HandUnit → HandUnit) : (s.onHnd f).dlrMask = s.dlrMask := rfl
@[simp] theorem State.onHnd_fab (s : State) (f : HandUnit → HandUnit) : (s.onHnd f).fab = s.fab := rfl
@[simp] theorem State.onHnd_hnd (s : State) (f : HandUnit → HandUnit) : (s.onHnd f).hnd = f s.hnd := rfl
@[simp] theorem State.onHnd_trk (s : State) (f : HandUnit → HandUnit) : (s.onHnd f).trk = s.trk := rfl
@[simp] theorem State.onHnd_ckp (s : State) (f : HandUnit → HandUnit) : (s.onHnd f).ckp = s.ckp := rfl
@[simp] theorem State.onHnd_flt (s : State) (f : HandUnit → HandUnit) : (s.onHnd f).flt = s.flt := rfl
@[simp] theorem State.onHnd_resets (s : State) (f : HandUnit → HandUnit) : (s.onHnd f).resets = s.resets := rfl
@[simp] theorem State.onHnd_inv (s : State) (f : HandUnit → HandUnit) : (s.onHnd f).inv = s.inv := rfl
@[simp] theorem State.onHnd_flash (s : State) (f : HandUnit → HandUnit) : (s.onHnd f).flash = s.flash := rfl
@[simp] theorem State.onHnd_boot (s : State) (f : HandUnit → HandUnit) : (s.onHnd f).boot = s.boot := rfl
@[simp] theorem State.onHnd_pwr (s : State) (f : HandUnit → HandUnit) : (s.onHnd f).pwr = s.pwr := rfl
@[simp] theorem State.onHnd_bnk (s : State) (f : HandUnit → HandUnit) : (s.onHnd f).bnk = s.bnk := rfl
@[simp] theorem State.onHnd_jtag (s : State) (f : HandUnit → HandUnit) : (s.onHnd f).jtag = s.jtag := rfl
@[simp] theorem State.onHnd_bus (s : State) (f : HandUnit → HandUnit) : (s.onHnd f).bus = s.bus := rfl
@[simp] theorem State.onHnd_pdc (s : State) (f : HandUnit → HandUnit) : (s.onHnd f).pdc = s.pdc := rfl
@[simp] theorem State.onHnd_sco (s : State) (f : HandUnit → HandUnit) : (s.onHnd f).sco = s.sco := rfl
@[simp] theorem State.onHnd_tx (s : State) (f : HandUnit → HandUnit) : (s.onHnd f).tx = s.tx := rfl
@[simp] theorem State.onHnd_irq (s : State) (f : HandUnit → HandUnit) : (s.onHnd f).irq = s.irq := rfl
@[simp] theorem State.onHnd_freeCtr (s : State) (f : HandUnit → HandUnit) : (s.onHnd f).freeCtr = s.freeCtr := rfl
@[simp] theorem State.onHnd_pending (s : State) (f : HandUnit → HandUnit) : (s.onHnd f).pending = s.pending := rfl

/-! ### `State.onTrk` -/

@[simp] theorem State.onTrk_cad (s : State) (f : Trick → Trick) : (s.onTrk f).cad = s.cad := rfl
@[simp] theorem State.onTrk_mem (s : State) (f : Trick → Trick) : (s.onTrk f).mem = s.mem := rfl
@[simp] theorem State.onTrk_hbm (s : State) (f : Trick → Trick) : (s.onTrk f).hbm = s.hbm := rfl
@[simp] theorem State.onTrk_eng (s : State) (f : Trick → Trick) : (s.onTrk f).eng = s.eng := rfl
@[simp] theorem State.onTrk_cores (s : State) (f : Trick → Trick) : (s.onTrk f).cores = s.cores := rfl
@[simp] theorem State.onTrk_dlrMask (s : State) (f : Trick → Trick) : (s.onTrk f).dlrMask = s.dlrMask := rfl
@[simp] theorem State.onTrk_fab (s : State) (f : Trick → Trick) : (s.onTrk f).fab = s.fab := rfl
@[simp] theorem State.onTrk_hnd (s : State) (f : Trick → Trick) : (s.onTrk f).hnd = s.hnd := rfl
@[simp] theorem State.onTrk_trk (s : State) (f : Trick → Trick) : (s.onTrk f).trk = f s.trk := rfl
@[simp] theorem State.onTrk_ckp (s : State) (f : Trick → Trick) : (s.onTrk f).ckp = s.ckp := rfl
@[simp] theorem State.onTrk_flt (s : State) (f : Trick → Trick) : (s.onTrk f).flt = s.flt := rfl
@[simp] theorem State.onTrk_resets (s : State) (f : Trick → Trick) : (s.onTrk f).resets = s.resets := rfl
@[simp] theorem State.onTrk_inv (s : State) (f : Trick → Trick) : (s.onTrk f).inv = s.inv := rfl
@[simp] theorem State.onTrk_flash (s : State) (f : Trick → Trick) : (s.onTrk f).flash = s.flash := rfl
@[simp] theorem State.onTrk_boot (s : State) (f : Trick → Trick) : (s.onTrk f).boot = s.boot := rfl
@[simp] theorem State.onTrk_pwr (s : State) (f : Trick → Trick) : (s.onTrk f).pwr = s.pwr := rfl
@[simp] theorem State.onTrk_bnk (s : State) (f : Trick → Trick) : (s.onTrk f).bnk = s.bnk := rfl
@[simp] theorem State.onTrk_jtag (s : State) (f : Trick → Trick) : (s.onTrk f).jtag = s.jtag := rfl
@[simp] theorem State.onTrk_bus (s : State) (f : Trick → Trick) : (s.onTrk f).bus = s.bus := rfl
@[simp] theorem State.onTrk_pdc (s : State) (f : Trick → Trick) : (s.onTrk f).pdc = s.pdc := rfl
@[simp] theorem State.onTrk_sco (s : State) (f : Trick → Trick) : (s.onTrk f).sco = s.sco := rfl
@[simp] theorem State.onTrk_tx (s : State) (f : Trick → Trick) : (s.onTrk f).tx = s.tx := rfl
@[simp] theorem State.onTrk_irq (s : State) (f : Trick → Trick) : (s.onTrk f).irq = s.irq := rfl
@[simp] theorem State.onTrk_freeCtr (s : State) (f : Trick → Trick) : (s.onTrk f).freeCtr = s.freeCtr := rfl
@[simp] theorem State.onTrk_pending (s : State) (f : Trick → Trick) : (s.onTrk f).pending = s.pending := rfl

/-! ### `State.onCkp` -/

@[simp] theorem State.onCkp_cad (s : State) (f : Checkpoint → Checkpoint) : (s.onCkp f).cad = s.cad := rfl
@[simp] theorem State.onCkp_mem (s : State) (f : Checkpoint → Checkpoint) : (s.onCkp f).mem = s.mem := rfl
@[simp] theorem State.onCkp_hbm (s : State) (f : Checkpoint → Checkpoint) : (s.onCkp f).hbm = s.hbm := rfl
@[simp] theorem State.onCkp_eng (s : State) (f : Checkpoint → Checkpoint) : (s.onCkp f).eng = s.eng := rfl
@[simp] theorem State.onCkp_cores (s : State) (f : Checkpoint → Checkpoint) : (s.onCkp f).cores = s.cores := rfl
@[simp] theorem State.onCkp_dlrMask (s : State) (f : Checkpoint → Checkpoint) : (s.onCkp f).dlrMask = s.dlrMask := rfl
@[simp] theorem State.onCkp_fab (s : State) (f : Checkpoint → Checkpoint) : (s.onCkp f).fab = s.fab := rfl
@[simp] theorem State.onCkp_hnd (s : State) (f : Checkpoint → Checkpoint) : (s.onCkp f).hnd = s.hnd := rfl
@[simp] theorem State.onCkp_trk (s : State) (f : Checkpoint → Checkpoint) : (s.onCkp f).trk = s.trk := rfl
@[simp] theorem State.onCkp_ckp (s : State) (f : Checkpoint → Checkpoint) : (s.onCkp f).ckp = f s.ckp := rfl
@[simp] theorem State.onCkp_flt (s : State) (f : Checkpoint → Checkpoint) : (s.onCkp f).flt = s.flt := rfl
@[simp] theorem State.onCkp_resets (s : State) (f : Checkpoint → Checkpoint) : (s.onCkp f).resets = s.resets := rfl
@[simp] theorem State.onCkp_inv (s : State) (f : Checkpoint → Checkpoint) : (s.onCkp f).inv = s.inv := rfl
@[simp] theorem State.onCkp_flash (s : State) (f : Checkpoint → Checkpoint) : (s.onCkp f).flash = s.flash := rfl
@[simp] theorem State.onCkp_boot (s : State) (f : Checkpoint → Checkpoint) : (s.onCkp f).boot = s.boot := rfl
@[simp] theorem State.onCkp_pwr (s : State) (f : Checkpoint → Checkpoint) : (s.onCkp f).pwr = s.pwr := rfl
@[simp] theorem State.onCkp_bnk (s : State) (f : Checkpoint → Checkpoint) : (s.onCkp f).bnk = s.bnk := rfl
@[simp] theorem State.onCkp_jtag (s : State) (f : Checkpoint → Checkpoint) : (s.onCkp f).jtag = s.jtag := rfl
@[simp] theorem State.onCkp_bus (s : State) (f : Checkpoint → Checkpoint) : (s.onCkp f).bus = s.bus := rfl
@[simp] theorem State.onCkp_pdc (s : State) (f : Checkpoint → Checkpoint) : (s.onCkp f).pdc = s.pdc := rfl
@[simp] theorem State.onCkp_sco (s : State) (f : Checkpoint → Checkpoint) : (s.onCkp f).sco = s.sco := rfl
@[simp] theorem State.onCkp_tx (s : State) (f : Checkpoint → Checkpoint) : (s.onCkp f).tx = s.tx := rfl
@[simp] theorem State.onCkp_irq (s : State) (f : Checkpoint → Checkpoint) : (s.onCkp f).irq = s.irq := rfl
@[simp] theorem State.onCkp_freeCtr (s : State) (f : Checkpoint → Checkpoint) : (s.onCkp f).freeCtr = s.freeCtr := rfl
@[simp] theorem State.onCkp_pending (s : State) (f : Checkpoint → Checkpoint) : (s.onCkp f).pending = s.pending := rfl

/-! ### `State.onFlt` -/

@[simp] theorem State.onFlt_cad (s : State) (f : FaultUnit → FaultUnit) : (s.onFlt f).cad = s.cad := rfl
@[simp] theorem State.onFlt_mem (s : State) (f : FaultUnit → FaultUnit) : (s.onFlt f).mem = s.mem := rfl
@[simp] theorem State.onFlt_hbm (s : State) (f : FaultUnit → FaultUnit) : (s.onFlt f).hbm = s.hbm := rfl
@[simp] theorem State.onFlt_eng (s : State) (f : FaultUnit → FaultUnit) : (s.onFlt f).eng = s.eng := rfl
@[simp] theorem State.onFlt_cores (s : State) (f : FaultUnit → FaultUnit) : (s.onFlt f).cores = s.cores := rfl
@[simp] theorem State.onFlt_dlrMask (s : State) (f : FaultUnit → FaultUnit) : (s.onFlt f).dlrMask = s.dlrMask := rfl
@[simp] theorem State.onFlt_fab (s : State) (f : FaultUnit → FaultUnit) : (s.onFlt f).fab = s.fab := rfl
@[simp] theorem State.onFlt_hnd (s : State) (f : FaultUnit → FaultUnit) : (s.onFlt f).hnd = s.hnd := rfl
@[simp] theorem State.onFlt_trk (s : State) (f : FaultUnit → FaultUnit) : (s.onFlt f).trk = s.trk := rfl
@[simp] theorem State.onFlt_ckp (s : State) (f : FaultUnit → FaultUnit) : (s.onFlt f).ckp = s.ckp := rfl
@[simp] theorem State.onFlt_flt (s : State) (f : FaultUnit → FaultUnit) : (s.onFlt f).flt = f s.flt := rfl
@[simp] theorem State.onFlt_resets (s : State) (f : FaultUnit → FaultUnit) : (s.onFlt f).resets = s.resets := rfl
@[simp] theorem State.onFlt_inv (s : State) (f : FaultUnit → FaultUnit) : (s.onFlt f).inv = s.inv := rfl
@[simp] theorem State.onFlt_flash (s : State) (f : FaultUnit → FaultUnit) : (s.onFlt f).flash = s.flash := rfl
@[simp] theorem State.onFlt_boot (s : State) (f : FaultUnit → FaultUnit) : (s.onFlt f).boot = s.boot := rfl
@[simp] theorem State.onFlt_pwr (s : State) (f : FaultUnit → FaultUnit) : (s.onFlt f).pwr = s.pwr := rfl
@[simp] theorem State.onFlt_bnk (s : State) (f : FaultUnit → FaultUnit) : (s.onFlt f).bnk = s.bnk := rfl
@[simp] theorem State.onFlt_jtag (s : State) (f : FaultUnit → FaultUnit) : (s.onFlt f).jtag = s.jtag := rfl
@[simp] theorem State.onFlt_bus (s : State) (f : FaultUnit → FaultUnit) : (s.onFlt f).bus = s.bus := rfl
@[simp] theorem State.onFlt_pdc (s : State) (f : FaultUnit → FaultUnit) : (s.onFlt f).pdc = s.pdc := rfl
@[simp] theorem State.onFlt_sco (s : State) (f : FaultUnit → FaultUnit) : (s.onFlt f).sco = s.sco := rfl
@[simp] theorem State.onFlt_tx (s : State) (f : FaultUnit → FaultUnit) : (s.onFlt f).tx = s.tx := rfl
@[simp] theorem State.onFlt_irq (s : State) (f : FaultUnit → FaultUnit) : (s.onFlt f).irq = s.irq := rfl
@[simp] theorem State.onFlt_freeCtr (s : State) (f : FaultUnit → FaultUnit) : (s.onFlt f).freeCtr = s.freeCtr := rfl
@[simp] theorem State.onFlt_pending (s : State) (f : FaultUnit → FaultUnit) : (s.onFlt f).pending = s.pending := rfl

/-! ### `State.onInv` -/

@[simp] theorem State.onInv_cad (s : State) (f : Inventory → Inventory) : (s.onInv f).cad = s.cad := rfl
@[simp] theorem State.onInv_mem (s : State) (f : Inventory → Inventory) : (s.onInv f).mem = s.mem := rfl
@[simp] theorem State.onInv_hbm (s : State) (f : Inventory → Inventory) : (s.onInv f).hbm = s.hbm := rfl
@[simp] theorem State.onInv_eng (s : State) (f : Inventory → Inventory) : (s.onInv f).eng = s.eng := rfl
@[simp] theorem State.onInv_cores (s : State) (f : Inventory → Inventory) : (s.onInv f).cores = s.cores := rfl
@[simp] theorem State.onInv_dlrMask (s : State) (f : Inventory → Inventory) : (s.onInv f).dlrMask = s.dlrMask := rfl
@[simp] theorem State.onInv_fab (s : State) (f : Inventory → Inventory) : (s.onInv f).fab = s.fab := rfl
@[simp] theorem State.onInv_hnd (s : State) (f : Inventory → Inventory) : (s.onInv f).hnd = s.hnd := rfl
@[simp] theorem State.onInv_trk (s : State) (f : Inventory → Inventory) : (s.onInv f).trk = s.trk := rfl
@[simp] theorem State.onInv_ckp (s : State) (f : Inventory → Inventory) : (s.onInv f).ckp = s.ckp := rfl
@[simp] theorem State.onInv_flt (s : State) (f : Inventory → Inventory) : (s.onInv f).flt = s.flt := rfl
@[simp] theorem State.onInv_resets (s : State) (f : Inventory → Inventory) : (s.onInv f).resets = s.resets := rfl
@[simp] theorem State.onInv_inv (s : State) (f : Inventory → Inventory) : (s.onInv f).inv = f s.inv := rfl
@[simp] theorem State.onInv_flash (s : State) (f : Inventory → Inventory) : (s.onInv f).flash = s.flash := rfl
@[simp] theorem State.onInv_boot (s : State) (f : Inventory → Inventory) : (s.onInv f).boot = s.boot := rfl
@[simp] theorem State.onInv_pwr (s : State) (f : Inventory → Inventory) : (s.onInv f).pwr = s.pwr := rfl
@[simp] theorem State.onInv_bnk (s : State) (f : Inventory → Inventory) : (s.onInv f).bnk = s.bnk := rfl
@[simp] theorem State.onInv_jtag (s : State) (f : Inventory → Inventory) : (s.onInv f).jtag = s.jtag := rfl
@[simp] theorem State.onInv_bus (s : State) (f : Inventory → Inventory) : (s.onInv f).bus = s.bus := rfl
@[simp] theorem State.onInv_pdc (s : State) (f : Inventory → Inventory) : (s.onInv f).pdc = s.pdc := rfl
@[simp] theorem State.onInv_sco (s : State) (f : Inventory → Inventory) : (s.onInv f).sco = s.sco := rfl
@[simp] theorem State.onInv_tx (s : State) (f : Inventory → Inventory) : (s.onInv f).tx = s.tx := rfl
@[simp] theorem State.onInv_irq (s : State) (f : Inventory → Inventory) : (s.onInv f).irq = s.irq := rfl
@[simp] theorem State.onInv_freeCtr (s : State) (f : Inventory → Inventory) : (s.onInv f).freeCtr = s.freeCtr := rfl
@[simp] theorem State.onInv_pending (s : State) (f : Inventory → Inventory) : (s.onInv f).pending = s.pending := rfl

/-! ### `State.onFlash` -/

@[simp] theorem State.onFlash_cad (s : State) (f : Flash → Flash) : (s.onFlash f).cad = s.cad := rfl
@[simp] theorem State.onFlash_mem (s : State) (f : Flash → Flash) : (s.onFlash f).mem = s.mem := rfl
@[simp] theorem State.onFlash_hbm (s : State) (f : Flash → Flash) : (s.onFlash f).hbm = s.hbm := rfl
@[simp] theorem State.onFlash_eng (s : State) (f : Flash → Flash) : (s.onFlash f).eng = s.eng := rfl
@[simp] theorem State.onFlash_cores (s : State) (f : Flash → Flash) : (s.onFlash f).cores = s.cores := rfl
@[simp] theorem State.onFlash_dlrMask (s : State) (f : Flash → Flash) : (s.onFlash f).dlrMask = s.dlrMask := rfl
@[simp] theorem State.onFlash_fab (s : State) (f : Flash → Flash) : (s.onFlash f).fab = s.fab := rfl
@[simp] theorem State.onFlash_hnd (s : State) (f : Flash → Flash) : (s.onFlash f).hnd = s.hnd := rfl
@[simp] theorem State.onFlash_trk (s : State) (f : Flash → Flash) : (s.onFlash f).trk = s.trk := rfl
@[simp] theorem State.onFlash_ckp (s : State) (f : Flash → Flash) : (s.onFlash f).ckp = s.ckp := rfl
@[simp] theorem State.onFlash_flt (s : State) (f : Flash → Flash) : (s.onFlash f).flt = s.flt := rfl
@[simp] theorem State.onFlash_resets (s : State) (f : Flash → Flash) : (s.onFlash f).resets = s.resets := rfl
@[simp] theorem State.onFlash_inv (s : State) (f : Flash → Flash) : (s.onFlash f).inv = s.inv := rfl
@[simp] theorem State.onFlash_flash (s : State) (f : Flash → Flash) : (s.onFlash f).flash = f s.flash := rfl
@[simp] theorem State.onFlash_boot (s : State) (f : Flash → Flash) : (s.onFlash f).boot = s.boot := rfl
@[simp] theorem State.onFlash_pwr (s : State) (f : Flash → Flash) : (s.onFlash f).pwr = s.pwr := rfl
@[simp] theorem State.onFlash_bnk (s : State) (f : Flash → Flash) : (s.onFlash f).bnk = s.bnk := rfl
@[simp] theorem State.onFlash_jtag (s : State) (f : Flash → Flash) : (s.onFlash f).jtag = s.jtag := rfl
@[simp] theorem State.onFlash_bus (s : State) (f : Flash → Flash) : (s.onFlash f).bus = s.bus := rfl
@[simp] theorem State.onFlash_pdc (s : State) (f : Flash → Flash) : (s.onFlash f).pdc = s.pdc := rfl
@[simp] theorem State.onFlash_sco (s : State) (f : Flash → Flash) : (s.onFlash f).sco = s.sco := rfl
@[simp] theorem State.onFlash_tx (s : State) (f : Flash → Flash) : (s.onFlash f).tx = s.tx := rfl
@[simp] theorem State.onFlash_irq (s : State) (f : Flash → Flash) : (s.onFlash f).irq = s.irq := rfl
@[simp] theorem State.onFlash_freeCtr (s : State) (f : Flash → Flash) : (s.onFlash f).freeCtr = s.freeCtr := rfl
@[simp] theorem State.onFlash_pending (s : State) (f : Flash → Flash) : (s.onFlash f).pending = s.pending := rfl

/-! ### `State.onBoot` -/

@[simp] theorem State.onBoot_cad (s : State) (f : Boot → Boot) : (s.onBoot f).cad = s.cad := rfl
@[simp] theorem State.onBoot_mem (s : State) (f : Boot → Boot) : (s.onBoot f).mem = s.mem := rfl
@[simp] theorem State.onBoot_hbm (s : State) (f : Boot → Boot) : (s.onBoot f).hbm = s.hbm := rfl
@[simp] theorem State.onBoot_eng (s : State) (f : Boot → Boot) : (s.onBoot f).eng = s.eng := rfl
@[simp] theorem State.onBoot_cores (s : State) (f : Boot → Boot) : (s.onBoot f).cores = s.cores := rfl
@[simp] theorem State.onBoot_dlrMask (s : State) (f : Boot → Boot) : (s.onBoot f).dlrMask = s.dlrMask := rfl
@[simp] theorem State.onBoot_fab (s : State) (f : Boot → Boot) : (s.onBoot f).fab = s.fab := rfl
@[simp] theorem State.onBoot_hnd (s : State) (f : Boot → Boot) : (s.onBoot f).hnd = s.hnd := rfl
@[simp] theorem State.onBoot_trk (s : State) (f : Boot → Boot) : (s.onBoot f).trk = s.trk := rfl
@[simp] theorem State.onBoot_ckp (s : State) (f : Boot → Boot) : (s.onBoot f).ckp = s.ckp := rfl
@[simp] theorem State.onBoot_flt (s : State) (f : Boot → Boot) : (s.onBoot f).flt = s.flt := rfl
@[simp] theorem State.onBoot_resets (s : State) (f : Boot → Boot) : (s.onBoot f).resets = s.resets := rfl
@[simp] theorem State.onBoot_inv (s : State) (f : Boot → Boot) : (s.onBoot f).inv = s.inv := rfl
@[simp] theorem State.onBoot_flash (s : State) (f : Boot → Boot) : (s.onBoot f).flash = s.flash := rfl
@[simp] theorem State.onBoot_boot (s : State) (f : Boot → Boot) : (s.onBoot f).boot = f s.boot := rfl
@[simp] theorem State.onBoot_pwr (s : State) (f : Boot → Boot) : (s.onBoot f).pwr = s.pwr := rfl
@[simp] theorem State.onBoot_bnk (s : State) (f : Boot → Boot) : (s.onBoot f).bnk = s.bnk := rfl
@[simp] theorem State.onBoot_jtag (s : State) (f : Boot → Boot) : (s.onBoot f).jtag = s.jtag := rfl
@[simp] theorem State.onBoot_bus (s : State) (f : Boot → Boot) : (s.onBoot f).bus = s.bus := rfl
@[simp] theorem State.onBoot_pdc (s : State) (f : Boot → Boot) : (s.onBoot f).pdc = s.pdc := rfl
@[simp] theorem State.onBoot_sco (s : State) (f : Boot → Boot) : (s.onBoot f).sco = s.sco := rfl
@[simp] theorem State.onBoot_tx (s : State) (f : Boot → Boot) : (s.onBoot f).tx = s.tx := rfl
@[simp] theorem State.onBoot_irq (s : State) (f : Boot → Boot) : (s.onBoot f).irq = s.irq := rfl
@[simp] theorem State.onBoot_freeCtr (s : State) (f : Boot → Boot) : (s.onBoot f).freeCtr = s.freeCtr := rfl
@[simp] theorem State.onBoot_pending (s : State) (f : Boot → Boot) : (s.onBoot f).pending = s.pending := rfl

/-! ### `State.onPwr` -/

@[simp] theorem State.onPwr_cad (s : State) (f : Power → Power) : (s.onPwr f).cad = s.cad := rfl
@[simp] theorem State.onPwr_mem (s : State) (f : Power → Power) : (s.onPwr f).mem = s.mem := rfl
@[simp] theorem State.onPwr_hbm (s : State) (f : Power → Power) : (s.onPwr f).hbm = s.hbm := rfl
@[simp] theorem State.onPwr_eng (s : State) (f : Power → Power) : (s.onPwr f).eng = s.eng := rfl
@[simp] theorem State.onPwr_cores (s : State) (f : Power → Power) : (s.onPwr f).cores = s.cores := rfl
@[simp] theorem State.onPwr_dlrMask (s : State) (f : Power → Power) : (s.onPwr f).dlrMask = s.dlrMask := rfl
@[simp] theorem State.onPwr_fab (s : State) (f : Power → Power) : (s.onPwr f).fab = s.fab := rfl
@[simp] theorem State.onPwr_hnd (s : State) (f : Power → Power) : (s.onPwr f).hnd = s.hnd := rfl
@[simp] theorem State.onPwr_trk (s : State) (f : Power → Power) : (s.onPwr f).trk = s.trk := rfl
@[simp] theorem State.onPwr_ckp (s : State) (f : Power → Power) : (s.onPwr f).ckp = s.ckp := rfl
@[simp] theorem State.onPwr_flt (s : State) (f : Power → Power) : (s.onPwr f).flt = s.flt := rfl
@[simp] theorem State.onPwr_resets (s : State) (f : Power → Power) : (s.onPwr f).resets = s.resets := rfl
@[simp] theorem State.onPwr_inv (s : State) (f : Power → Power) : (s.onPwr f).inv = s.inv := rfl
@[simp] theorem State.onPwr_flash (s : State) (f : Power → Power) : (s.onPwr f).flash = s.flash := rfl
@[simp] theorem State.onPwr_boot (s : State) (f : Power → Power) : (s.onPwr f).boot = s.boot := rfl
@[simp] theorem State.onPwr_pwr (s : State) (f : Power → Power) : (s.onPwr f).pwr = f s.pwr := rfl
@[simp] theorem State.onPwr_bnk (s : State) (f : Power → Power) : (s.onPwr f).bnk = s.bnk := rfl
@[simp] theorem State.onPwr_jtag (s : State) (f : Power → Power) : (s.onPwr f).jtag = s.jtag := rfl
@[simp] theorem State.onPwr_bus (s : State) (f : Power → Power) : (s.onPwr f).bus = s.bus := rfl
@[simp] theorem State.onPwr_pdc (s : State) (f : Power → Power) : (s.onPwr f).pdc = s.pdc := rfl
@[simp] theorem State.onPwr_sco (s : State) (f : Power → Power) : (s.onPwr f).sco = s.sco := rfl
@[simp] theorem State.onPwr_tx (s : State) (f : Power → Power) : (s.onPwr f).tx = s.tx := rfl
@[simp] theorem State.onPwr_irq (s : State) (f : Power → Power) : (s.onPwr f).irq = s.irq := rfl
@[simp] theorem State.onPwr_freeCtr (s : State) (f : Power → Power) : (s.onPwr f).freeCtr = s.freeCtr := rfl
@[simp] theorem State.onPwr_pending (s : State) (f : Power → Power) : (s.onPwr f).pending = s.pending := rfl

/-! ### `State.onBnk` -/

@[simp] theorem State.onBnk_cad (s : State) (f : Banker → Banker) : (s.onBnk f).cad = s.cad := rfl
@[simp] theorem State.onBnk_mem (s : State) (f : Banker → Banker) : (s.onBnk f).mem = s.mem := rfl
@[simp] theorem State.onBnk_hbm (s : State) (f : Banker → Banker) : (s.onBnk f).hbm = s.hbm := rfl
@[simp] theorem State.onBnk_eng (s : State) (f : Banker → Banker) : (s.onBnk f).eng = s.eng := rfl
@[simp] theorem State.onBnk_cores (s : State) (f : Banker → Banker) : (s.onBnk f).cores = s.cores := rfl
@[simp] theorem State.onBnk_dlrMask (s : State) (f : Banker → Banker) : (s.onBnk f).dlrMask = s.dlrMask := rfl
@[simp] theorem State.onBnk_fab (s : State) (f : Banker → Banker) : (s.onBnk f).fab = s.fab := rfl
@[simp] theorem State.onBnk_hnd (s : State) (f : Banker → Banker) : (s.onBnk f).hnd = s.hnd := rfl
@[simp] theorem State.onBnk_trk (s : State) (f : Banker → Banker) : (s.onBnk f).trk = s.trk := rfl
@[simp] theorem State.onBnk_ckp (s : State) (f : Banker → Banker) : (s.onBnk f).ckp = s.ckp := rfl
@[simp] theorem State.onBnk_flt (s : State) (f : Banker → Banker) : (s.onBnk f).flt = s.flt := rfl
@[simp] theorem State.onBnk_resets (s : State) (f : Banker → Banker) : (s.onBnk f).resets = s.resets := rfl
@[simp] theorem State.onBnk_inv (s : State) (f : Banker → Banker) : (s.onBnk f).inv = s.inv := rfl
@[simp] theorem State.onBnk_flash (s : State) (f : Banker → Banker) : (s.onBnk f).flash = s.flash := rfl
@[simp] theorem State.onBnk_boot (s : State) (f : Banker → Banker) : (s.onBnk f).boot = s.boot := rfl
@[simp] theorem State.onBnk_pwr (s : State) (f : Banker → Banker) : (s.onBnk f).pwr = s.pwr := rfl
@[simp] theorem State.onBnk_bnk (s : State) (f : Banker → Banker) : (s.onBnk f).bnk = f s.bnk := rfl
@[simp] theorem State.onBnk_jtag (s : State) (f : Banker → Banker) : (s.onBnk f).jtag = s.jtag := rfl
@[simp] theorem State.onBnk_bus (s : State) (f : Banker → Banker) : (s.onBnk f).bus = s.bus := rfl
@[simp] theorem State.onBnk_pdc (s : State) (f : Banker → Banker) : (s.onBnk f).pdc = s.pdc := rfl
@[simp] theorem State.onBnk_sco (s : State) (f : Banker → Banker) : (s.onBnk f).sco = s.sco := rfl
@[simp] theorem State.onBnk_tx (s : State) (f : Banker → Banker) : (s.onBnk f).tx = s.tx := rfl
@[simp] theorem State.onBnk_irq (s : State) (f : Banker → Banker) : (s.onBnk f).irq = s.irq := rfl
@[simp] theorem State.onBnk_freeCtr (s : State) (f : Banker → Banker) : (s.onBnk f).freeCtr = s.freeCtr := rfl
@[simp] theorem State.onBnk_pending (s : State) (f : Banker → Banker) : (s.onBnk f).pending = s.pending := rfl

/-! ### `State.onSco` -/

@[simp] theorem State.onSco_cad (s : State) (f : Score → Score) : (s.onSco f).cad = s.cad := rfl
@[simp] theorem State.onSco_mem (s : State) (f : Score → Score) : (s.onSco f).mem = s.mem := rfl
@[simp] theorem State.onSco_hbm (s : State) (f : Score → Score) : (s.onSco f).hbm = s.hbm := rfl
@[simp] theorem State.onSco_eng (s : State) (f : Score → Score) : (s.onSco f).eng = s.eng := rfl
@[simp] theorem State.onSco_cores (s : State) (f : Score → Score) : (s.onSco f).cores = s.cores := rfl
@[simp] theorem State.onSco_dlrMask (s : State) (f : Score → Score) : (s.onSco f).dlrMask = s.dlrMask := rfl
@[simp] theorem State.onSco_fab (s : State) (f : Score → Score) : (s.onSco f).fab = s.fab := rfl
@[simp] theorem State.onSco_hnd (s : State) (f : Score → Score) : (s.onSco f).hnd = s.hnd := rfl
@[simp] theorem State.onSco_trk (s : State) (f : Score → Score) : (s.onSco f).trk = s.trk := rfl
@[simp] theorem State.onSco_ckp (s : State) (f : Score → Score) : (s.onSco f).ckp = s.ckp := rfl
@[simp] theorem State.onSco_flt (s : State) (f : Score → Score) : (s.onSco f).flt = s.flt := rfl
@[simp] theorem State.onSco_resets (s : State) (f : Score → Score) : (s.onSco f).resets = s.resets := rfl
@[simp] theorem State.onSco_inv (s : State) (f : Score → Score) : (s.onSco f).inv = s.inv := rfl
@[simp] theorem State.onSco_flash (s : State) (f : Score → Score) : (s.onSco f).flash = s.flash := rfl
@[simp] theorem State.onSco_boot (s : State) (f : Score → Score) : (s.onSco f).boot = s.boot := rfl
@[simp] theorem State.onSco_pwr (s : State) (f : Score → Score) : (s.onSco f).pwr = s.pwr := rfl
@[simp] theorem State.onSco_bnk (s : State) (f : Score → Score) : (s.onSco f).bnk = s.bnk := rfl
@[simp] theorem State.onSco_jtag (s : State) (f : Score → Score) : (s.onSco f).jtag = s.jtag := rfl
@[simp] theorem State.onSco_bus (s : State) (f : Score → Score) : (s.onSco f).bus = s.bus := rfl
@[simp] theorem State.onSco_pdc (s : State) (f : Score → Score) : (s.onSco f).pdc = s.pdc := rfl
@[simp] theorem State.onSco_sco (s : State) (f : Score → Score) : (s.onSco f).sco = f s.sco := rfl
@[simp] theorem State.onSco_tx (s : State) (f : Score → Score) : (s.onSco f).tx = s.tx := rfl
@[simp] theorem State.onSco_irq (s : State) (f : Score → Score) : (s.onSco f).irq = s.irq := rfl
@[simp] theorem State.onSco_freeCtr (s : State) (f : Score → Score) : (s.onSco f).freeCtr = s.freeCtr := rfl
@[simp] theorem State.onSco_pending (s : State) (f : Score → Score) : (s.onSco f).pending = s.pending := rfl

/-! ### `State.onBus` -/

@[simp] theorem State.onBus_cad (s : State) (f : RegBus → RegBus) : (s.onBus f).cad = s.cad := rfl
@[simp] theorem State.onBus_mem (s : State) (f : RegBus → RegBus) : (s.onBus f).mem = s.mem := rfl
@[simp] theorem State.onBus_hbm (s : State) (f : RegBus → RegBus) : (s.onBus f).hbm = s.hbm := rfl
@[simp] theorem State.onBus_eng (s : State) (f : RegBus → RegBus) : (s.onBus f).eng = s.eng := rfl
@[simp] theorem State.onBus_cores (s : State) (f : RegBus → RegBus) : (s.onBus f).cores = s.cores := rfl
@[simp] theorem State.onBus_dlrMask (s : State) (f : RegBus → RegBus) : (s.onBus f).dlrMask = s.dlrMask := rfl
@[simp] theorem State.onBus_fab (s : State) (f : RegBus → RegBus) : (s.onBus f).fab = s.fab := rfl
@[simp] theorem State.onBus_hnd (s : State) (f : RegBus → RegBus) : (s.onBus f).hnd = s.hnd := rfl
@[simp] theorem State.onBus_trk (s : State) (f : RegBus → RegBus) : (s.onBus f).trk = s.trk := rfl
@[simp] theorem State.onBus_ckp (s : State) (f : RegBus → RegBus) : (s.onBus f).ckp = s.ckp := rfl
@[simp] theorem State.onBus_flt (s : State) (f : RegBus → RegBus) : (s.onBus f).flt = s.flt := rfl
@[simp] theorem State.onBus_resets (s : State) (f : RegBus → RegBus) : (s.onBus f).resets = s.resets := rfl
@[simp] theorem State.onBus_inv (s : State) (f : RegBus → RegBus) : (s.onBus f).inv = s.inv := rfl
@[simp] theorem State.onBus_flash (s : State) (f : RegBus → RegBus) : (s.onBus f).flash = s.flash := rfl
@[simp] theorem State.onBus_boot (s : State) (f : RegBus → RegBus) : (s.onBus f).boot = s.boot := rfl
@[simp] theorem State.onBus_pwr (s : State) (f : RegBus → RegBus) : (s.onBus f).pwr = s.pwr := rfl
@[simp] theorem State.onBus_bnk (s : State) (f : RegBus → RegBus) : (s.onBus f).bnk = s.bnk := rfl
@[simp] theorem State.onBus_jtag (s : State) (f : RegBus → RegBus) : (s.onBus f).jtag = s.jtag := rfl
@[simp] theorem State.onBus_bus (s : State) (f : RegBus → RegBus) : (s.onBus f).bus = f s.bus := rfl
@[simp] theorem State.onBus_pdc (s : State) (f : RegBus → RegBus) : (s.onBus f).pdc = s.pdc := rfl
@[simp] theorem State.onBus_sco (s : State) (f : RegBus → RegBus) : (s.onBus f).sco = s.sco := rfl
@[simp] theorem State.onBus_tx (s : State) (f : RegBus → RegBus) : (s.onBus f).tx = s.tx := rfl
@[simp] theorem State.onBus_irq (s : State) (f : RegBus → RegBus) : (s.onBus f).irq = s.irq := rfl
@[simp] theorem State.onBus_freeCtr (s : State) (f : RegBus → RegBus) : (s.onBus f).freeCtr = s.freeCtr := rfl
@[simp] theorem State.onBus_pending (s : State) (f : RegBus → RegBus) : (s.onBus f).pending = s.pending := rfl

/-! ### `State.onJob` -/

@[simp] theorem State.onJob_cad (s : State) (f : Job → Job) : (s.onJob f).cad = s.cad := rfl
@[simp] theorem State.onJob_mem (s : State) (f : Job → Job) : (s.onJob f).mem = s.mem := rfl
@[simp] theorem State.onJob_hbm (s : State) (f : Job → Job) : (s.onJob f).hbm = s.hbm := rfl
@[simp] theorem State.onJob_eng (s : State) (f : Job → Job) : (s.onJob f).eng = s.eng := rfl
@[simp] theorem State.onJob_cores (s : State) (f : Job → Job) : (s.onJob f).cores = s.cores := rfl
@[simp] theorem State.onJob_dlrMask (s : State) (f : Job → Job) : (s.onJob f).dlrMask = s.dlrMask := rfl
@[simp] theorem State.onJob_fab (s : State) (f : Job → Job) : (s.onJob f).fab = s.fab := rfl
@[simp] theorem State.onJob_hnd (s : State) (f : Job → Job) : (s.onJob f).hnd = s.hnd := rfl
@[simp] theorem State.onJob_trk (s : State) (f : Job → Job) : (s.onJob f).trk = s.trk := rfl
@[simp] theorem State.onJob_ckp (s : State) (f : Job → Job) : (s.onJob f).ckp = s.ckp := rfl
@[simp] theorem State.onJob_flt (s : State) (f : Job → Job) : (s.onJob f).flt = s.flt := rfl
@[simp] theorem State.onJob_resets (s : State) (f : Job → Job) : (s.onJob f).resets = s.resets := rfl
@[simp] theorem State.onJob_inv (s : State) (f : Job → Job) : (s.onJob f).inv = s.inv := rfl
@[simp] theorem State.onJob_flash (s : State) (f : Job → Job) : (s.onJob f).flash = s.flash := rfl
@[simp] theorem State.onJob_boot (s : State) (f : Job → Job) : (s.onJob f).boot = s.boot := rfl
@[simp] theorem State.onJob_pwr (s : State) (f : Job → Job) : (s.onJob f).pwr = s.pwr := rfl
@[simp] theorem State.onJob_bnk (s : State) (f : Job → Job) : (s.onJob f).bnk = { s.bnk with job := f s.bnk.job } := rfl
@[simp] theorem State.onJob_jtag (s : State) (f : Job → Job) : (s.onJob f).jtag = s.jtag := rfl
@[simp] theorem State.onJob_bus (s : State) (f : Job → Job) : (s.onJob f).bus = s.bus := rfl
@[simp] theorem State.onJob_pdc (s : State) (f : Job → Job) : (s.onJob f).pdc = s.pdc := rfl
@[simp] theorem State.onJob_sco (s : State) (f : Job → Job) : (s.onJob f).sco = s.sco := rfl
@[simp] theorem State.onJob_tx (s : State) (f : Job → Job) : (s.onJob f).tx = s.tx := rfl
@[simp] theorem State.onJob_irq (s : State) (f : Job → Job) : (s.onJob f).irq = s.irq := rfl
@[simp] theorem State.onJob_freeCtr (s : State) (f : Job → Job) : (s.onJob f).freeCtr = s.freeCtr := rfl
@[simp] theorem State.onJob_pending (s : State) (f : Job → Job) : (s.onJob f).pending = s.pending := rfl

@[simp] theorem State.onJob_job (s : State) (f : Job → Job) : (s.onJob f).job = f s.job := rfl

/-! ### `State.onCore` -/

@[simp] theorem State.onCore_cad (s : State) (c : Fin 192) (f : Core → Core) : (s.onCore c f).cad = s.cad := rfl
@[simp] theorem State.onCore_mem (s : State) (c : Fin 192) (f : Core → Core) : (s.onCore c f).mem = s.mem := rfl
@[simp] theorem State.onCore_hbm (s : State) (c : Fin 192) (f : Core → Core) : (s.onCore c f).hbm = s.hbm := rfl
@[simp] theorem State.onCore_eng (s : State) (c : Fin 192) (f : Core → Core) : (s.onCore c f).eng = s.eng := rfl
@[simp] theorem State.onCore_cores (s : State) (c : Fin 192) (f : Core → Core) : (s.onCore c f).cores = vmod s.cores c f := rfl
@[simp] theorem State.onCore_dlrMask (s : State) (c : Fin 192) (f : Core → Core) : (s.onCore c f).dlrMask = s.dlrMask := rfl
@[simp] theorem State.onCore_fab (s : State) (c : Fin 192) (f : Core → Core) : (s.onCore c f).fab = s.fab := rfl
@[simp] theorem State.onCore_hnd (s : State) (c : Fin 192) (f : Core → Core) : (s.onCore c f).hnd = s.hnd := rfl
@[simp] theorem State.onCore_trk (s : State) (c : Fin 192) (f : Core → Core) : (s.onCore c f).trk = s.trk := rfl
@[simp] theorem State.onCore_ckp (s : State) (c : Fin 192) (f : Core → Core) : (s.onCore c f).ckp = s.ckp := rfl
@[simp] theorem State.onCore_flt (s : State) (c : Fin 192) (f : Core → Core) : (s.onCore c f).flt = s.flt := rfl
@[simp] theorem State.onCore_resets (s : State) (c : Fin 192) (f : Core → Core) : (s.onCore c f).resets = s.resets := rfl
@[simp] theorem State.onCore_inv (s : State) (c : Fin 192) (f : Core → Core) : (s.onCore c f).inv = s.inv := rfl
@[simp] theorem State.onCore_flash (s : State) (c : Fin 192) (f : Core → Core) : (s.onCore c f).flash = s.flash := rfl
@[simp] theorem State.onCore_boot (s : State) (c : Fin 192) (f : Core → Core) : (s.onCore c f).boot = s.boot := rfl
@[simp] theorem State.onCore_pwr (s : State) (c : Fin 192) (f : Core → Core) : (s.onCore c f).pwr = s.pwr := rfl
@[simp] theorem State.onCore_bnk (s : State) (c : Fin 192) (f : Core → Core) : (s.onCore c f).bnk = s.bnk := rfl
@[simp] theorem State.onCore_jtag (s : State) (c : Fin 192) (f : Core → Core) : (s.onCore c f).jtag = s.jtag := rfl
@[simp] theorem State.onCore_bus (s : State) (c : Fin 192) (f : Core → Core) : (s.onCore c f).bus = s.bus := rfl
@[simp] theorem State.onCore_pdc (s : State) (c : Fin 192) (f : Core → Core) : (s.onCore c f).pdc = s.pdc := rfl
@[simp] theorem State.onCore_sco (s : State) (c : Fin 192) (f : Core → Core) : (s.onCore c f).sco = s.sco := rfl
@[simp] theorem State.onCore_tx (s : State) (c : Fin 192) (f : Core → Core) : (s.onCore c f).tx = s.tx := rfl
@[simp] theorem State.onCore_irq (s : State) (c : Fin 192) (f : Core → Core) : (s.onCore c f).irq = s.irq := rfl
@[simp] theorem State.onCore_freeCtr (s : State) (c : Fin 192) (f : Core → Core) : (s.onCore c f).freeCtr = s.freeCtr := rfl
@[simp] theorem State.onCore_pending (s : State) (c : Fin 192) (f : Core → Core) : (s.onCore c f).pending = s.pending := rfl

/-! ### `State.onPort` -/

@[simp] theorem State.onPort_cad (s : State) (p : Fin 32) (f : Port → Port) : (s.onPort p f).cad = s.cad := rfl
@[simp] theorem State.onPort_mem (s : State) (p : Fin 32) (f : Port → Port) : (s.onPort p f).mem = s.mem := rfl
@[simp] theorem State.onPort_hbm (s : State) (p : Fin 32) (f : Port → Port) : (s.onPort p f).hbm = s.hbm := rfl
@[simp] theorem State.onPort_eng (s : State) (p : Fin 32) (f : Port → Port) : (s.onPort p f).eng = s.eng := rfl
@[simp] theorem State.onPort_cores (s : State) (p : Fin 32) (f : Port → Port) : (s.onPort p f).cores = s.cores := rfl
@[simp] theorem State.onPort_dlrMask (s : State) (p : Fin 32) (f : Port → Port) : (s.onPort p f).dlrMask = s.dlrMask := rfl
@[simp] theorem State.onPort_fab (s : State) (p : Fin 32) (f : Port → Port) : (s.onPort p f).fab = { s.fab with ports := vmod s.fab.ports p f } := rfl
@[simp] theorem State.onPort_hnd (s : State) (p : Fin 32) (f : Port → Port) : (s.onPort p f).hnd = s.hnd := rfl
@[simp] theorem State.onPort_trk (s : State) (p : Fin 32) (f : Port → Port) : (s.onPort p f).trk = s.trk := rfl
@[simp] theorem State.onPort_ckp (s : State) (p : Fin 32) (f : Port → Port) : (s.onPort p f).ckp = s.ckp := rfl
@[simp] theorem State.onPort_flt (s : State) (p : Fin 32) (f : Port → Port) : (s.onPort p f).flt = s.flt := rfl
@[simp] theorem State.onPort_resets (s : State) (p : Fin 32) (f : Port → Port) : (s.onPort p f).resets = s.resets := rfl
@[simp] theorem State.onPort_inv (s : State) (p : Fin 32) (f : Port → Port) : (s.onPort p f).inv = s.inv := rfl
@[simp] theorem State.onPort_flash (s : State) (p : Fin 32) (f : Port → Port) : (s.onPort p f).flash = s.flash := rfl
@[simp] theorem State.onPort_boot (s : State) (p : Fin 32) (f : Port → Port) : (s.onPort p f).boot = s.boot := rfl
@[simp] theorem State.onPort_pwr (s : State) (p : Fin 32) (f : Port → Port) : (s.onPort p f).pwr = s.pwr := rfl
@[simp] theorem State.onPort_bnk (s : State) (p : Fin 32) (f : Port → Port) : (s.onPort p f).bnk = s.bnk := rfl
@[simp] theorem State.onPort_jtag (s : State) (p : Fin 32) (f : Port → Port) : (s.onPort p f).jtag = s.jtag := rfl
@[simp] theorem State.onPort_bus (s : State) (p : Fin 32) (f : Port → Port) : (s.onPort p f).bus = s.bus := rfl
@[simp] theorem State.onPort_pdc (s : State) (p : Fin 32) (f : Port → Port) : (s.onPort p f).pdc = s.pdc := rfl
@[simp] theorem State.onPort_sco (s : State) (p : Fin 32) (f : Port → Port) : (s.onPort p f).sco = s.sco := rfl
@[simp] theorem State.onPort_tx (s : State) (p : Fin 32) (f : Port → Port) : (s.onPort p f).tx = s.tx := rfl
@[simp] theorem State.onPort_irq (s : State) (p : Fin 32) (f : Port → Port) : (s.onPort p f).irq = s.irq := rfl
@[simp] theorem State.onPort_freeCtr (s : State) (p : Fin 32) (f : Port → Port) : (s.onPort p f).freeCtr = s.freeCtr := rfl
@[simp] theorem State.onPort_pending (s : State) (p : Fin 32) (f : Port → Port) : (s.onPort p f).pending = s.pending := rfl

/-! ### `State.onMbx` -/

@[simp] theorem State.onMbx_cad (s : State) (m : Fin 32) (f : Mailbox → Mailbox) : (s.onMbx m f).cad = s.cad := rfl
@[simp] theorem State.onMbx_mem (s : State) (m : Fin 32) (f : Mailbox → Mailbox) : (s.onMbx m f).mem = s.mem := rfl
@[simp] theorem State.onMbx_hbm (s : State) (m : Fin 32) (f : Mailbox → Mailbox) : (s.onMbx m f).hbm = s.hbm := rfl
@[simp] theorem State.onMbx_eng (s : State) (m : Fin 32) (f : Mailbox → Mailbox) : (s.onMbx m f).eng = s.eng := rfl
@[simp] theorem State.onMbx_cores (s : State) (m : Fin 32) (f : Mailbox → Mailbox) : (s.onMbx m f).cores = s.cores := rfl
@[simp] theorem State.onMbx_dlrMask (s : State) (m : Fin 32) (f : Mailbox → Mailbox) : (s.onMbx m f).dlrMask = s.dlrMask := rfl
@[simp] theorem State.onMbx_fab (s : State) (m : Fin 32) (f : Mailbox → Mailbox) : (s.onMbx m f).fab = s.fab := rfl
@[simp] theorem State.onMbx_hnd (s : State) (m : Fin 32) (f : Mailbox → Mailbox) : (s.onMbx m f).hnd = s.hnd := rfl
@[simp] theorem State.onMbx_trk (s : State) (m : Fin 32) (f : Mailbox → Mailbox) : (s.onMbx m f).trk = s.trk := rfl
@[simp] theorem State.onMbx_ckp (s : State) (m : Fin 32) (f : Mailbox → Mailbox) : (s.onMbx m f).ckp = s.ckp := rfl
@[simp] theorem State.onMbx_flt (s : State) (m : Fin 32) (f : Mailbox → Mailbox) : (s.onMbx m f).flt = s.flt := rfl
@[simp] theorem State.onMbx_resets (s : State) (m : Fin 32) (f : Mailbox → Mailbox) : (s.onMbx m f).resets = s.resets := rfl
@[simp] theorem State.onMbx_inv (s : State) (m : Fin 32) (f : Mailbox → Mailbox) : (s.onMbx m f).inv = s.inv := rfl
@[simp] theorem State.onMbx_flash (s : State) (m : Fin 32) (f : Mailbox → Mailbox) : (s.onMbx m f).flash = s.flash := rfl
@[simp] theorem State.onMbx_boot (s : State) (m : Fin 32) (f : Mailbox → Mailbox) : (s.onMbx m f).boot = s.boot := rfl
@[simp] theorem State.onMbx_pwr (s : State) (m : Fin 32) (f : Mailbox → Mailbox) : (s.onMbx m f).pwr = s.pwr := rfl
@[simp] theorem State.onMbx_bnk (s : State) (m : Fin 32) (f : Mailbox → Mailbox) : (s.onMbx m f).bnk = { s.bnk with mbx := vmod s.bnk.mbx m f } := rfl
@[simp] theorem State.onMbx_jtag (s : State) (m : Fin 32) (f : Mailbox → Mailbox) : (s.onMbx m f).jtag = s.jtag := rfl
@[simp] theorem State.onMbx_bus (s : State) (m : Fin 32) (f : Mailbox → Mailbox) : (s.onMbx m f).bus = s.bus := rfl
@[simp] theorem State.onMbx_pdc (s : State) (m : Fin 32) (f : Mailbox → Mailbox) : (s.onMbx m f).pdc = s.pdc := rfl
@[simp] theorem State.onMbx_sco (s : State) (m : Fin 32) (f : Mailbox → Mailbox) : (s.onMbx m f).sco = s.sco := rfl
@[simp] theorem State.onMbx_tx (s : State) (m : Fin 32) (f : Mailbox → Mailbox) : (s.onMbx m f).tx = s.tx := rfl
@[simp] theorem State.onMbx_irq (s : State) (m : Fin 32) (f : Mailbox → Mailbox) : (s.onMbx m f).irq = s.irq := rfl
@[simp] theorem State.onMbx_freeCtr (s : State) (m : Fin 32) (f : Mailbox → Mailbox) : (s.onMbx m f).freeCtr = s.freeCtr := rfl
@[simp] theorem State.onMbx_pending (s : State) (m : Fin 32) (f : Mailbox → Mailbox) : (s.onMbx m f).pending = s.pending := rfl

/-! ### Vectors and their elements -/

@[simp] theorem vmod_same {α : Type} {n : Nat} (v : Vector α n) (i : Fin n) (f : α → α) : (vmod v i f)[i] = f v[i] := by
  simp [vmod, i.isLt]

theorem vmod_other {α : Type} {n : Nat} (v : Vector α n) (i : Nat) (f : α → α) (j : Fin n) (h : i ≠ j.val) : (vmod v i f)[j] = v[j] := by
  unfold vmod
  split
  · simp [h]
  · rfl

@[simp] theorem vput_same {α : Type} {n : Nat} (v : Vector α n) (i : Fin n) (x : α) : (vput v i x)[i] = x := vmod_same v i _

theorem vput_other {α : Type} {n : Nat} (v : Vector α n) (i : Nat) (x : α) (j : Fin n) (h : i ≠ j.val) : (vput v i x)[j] = v[j] :=
  vmod_other v i _ j h

/-- Element `j` after a change of element `i`. -/
theorem vmod_getElem {α : Type} {n : Nat} (v : Vector α n) (i j : Nat) (f : α → α) (h : j < n) :
    (vmod v i f)[j] = if i = j then f v[j] else v[j] := by
  unfold vmod
  split
  · rw [Vector.getElem_set]
    split
    · rename_i e; subst e; rfl
    · rfl
  · rw [if_neg (fun e => absurd (e ▸ h) ‹_›)]

/-- Two changes of one element are one change. -/
theorem vmod_vmod {α : Type} {n : Nat} (v : Vector α n) (i : Nat) (f g : α → α) : vmod (vmod v i f) i g = vmod v i (g ∘ f) := by
  unfold vmod
  split <;> simp

/-! ### One core, one port, one mailbox -/

@[simp] theorem State.core_onCore_same (s : State) (c : Fin 192) (f : Core → Core) : (s.onCore c f).core c = f (s.core c) := vmod_same s.cores c f

theorem State.core_onCore_other (s : State) (c d : Fin 192) (f : Core → Core) (h : d ≠ c) : (s.onCore c f).core d = s.core d :=
  vmod_other s.cores c f d (fun e => h (Fin.ext e.symm))

@[simp] theorem State.mbx_onMbx_same (s : State) (m : Fin 32) (f : Mailbox → Mailbox) : (s.onMbx m f).mbx m = f (s.mbx m) := vmod_same s.bnk.mbx m f

theorem State.mbx_onMbx_other (s : State) (m o : Fin 32) (f : Mailbox → Mailbox) (h : o ≠ m) : (s.onMbx m f).mbx o = s.mbx o :=
  vmod_other s.bnk.mbx m f o (fun e => h (Fin.ext e.symm))

/-- Two changes of one core are one change. -/
theorem State.onCore_onCore (s : State) (c : Fin 192) (f g : Core → Core) : (s.onCore c f).onCore c g = s.onCore c (g ∘ f) := by
  unfold State.onCore
  simp only [vmod_vmod]

/-! ### The registers of a Dealer core (R214) -/

/-- G0 reads 0 whatever has been written to it. -/
@[simp] theorem Core.gr_zero (x : Core) : x.gr 0 = 0 := by simp [Core.gr]

/-- A write of G0 changes nothing. -/
@[simp] theorem Core.setG_zero (x : Core) (v : BitVec 64) : x.setG 0 v = x := by simp [Core.setG]

theorem Core.gr_setG_same (x : Core) (d : Fin 32) (v : BitVec 64) (h : d ≠ 0) : (x.setG d v).gr d = v := by
  simp only [Core.gr, Core.setG, h, if_false]
  exact vput_same x.g d v

theorem Core.gr_setG_other (x : Core) (d r : Fin 32) (v : BitVec 64) (h : r ≠ d) : (x.setG d v).gr r = x.gr r := by
  by_cases hd : d = 0
  · simp [hd]
  · simp only [Core.gr, Core.setG, hd, if_false]
    rw [vput_other _ _ _ _ (fun e => h (Fin.ext e.symm))]

/-- K0 reads all ones whatever has been written to it. -/
@[simp] theorem Core.kr_zero (x : Core) : x.kr 0 = 0xFFFF := by simp [Core.kr]

/-- A write of K0 changes nothing. -/
@[simp] theorem Core.setK_zero (x : Core) (v : BitVec 16) : x.setK 0 v = x := by simp [Core.setK]

/-- Fn is the low half of Vn, and a write of it zeroes the high half. -/
theorem Core.vr_setF_same (x : Core) (d : Fin 32) (v : BitVec 64) : (x.setF d v).v[d] = v.setWidth 128 := vput_same x.v d _

end Sys2Proof.Machine
end

