-- ==== Sys2Proof/Laws/Memory.lean ====
section
/-!
SUPPORT. Memory.lean: the canonical form of memory, a read after a write, and that every operation over memory keeps the form.
-/
namespace Sys2Proof.Machine

open Sys2Proof

/-! ### Cells -/

theorem cellsOk_le {m : Memory} {l : List Host.Cell} {lo lo' : Nat} (h : cellsOk m lo l = true) (hl : lo' ≤ lo) : cellsOk m lo' l = true := by
  cases l with
  | nil => rfl
  | cons c r =>
    obtain ⟨k, b⟩ := c
    simp only [cellsOk, Bool.and_eq_true, decide_eq_true_eq] at h ⊢
    exact ⟨⟨by omega, h.1.2⟩, h.2⟩

/-- Below every listed key nothing is listed. -/
theorem cellGet_below {m : Memory} {base : Byte} : ∀ {l : List Host.Cell} {lo a : Nat}, cellsOk m lo l = true → a < lo → cellGet base l a = base
  | [], _, _, _, _ => rfl
  | (k, b) :: r, lo, a, h, ha => by
    simp only [cellsOk, Bool.and_eq_true, decide_eq_true_eq] at h
    simp only [cellGet]
    rw [if_neg (by omega)]
    exact cellGet_below h.2 (by omega)

/-- A write keeps the keys rising and every entry other than its base. -/
theorem cellsOk_put {m : Memory} {b : Byte} {a : Nat} : ∀ {l : List Host.Cell} {lo : Nat}, cellsOk m lo l = true → lo ≤ a →
    cellsOk m lo (cellPut (m.base a) b l a) = true
  | [], lo, _, ha => by
    unfold cellPut
    split
    · rfl
    · rename_i hb
      simp [cellsOk, ha, hb]
  | (k, x) :: r, lo, h, ha => by
    have h0 := h
    simp only [cellsOk, Bool.and_eq_true, decide_eq_true_eq] at h
    unfold cellPut
    split
    · split
      · exact h0
      · rename_i hlt hb
        simp only [cellsOk, Bool.and_eq_true, decide_eq_true_eq]
        exact ⟨⟨ha, hb⟩, ⟨by omega, h.1.2⟩, h.2⟩
    · split
      · rename_i hk
        subst hk
        split
        · exact cellsOk_le h.2 (by omega)
        · rename_i hb
          simp only [cellsOk, Bool.and_eq_true, decide_eq_true_eq]
          exact ⟨⟨ha, hb⟩, h.2⟩
      · simp only [cellsOk, Bool.and_eq_true, decide_eq_true_eq]
        exact ⟨h.1, cellsOk_put h.2 (by omega)⟩

theorem cellGet_put {m : Memory} {b : Byte} {a q : Nat} : ∀ {l : List Host.Cell} {lo : Nat}, cellsOk m lo l = true →
    cellGet (m.base q) (cellPut (m.base a) b l a) q = if q = a then b else cellGet (m.base q) l q
  | [], _, _ => by
    unfold cellPut
    split
    · rename_i hb
      by_cases hq : q = a
      · subst hq; simp [cellGet, hb]
      · simp [cellGet, hq]
    · by_cases hq : q = a
      · subst hq; simp [cellGet]
      · simp [cellGet, hq, Ne.symm hq]
  | (k, x) :: r, lo, h => by
    have h0 := h
    simp only [cellsOk, Bool.and_eq_true, decide_eq_true_eq] at h
    unfold cellPut
    split
    · rename_i hlt
      split
      · rename_i hb
        by_cases hq : q = a
        · subst hq
          rw [if_pos rfl, hb]
          simp only [cellGet]
          rw [if_neg (by omega)]
          exact cellGet_below h.2 (by omega)
        · rw [if_neg hq]
      · by_cases hq : q = a
        · subst hq; simp [cellGet]
        · rw [if_neg hq]; simp [cellGet, Ne.symm hq]
    · split
      · rename_i hk
        subst hk
        split
        · rename_i hb
          by_cases hq : q = a
          · subst hq
            rw [if_pos rfl, hb]
            exact cellGet_below h.2 (by omega)
          · rw [if_neg hq]; simp [cellGet, Ne.symm hq]
        · by_cases hq : q = a
          · subst hq; simp [cellGet]
          · rw [if_neg hq]; simp [cellGet, Ne.symm hq]
      · rename_i hlt hne
        simp only [cellGet]
        by_cases hk : k = q
        · subst hk
          rw [if_pos rfl, if_pos rfl, if_neg (fun e => hne e.symm)]
        · rw [if_neg hk, if_neg hk]
          exact cellGet_put h.2

/-- A list of cells keeps its form under a filter. -/
theorem cellsOk_filter {m : Memory} {p : Host.Cell → Bool} : ∀ {l : List Host.Cell} {lo : Nat}, cellsOk m lo l = true →
    cellsOk m lo (l.filter p) = true
  | [], _, _ => rfl
  | (k, b) :: r, lo, h => by
    simp only [cellsOk, Bool.and_eq_true, decide_eq_true_eq] at h
    rw [List.filter_cons]
    split
    · simp only [cellsOk, Bool.and_eq_true, decide_eq_true_eq]
      exact ⟨h.1, cellsOk_filter h.2⟩
    · exact cellsOk_le (cellsOk_filter h.2) (by omega)

/-- The form depends only on what unlisted keys read as. -/
theorem cellsOk_congr {m m' : Memory} : ∀ {l : List Host.Cell} {lo : Nat}, (∀ c ∈ l, m'.base c.1 = m.base c.1) → cellsOk m lo l = true →
    cellsOk m' lo l = true
  | [], _, _, _ => rfl
  | (k, b) :: r, lo, hb, h => by
    simp only [cellsOk, Bool.and_eq_true, decide_eq_true_eq] at h ⊢
    refine ⟨⟨h.1.1, ?_⟩, cellsOk_congr (fun c hc => hb c (List.mem_cons_of_mem _ hc)) h.2⟩
    rw [hb (k, b) (List.mem_cons_self ..)]
    exact h.1.2

/-! ### Memory -/

@[simp] theorem Memory.put_base (m : Memory) (k q : Nat) (b : Byte) : (m.put k b).base q = m.base q := rfl

/-- Memory at reset is in canonical form. -/
theorem Memory.reset_wf : Memory.reset.wf = true := rfl

/-- What unlisted keys read as and what is listed decide the form. -/
theorem Memory.wf_of_cells {m m' : Memory} (hc : m'.cells = m.cells) (he : m'.fills = m.fills) (h : m.wf = true) : m'.wf = true := by
  unfold Memory.wf at *
  rw [hc]
  exact cellsOk_congr (fun c _ => by unfold Memory.base; rw [he]) h

/-- A write of a byte keeps the canonical form. -/
theorem Memory.wf_put {m : Memory} (h : m.wf = true) (k : Nat) (b : Byte) : (m.put k b).wf = true :=
  cellsOk_congr (m := m) (fun _ _ => rfl) (cellsOk_put (a := k) (b := b) h (Nat.zero_le _))

/-- A read after a write: the byte written, and every other byte as it was. -/
theorem Memory.get_put {m : Memory} (h : m.wf = true) (k q : Nat) (b : Byte) : (m.put k b).get q = if q = k then b else m.get q :=
  cellGet_put (m := m) h

/-- Writes of bytes keep the canonical form. -/
theorem Memory.wf_putAll (kbs : List (Nat × Byte)) : ∀ {m : Memory}, m.wf = true → (m.putAll kbs).wf = true := by
  induction kbs with
  | nil => exact fun h => h
  | cons kb r ih => exact fun h => ih (Memory.wf_put h kb.1 kb.2)

/-- A byte that no write names is what it was. -/
theorem Memory.get_putAll_other (kbs : List (Nat × Byte)) (q : Nat) : ∀ {m : Memory}, m.wf = true → (∀ kb ∈ kbs, kb.1 ≠ q) →
    (m.putAll kbs).get q = m.get q := by
  induction kbs with
  | nil => exact fun _ _ => rfl
  | cons kb r ih =>
    intro m h hq
    refine (ih (Memory.wf_put h kb.1 kb.2) (fun x hx => hq x (List.mem_cons_of_mem _ hx))).trans ?_
    rw [Memory.get_put h, if_neg (fun e => hq kb (List.mem_cons_self ..) e.symm)]

/-- The last of the writes of a key is what it reads as. -/
theorem Memory.get_putAll_last (xs ys : List (Nat × Byte)) (k : Nat) (b : Byte) {m : Memory} (h : m.wf = true) (hy : ∀ kb ∈ ys, kb.1 ≠ k) :
    (m.putAll (xs ++ (k, b) :: ys)).get k = b := by
  unfold Memory.putAll
  rw [List.foldl_append, List.foldl_cons]
  have hx := Memory.wf_putAll xs h
  refine (Memory.get_putAll_other ys k (Memory.wf_put hx k b) hy).trans ?_
  exact (Memory.get_put hx k k b).trans (if_pos rfl)

theorem Memory.wf_poisonLine {m : Memory} (h : m.wf = true) (l : Nat) : (m.poisonLine l).wf = true := Memory.wf_of_cells (m := m) rfl rfl h
theorem Memory.wf_cleanLine {m : Memory} (h : m.wf = true) (l : Nat) : (m.cleanLine l).wf = true := Memory.wf_of_cells (m := m) rfl rfl h
theorem Memory.wf_calm {m : Memory} (h : m.wf = true) (l : Nat) : (m.calm l).wf = true := Memory.wf_of_cells (m := m) rfl rfl h
theorem Memory.wf_applyPattern {m : Memory} (h : m.wf = true) (l : Nat) (p : Pattern) : (m.applyPattern l p).wf = true := Memory.wf_putAll _ h
theorem Memory.wf_loseStack {m : Memory} (h : m.wf = true) (k : Nat) : (m.loseStack k).wf = true :=
  cellsOk_congr (m := m) (fun _ _ => rfl) (cellsOk_filter h)

/-- Listed cells that are dropped leave the form. -/
theorem Memory.wf_filter {m : Memory} (h : m.wf = true) (p : Host.Cell → Bool) (ls : List Nat) :
    Memory.wf { m with cells := m.cells.filter p, poison := ls } = true :=
  cellsOk_congr (m := m) (fun _ _ => rfl) (cellsOk_filter h)

/-- A fill that another hides gives nothing to a key that the other does not cover. -/
theorem fillBase_unhidden (f : Fill) (key : Nat) (hk : f.covers key = false) : ∀ fs : List Fill,
    fillBase (fs.filter (fun g => !f.hides g)) key = fillBase fs key
  | [] => rfl
  | g :: r => by
    rw [List.filter_cons]
    split
    · simp only [fillBase, fillBase_unhidden f key hk r]
    · rename_i hh
      have hg : g.covers key = false := by
        simp only [Fill.covers, Fill.hides, Bool.and_eq_false_iff, decide_eq_false_iff_not, Bool.not_eq_true'] at hk hh ⊢
        omega
      simp only [fillBase, hg, fillBase_unhidden f key hk r]
      rfl

/-- What a fill does to what unlisted keys read as. -/
theorem Memory.fill_base (f : Fill) (m : Memory) (key : Nat) : (m.fill f).base key = if f.covers key then f.value key else m.base key := by
  unfold Memory.base Memory.fill
  simp only [fillBase]
  split
  · rfl
  · rename_i hk
    exact fillBase_unhidden f key (by simpa using hk) m.fills

/-- A fill keeps the canonical form. -/
theorem Memory.wf_fill {m : Memory} (h : m.wf = true) (f : Fill) : (m.fill f).wf = true := by
  refine cellsOk_congr (m := m) (fun c hc => ?_) (cellsOk_filter h)
  have : f.covers c.1 = false := by simpa using (List.mem_filter.mp hc).2
  rw [Memory.fill_base, this]
  rfl

/-- Contents that become unspecified keep the canonical form. -/
theorem Memory.wf_unspecify {m : Memory} (h : m.wf = true) (lo hi off : Nat) : (m.unspecify lo hi off).wf = true :=
  Memory.wf_fill (m := { m with epoch := m.epoch + 1 }) (Memory.wf_of_cells (m := m) rfl rfl h) ⟨lo, hi, off, some (m.epoch + 1)⟩

/-- Training a stack keeps the canonical form. -/
theorem Memory.wf_zeroStack {m : Memory} (h : m.wf = true) (k : Nat) : (m.zeroStack k).wf = true := by
  unfold Memory.zeroStack
  apply Memory.wf_fill
  exact Memory.wf_of_cells (m := m) rfl rfl h

/-- Staging operands keeps the canonical form. -/
theorem Memory.wf_stageOrgan {m : Memory} (h : m.wf = true) (g base : Nat) : (m.stageOrgan g base).wf = true := by
  unfold Memory.stageOrgan
  apply Memory.wf_unspecify
  exact Memory.wf_of_cells (m := m) rfl rfl h

/-- A line that reads as poisoned keeps the canonical form. -/
theorem Memory.wf_asPoison {m : Memory} (h : m.wf = true) (l : Nat) (e : Pattern) : (m.asPoison l e).wf = true := by
  unfold Memory.asPoison
  split
  · exact h
  · exact Memory.wf_of_cells (m := m) rfl rfl h

end Sys2Proof.Machine
end

