-- ==== Sys2Proof/Laws/Retire.lean ====
section
/-!
SUPPORT. Retire.lean: when a command acts, and what a retiring instruction leaves.
-/
namespace Sys2Proof.Machine

open Sys2Proof

/-- A command of a unit in service acts. -/
theorem inService_next {s : State} (h : s.serves = true) (f : State → State) : inService s f = .next (f s) := by
  simp only [State.serves, Bool.and_eq_true, Bool.not_eq_true'] at h
  simp [inService, live, h]

/-- A command of the endpoint and the mailboxes acts. -/
theorem live_next {s : State} (h : s.awake = true) (f : State → State) : live s f = .next (f s) := by
  simp only [State.awake, Bool.and_eq_true, Bool.not_eq_true'] at h
  simp [live, h]

theorem State.serves.awake {s : State} (h : s.serves = true) : s.awake = true := by
  simp only [State.serves, State.awake, Bool.and_eq_true] at *
  exact h.1

/-- An instruction of a core that issues acts. -/
theorem onIssue_next {s : State} {c : Fin 192} (h : Issues s c) (f : State → State) : onIssue c s f = .next (f s) := by
  simp [onIssue, inService_next h.1, onlyIf, h.2]

theorem onSco_uncounted (f : Score → Score) (s : State) : (s.onSco f).uncounted = s.uncounted := rfl

theorem pulse_uncounted (u : ScoUnit) (e n : Nat) (s : State) (p : Nat) : (s.pulse u e n p).uncounted = s.uncounted := by
  unfold State.pulse; split <;> rfl

theorem pulseRate_uncounted (u : ScoUnit) (e n cap : Nat) (s : State) : (s.pulseRate u e n cap).uncounted = s.uncounted := by
  unfold State.pulseRate; split <;> rfl

theorem stalled_uncounted (c : Fin 192) (code : Nat) (s : State) : (s.stalled c code).uncounted = s.uncounted := rfl

theorem completion_uncounted (u : ScoUnit) (i d l w : Nat) (s : State) : (s.completion u i d l w).uncounted = s.uncounted := by
  unfold State.completion
  dsimp only
  split
  · rfl
  · split <;> rfl

/-- A change of a core stands beside the counts. -/
theorem onCore_uncounted {s t : State} (h : s.uncounted = t.uncounted) (c : Fin 192) (f : Core → Core) :
    (s.onCore c f).uncounted = (t.onCore c f).uncounted := by
  have hc : s.cores = t.cores := (congrArg State.cores h : s.uncounted.cores = t.uncounted.cores)
  simp only [State.uncounted, State.mk.injEq] at h
  simp only [State.uncounted, State.onCore, hc, State.mk.injEq]
  simp [h]

theorem boundary_goesTo (pc : BitVec 64) (x : Core) : ({ x with pc := pc, faulted := false } : Core).boundary = x.goesTo pc := by
  unfold Core.boundary Core.goesTo
  dsimp only
  split <;> rename_i h
  · simp [h]
  · rw [Bool.not_eq_true] at h
    rw [h, Bool.or_false]

/-- A retiring instruction moves its core on, and the Scorecard counts it. -/
theorem retire_uncounted (c : Fin 192) (pc : BitVec 64) (s : State) (d : Nat) :
    (s.retire c pc d).uncounted = (s.onCore c (Core.goesTo pc)).uncounted := by
  unfold State.retire
  simp only [completion_uncounted, pulseRate_uncounted, onSco_uncounted, boundary_goesTo]

/-- Two changes of one core are one change. -/
theorem onCore_onCore (c : Fin 192) (f g : Core → Core) (s : State) : (s.onCore c f).onCore c g = s.onCore c (fun x => g (f x)) := by
  have hv : vmod (vmod s.cores c f) c g = vmod s.cores c (fun x => g (f x)) := by
    simp [vmod]
  show ({ s with cores := vmod (vmod s.cores c f) c g } : State) = _
  rw [hv]; rfl

/-- The core after a change of it. -/
theorem onCore_core (c : Fin 192) (f : Core → Core) (s : State) : (s.onCore c f).core c = f (s.core c) := by
  simp [State.onCore, State.core, vmod]

/-- Another core is not changed. -/
theorem onCore_core_ne {c e : Fin 192} (h : c ≠ e) (f : Core → Core) (s : State) : (s.onCore c f).core e = s.core e := by
  have : c.val ≠ e.val := fun he => h (Fin.ext he)
  simp [State.onCore, State.core, vmod, this]

theorem setG_pc (n : Fin 32) (v : BitVec 64) (x : Core) : (x.setG n v).pc = x.pc := by
  unfold Core.setG; split <;> rfl

theorem onCore_congr {c : Fin 192} {f g : Core → Core} {s : State} (h : f (s.core c) = g (s.core c)) : s.onCore c f = s.onCore c g := by
  have : vmod s.cores c f = vmod s.cores c g := by
    have h' : f s.cores[c.val] = g s.cores[c.val] := h
    simp [vmod, h']
  show ({ s with cores := vmod s.cores c f } : State) = { s with cores := vmod s.cores c g }
  rw [this]

/-- What `putG` leaves. -/
theorem putG_uncounted (c : Fin 192) (d : Fin 32) (v : BitVec 64) (s : State) :
    (s.putG c d v).uncounted = (s.coreRuns c (Core.setG d v)).uncounted := by
  unfold State.putG State.retire4 State.coreRuns
  rw [retire_uncounted, onCore_onCore, onCore_core]
  exact congrArg State.uncounted (onCore_congr (by simp [setG_pc]))

end Sys2Proof.Machine
end

