-- ==== Sys2Proof/Laws/Store.lean ====
section
/-!
SUPPORT. Store.lean: what a record, a read that decodes and a store do to memory (R117, R242, R243, R391).
-/
namespace Sys2Proof.Machine

open Sys2Proof

/-! ### Folds -/

/-- What every step of a fold keeps, the fold keeps. -/
theorem foldl_keeps {α β : Type} (P : α → Prop) (f : α → β → α) : ∀ (l : List β) (a : α), P a → (∀ a b, P a → P (f a b)) → P (l.foldl f a)
  | [], _, h, _ => h
  | b :: r, a, h, hf => foldl_keeps P f r (f a b) (hf a b h) hf

/-- What no step of a fold changes, the fold does not change. -/
theorem foldl_same {α β γ : Type} (g : α → γ) (f : α → β → α) (hf : ∀ a b, g (f a b) = g a) : ∀ (l : List β) (a : α), g (l.foldl f a) = g a
  | [], _ => rfl
  | b :: r, a => (foldl_same g f hf r (f a b)).trans (hf a b)

/-! ### Records leave memory, cores and the controllers alone (R391, R392) -/

theorem State.raiseIrq_mem (v : Nat) (s : State) : (s.raiseIrq v).mem = s.mem := by
  unfold State.raiseIrq
  split <;> rfl

theorem State.raiseIrq_cores (v : Nat) (s : State) : (s.raiseIrq v).cores = s.cores := by
  unfold State.raiseIrq
  split <;> rfl

theorem State.raiseIrq_hbm (v : Nat) (s : State) : (s.raiseIrq v).hbm = s.hbm := by
  unfold State.raiseIrq
  split <;> rfl

theorem State.record_mem (s : State) (r : ErrRec) : (s.record r).mem = s.mem := by
  unfold State.record
  extract_lets r p t
  split
  · rfl
  · split
    · exact State.raiseIrq_mem 16 t
    · rfl

theorem State.record_cores (s : State) (r : ErrRec) : (s.record r).cores = s.cores := by
  unfold State.record
  extract_lets r p t
  split
  · rfl
  · split
    · exact State.raiseIrq_cores 16 t
    · rfl

theorem State.record_hbm (s : State) (r : ErrRec) : (s.record r).hbm = s.hbm := by
  unfold State.record
  extract_lets r p t
  split
  · rfl
  · split
    · exact State.raiseIrq_hbm 16 t
    · rfl

theorem State.errRecords_mem (b : Block) (u old new : Nat) (s : State) : (s.errRecords b u old new).mem = s.mem :=
  foldl_same State.mem _ (fun s i => by split; rfl; exact State.record_mem ..) _ s

theorem State.errRecords_cores (b : Block) (u old new : Nat) (s : State) : (s.errRecords b u old new).cores = s.cores :=
  foldl_same State.cores _ (fun s i => by split; rfl; exact State.record_cores ..) _ s

theorem State.errRecords_hbm (b : Block) (u old new : Nat) (s : State) : (s.errRecords b u old new).hbm = s.hbm :=
  foldl_same State.hbm _ (fun s i => by split; rfl; exact State.record_hbm ..) _ s

theorem State.memErr_mem (k bits : Nat) (s : State) : (s.memErr k bits).mem = s.mem := State.errRecords_mem ..

theorem State.markFailing_mem (k pch : Nat) (s : State) : (s.markFailing k pch).mem = s.mem := by
  unfold State.markFailing
  split
  · rfl
  · exact State.memErr_mem ..

theorem State.noteCorrected_mem (key : Nat) (s : State) : (s.noteCorrected key).mem = s.mem := by
  unfold State.noteCorrected
  dsimp only
  split
  · rw [State.markFailing_mem, State.record_mem]; rfl
  · rw [State.record_mem]; rfl

theorem State.noteUncorrectable_mem (key : Nat) (s : State) : (s.noteUncorrectable key).mem = s.mem := by
  unfold State.noteUncorrectable
  dsimp only
  split
  · rw [State.markFailing_mem, State.record_mem]; rfl
  · rw [State.record_mem]; rfl

/-! ### Reads that decode (R242) -/

theorem State.decodeLine_wf (line : Nat) (s : State) (h : s.mem.wf = true) : (s.decodeLine line).mem.wf = true := by
  unfold State.decodeLine
  split
  · exact h
  · rename_i e _
    generalize decodePattern (s.mem.isPoison line) e = r
    have fixed : ∀ p, ((s.mem.applyPattern line p).calm line).wf = true := fun p => Memory.wf_calm (Memory.wf_applyPattern h _ p) _
    cases r with
    | clean p => exact Memory.wf_cleanLine (fixed p) _
    | poisoned p => exact Memory.wf_asPoison h line e
    | corrected p => exact (State.noteCorrected_mem _ _).symm ▸ Memory.wf_cleanLine (fixed p) _
    | uncorrectable p => exact (State.noteUncorrectable_mem _ _).symm ▸ Memory.wf_poisonLine (fixed p) _

/-- A read of an extent keeps the canonical form. -/
theorem State.settle_wf (a n : Nat) (s : State) (h : s.mem.wf = true) : (s.settle a n).mem.wf = true := by
  unfold State.settle
  split
  · exact h
  · exact foldl_keeps (fun s : State => s.mem.wf = true) _ _ _ h (fun s l hs => State.decodeLine_wf _ s hs)

/-- With no symbol error standing in memory, a read changes nothing. -/
theorem State.settle_calm (a n : Nat) (s : State) (h : s.mem.upset = []) : s.settle a n = s := by
  unfold State.settle
  rw [h]
  rfl

/-! ### Stores (R234, R243, R374) -/

theorem State.freshLines_wf (a n : Nat) (s : State) (h : s.mem.wf = true) : (s.freshLines a n).mem.wf = true := by
  unfold State.freshLines
  split
  · exact h
  · refine foldl_keeps (fun s : State => s.mem.wf = true) _ _ _ h (fun s l hs => ?_)
    dsimp only
    split
    · exact Memory.wf_cleanLine (Memory.wf_calm hs _) _
    · exact State.decodeLine_wf _ s hs

theorem State.pdcDrop_mem (a n : Nat) (s : State) : (s.pdcDrop a n).mem = s.mem := by
  unfold State.pdcDrop
  split <;> rfl

/-- A store keeps the canonical form. -/
theorem State.writeMem_wf (a : Nat) (bs : List Byte) (s : State) (h : s.mem.wf = true) : (s.writeMem a bs).mem.wf = true := by
  unfold State.writeMem
  rw [State.pdcDrop_mem]
  exact Memory.wf_putAll _ (State.freshLines_wf a bs.length s h)

theorem State.pdcFill_mem (k : Store) (a n : Nat) (s : State) : (s.pdcFill k a n).mem = s.mem := by
  unfold State.pdcFill
  split <;> rfl

/-- With neither poison nor symbol errors in memory, a store is its bytes, and the cached copies of their lines go. -/
theorem State.writeMem_plain (a : Nat) (bs : List Byte) (s : State) (hp : s.mem.noPoison = true) (hu : s.mem.upset = []) :
    s.writeMem a bs = (s.onMem (fun m => m.putAll (s.storeCells a bs))).pdcDrop a bs.length := by
  have : s.freshLines a bs.length = s := by
    unfold State.freshLines
    rw [hp, hu]
    rfl
  unfold State.writeMem
  simp only [this]

/-- A byte outside a store reads as before, where neither poison nor symbol errors stand in memory. -/
theorem State.writeMem_get_other (a : Nat) (bs : List Byte) (s : State) (q : Nat) (h : s.mem.wf = true) (hp : s.mem.noPoison = true)
    (hu : s.mem.upset = []) (hq : ∀ i, i < bs.length → s.keyOf (a + i) ≠ q) : (s.writeMem a bs).mem.get q = s.mem.get q := by
  rw [State.writeMem_plain a bs s hp hu, State.pdcDrop_mem]
  refine Memory.get_putAll_other _ q h (fun kb hkb => ?_)
  unfold State.storeCells at hkb
  obtain ⟨ib, hib, rfl⟩ := List.mem_map.mp (List.mem_filter.mp hkb).1
  have := (List.of_mem_zip hib).1
  exact hq _ (by simpa [upTo] using this)

/-- A settle of several extents keeps the canonical form. -/
theorem State.settles_wf (xs : List (Nat × Nat)) (s : State) (h : s.mem.wf = true) :
    (xs.foldl (fun s x => s.settle x.1 x.2) s).mem.wf = true :=
  foldl_keeps (fun s : State => s.mem.wf = true) _ _ _ h (fun s _ hs => State.settle_wf _ _ s hs)

/-! ### The geometry of the windows (R238) -/

/-- A change of geometry keeps the canonical form. -/
theorem State.newGeometry_wf (s : State) (h : s.mem.wf = true) : (s.newGeometry).mem.wf = true := Memory.wf_unspecify h _ _ _

/-! ### Pips (R333, R334) -/

theorem State.raisePip_mem (suit pip : Nat) (s : State) : (s.raisePip suit pip).mem = s.mem := rfl

theorem State.lowerPip_mem (suit pip : Nat) (s : State) : (s.lowerPip suit pip).mem = s.mem := by
  unfold State.lowerPip
  dsimp only
  split <;> rfl

end Sys2Proof.Machine
end

