-- ==== Sys2Proof/WellFormed.lean ====
section
/-!
DEFINITION. WellFormed.lean: the commands that the package can be given: an instance that its kind has, a packet in the layout of its kind
(R260, R285, R309-R313). A command that is not well formed is no command of the spec; its meaning is total all the same.
-/
namespace Sys2Proof

open Sys2Proof.Machine

/-! ### Instances -/

/-- An engine's instance number (R11, R479). -/
def engIn (k : EngKind) (i : Fin 64) : Bool := decide (i.val < k.count)

/-- The owner of a ring. -/
def ownerIn : RingOwner → Bool
  | .eng k i => engIn k i
  | .trick => true

/-- An action with a release. -/
def actionIn : ActionRef → Bool
  | .eng k i => engIn k i
  | .trick | .decant => true

/-- R369, R390: instances of the units that a block's code names. -/
def Machine.Block.instances : Block → Nat
  | .tbl | .atm => 64
  | .sol | .cmp | .shf | .mem => 16
  | .dlr => 192
  | _ => 0

/-- A unit of a block. -/
def unitIn (b : Block) (i : Fin 192) : Bool := decide (i.val < b.instances)

/-- The scopes that R370 gives. -/
def scopeIn : Scope → Bool
  | .core b i => unitIn b i
  | .suit _ | .deck _ | .package => true

/-! ### Packets (R285, R309) -/

/-- Is there no header of a kind of its own? -/
def Machine.Packet.plain (p : Packet) : Bool := p.kh == .none

/-- A request that carries no payload, with nothing to read. -/
def Machine.Packet.isBare (kind : Nat) (p : Packet) : Bool := p.hdr.kind.toNat == kind && p.plain && p.data.isEmpty && p.hdr.len == 0

/-- A LOAD: LEN bytes to read, no payload and no tag. -/
def Machine.Packet.isRead (kind : Nat) (p : Packet) : Bool :=
  p.hdr.kind.toNat == kind && p.plain && p.data.isEmpty && p.hdr.tag == 0 && decide (1 ≤ p.hdr.len.toNat) && decide (p.hdr.len.toNat ≤ 256)

/-- A write: LEN bytes of payload. -/
def Machine.Packet.isWrite (kind : Nat) (p : Packet) : Bool :=
  p.hdr.kind.toNat == kind && p.plain && p.hdr.len.toNat == p.data.length && decide (p.data.length ≤ 256)

/-- A response with LEN bytes of data. -/
def Machine.Packet.isReply (kind : Nat) (p : Packet) : Bool := p.isWrite kind

/-- A packet with a hand header. -/
def Machine.Packet.isHand (kind : Nat) (p : Packet) : Bool := p.hdr.kind.toNat == kind && (match p.kh with
  | .hand h => decide (h.slots.length ≤ 16)
  | _ => false)

/-- A packet with a rank header. -/
def Machine.Packet.isRanked (kind : Nat) (p : Packet) : Bool := p.hdr.kind.toNat == kind && (match p.kh with
  | .rank _ => true
  | _ => false)

/-- A Trick frame. -/
def Machine.Packet.isTrick (frame : Nat) (p : Packet) : Bool := p.hdr.kind.toNat == 0x18 && (match p.kh with
  | .trick h => h.frame.toNat == frame && decide (1 ≤ h.level.toNat) && decide (h.level.toNat ≤ 3) && decide (h.deck.toNat ≤ 3)
  | _ => false)

/-- A service frame with its 48-byte record. -/
def Machine.Packet.isService (kind : Nat) (p : Packet) : Bool := p.hdr.kind.toNat == kind && p.plain && p.data.length == 48

/-- Is a command well formed? -/
def Instr.wf (c : Instr) : Bool :=
  match c with
  | .marker _ _ _ => true
  | .sourceInvalid _ => true
  | .acquireTimeout => true
  | .cadenceIntervalTick => true
  | .forcedFreeRun => true
  | .alignmentHandshake _ => true
  | .cadCtrlWrite _ => true
  | .actionRelease ref => actionIn ref
  | .registerWrite _ _ _ => true
  | .submit _ _ _ => true
  | .tblAccept _ => true
  | .atmAccept _ => true
  | .solAccept _ => true
  | .shfAccept _ => true
  | .descriptorHead k i => engIn k i
  | .pipWaitSatisfied k i => engIn k i
  | .chunkConsume _ => true
  | .tblTileOutput _ => true
  | .tblCommit _ => true
  | .pipTimeout k i => engIn k i
  | .cqHeadWrite o _ => ownerIn o
  | .ctrlRunWrite o _ => ownerIn o
  | .organSplitWrite _ _ => true
  | .atmTileInvocation _ => true
  | .atmCommit _ => true
  | .compounderLaneGroup _ => true
  | .solFactorise _ _ => true
  | .solRefine _ _ => true
  | .solProblemCommit _ => true
  | .shfCommit _ => true
  | .shfStateWrite _ _ _ => true
  | .shfJaBaseWrite _ _ => true
  | .add _ _ _ _ => true
  | .sub _ _ _ _ => true
  | .and _ _ _ _ => true
  | .or _ _ _ _ => true
  | .xor _ _ _ _ => true
  | .sll _ _ _ _ => true
  | .srl _ _ _ _ => true
  | .sra _ _ _ _ => true
  | .mul _ _ _ _ => true
  | .mulhs _ _ _ _ => true
  | .mulhu _ _ _ _ => true
  | .div _ _ _ _ => true
  | .divu _ _ _ _ => true
  | .rem _ _ _ _ => true
  | .remu _ _ _ _ => true
  | .slt _ _ _ _ => true
  | .sltu _ _ _ _ => true
  | .addi _ _ _ _ => true
  | .andi _ _ _ _ => true
  | .ori _ _ _ _ => true
  | .xori _ _ _ _ => true
  | .slti _ _ _ _ => true
  | .slli _ _ _ _ => true
  | .srli _ _ _ _ => true
  | .srai _ _ _ _ => true
  | .lui _ _ _ => true
  | .ld64 _ _ _ _ => true
  | .ld32 _ _ _ _ => true
  | .ld16 _ _ _ _ => true
  | .ld8 _ _ _ _ => true
  | .ld32u _ _ _ _ => true
  | .ld16u _ _ _ _ => true
  | .ld8u _ _ _ _ => true
  | .st64 _ _ _ _ => true
  | .st32 _ _ _ _ => true
  | .st16 _ _ _ _ => true
  | .st8 _ _ _ _ => true
  | .fld _ _ _ _ => true
  | .fst _ _ _ _ => true
  | .fld32 _ _ _ _ => true
  | .fst32 _ _ _ _ => true
  | .beq _ _ _ _ => true
  | .bne _ _ _ _ => true
  | .blt _ _ _ _ => true
  | .bge _ _ _ _ => true
  | .bltu _ _ _ _ => true
  | .bgeu _ _ _ _ => true
  | .jmp _ _ => true
  | .jal _ _ => true
  | .jr _ _ => true
  | .jalr _ _ => true
  | .fadd _ _ _ _ _ => true
  | .fsub _ _ _ _ _ => true
  | .fmul _ _ _ _ _ => true
  | .ffma _ _ _ _ _ => true
  | .fdiv _ _ _ _ _ => true
  | .fsqrt _ _ _ _ => true
  | .fmin _ _ _ _ _ => true
  | .fmax _ _ _ _ _ => true
  | .feq _ _ _ _ _ => true
  | .flt _ _ _ _ _ => true
  | .fle _ _ _ _ _ => true
  | .fcvt _ _ _ _ _ => true
  | .ftoi _ _ _ _ => true
  | .itof _ _ _ _ => true
  | .fmvg _ _ _ _ => true
  | .fmvf _ _ _ _ => true
  | .fence _ _ _ => true
  | .fenceComplete _ => true
  | .rdcyc _ _ => true
  | .rdcad _ _ => true
  | .rdacr _ _ => true
  | .wracr _ _ => true
  | .rdflags _ _ => true
  | .wrflags _ _ => true
  | .trapret _ => true
  | .brk _ => true
  | .wrtvec _ _ => true
  | .setvl _ _ _ _ _ => true
  | .vadd _ _ _ _ _ => true
  | .vsub _ _ _ _ _ => true
  | .vmul _ _ _ _ _ => true
  | .vfma _ _ _ _ _ => true
  | .vdiv _ _ _ _ _ => true
  | .vsqrt _ _ _ _ => true
  | .vmin _ _ _ _ _ => true
  | .vmax _ _ _ _ _ => true
  | .vand _ _ _ _ _ => true
  | .vor _ _ _ _ _ => true
  | .vxor _ _ _ _ _ => true
  | .vsll _ _ _ _ _ => true
  | .vsrl _ _ _ _ _ => true
  | .vsra _ _ _ _ _ => true
  | .vcmpeq _ _ _ _ _ => true
  | .vcmplt _ _ _ _ _ => true
  | .vcmple _ _ _ _ _ => true
  | .vsel _ _ _ _ _ => true
  | .vsplat _ _ _ _ => true
  | .vmv _ _ _ _ => true
  | .vcvt _ _ _ _ _ => true
  | .vsad _ _ _ _ _ => true
  | .vsada _ _ _ _ _ => true
  | .vredsum _ _ _ _ _ => true
  | .vredmax _ _ _ _ _ => true
  | .vld _ _ _ _ => true
  | .vst _ _ _ _ => true
  | .vlds _ _ _ _ _ => true
  | .vsts _ _ _ _ _ => true
  | .gather _ _ _ _ _ _ _ => true
  | .gatherff _ _ _ _ _ _ _ => true
  | .scatter _ _ _ _ _ _ _ => true
  | .atom _ _ _ _ => true
  | .rput _ _ _ _ => true
  | .rget _ _ _ _ => true
  | .inval _ _ _ => true
  | .invalSend _ _ _ _ => true
  | .hand _ _ _ => true
  | .msend _ _ _ => true
  | .dlrCtrlWrite _ _ => true
  | .safepointHalt _ => true
  | .ctxSave _ => true
  | .ctxRestore _ => true
  | .pipRaise _ _ => true
  | .pipLower _ _ => true
  | .iadd _ => true
  | .smin _ => true
  | .smax _ => true
  | .umin _ => true
  | .umax _ => true
  | .msideFmin _ => true
  | .msideFmax _ => true
  | .plainFadd _ => true
  | .aadd _ => true
  | .aclear _ => true
  | .aread _ => true
  | .recipe _ => true
  | .swap _ => true
  | .cas _ => true
  | .aregDeclare _ _ => true
  | .memCtrlWrite _ _ => true
  | .memRetrain _ _ => true
  | .channelRetrain _ _ _ => true
  | .channelRetrainDone _ _ _ _ => true
  | .patrolScrub _ _ r => decide (r.noise.length ≤ 36)
  | .flitReceive _ f => f.bytes.length == 256
  | .wavelengthFailing _ _ => true
  | .wavelengthSpared _ => true
  | .load p => p.isRead 0x01
  | .store p => p.isWrite 0x02
  | .rputPacket p => p.isWrite 0x03
  | .atomPacket p => p.isWrite 0x04
  | .invalPacket p => p.isBare 0x05
  | .confirm p => p.isBare 0x06
  | .data _ p => p.isReply 0x81
  | .ack p => p.hdr.kind.toNat == 0x82
  | .retryTimeout _ => true
  | .replayEntryExpiry _ _ => true
  | .fabRetryWrite _ => true
  | .fabCtrlWrite _ => true
  | .portRoleWrite _ _ => true
  | .hstage p => p.isHand 0x08
  | .hvote p => p.isHand 0x09
  | .hshow p => p.isHand 0x0A
  | .hfold p => p.isHand 0x0B
  | .hfoldReq p => p.isHand 0x0C
  | .hquery p => p.isHand 0x0D
  | .msg p => p.isRanked 0x10 && decide (1 ≤ p.data.length) && decide (p.data.length ≤ 65536)
  | .heartbeat p => p.isService 0x20
  | .heartbeatMiss _ => true
  | .hello p => p.isService 0x21
  | .fenced p => p.isService 0x22
  | .suspect p => p.isRanked 0x23 && p.data.length == 16
  | .witnessEntryFree _ _ => true
  | .attestReq p => p.isRanked 0x24 && p.data.length == 32
  | .attestRsp p => p.isRanked 0x25
  | .mbxReq p => p.isRanked 0x26 && p.data.length == 4096
  | .mbxRsp p => p.isRanked 0x27 && p.data.length == 4096
  | .mbxEvent p => p.isRanked 0x28 && p.data.length == 64
  | .discoveryEpoch => true
  | .rankUpdateRelease => true
  | .rxqWrite _ _ _ => true
  | .trickLaunch _ _ => true
  | .trickLaunchHead => true
  | .trkChunk p => p.isTrick 0
  | .trkCredit p => p.isTrick 1
  | .trkMaxima p => p.isTrick 2
  | .trkReady p => p.isTrick 3
  | .trkAbort p => p.isTrick 4
  | .trkResend p => p.isTrick 5
  | .rankSilent _ _ _ => true
  | .detour _ _ _ => true
  | .decantLaunch _ _ => true
  | .decantCheck => true
  | .decantComplete => true
  | .dryDownStart => true
  | .dryDownCd => true
  | .ckpCtrlWrite _ => true
  | .restoreCopy => true
  | .restoreCopyDone => true
  | .arithReplay b u => unitIn b u.idx
  | .sramError _ _ => true
  | .dlinkLaneRepair _ => true
  | .dlinkLaneRepairDone _ => true
  | .lockstep => true
  | .fltFenceWrite => true
  | .witnessEnWrite _ => true
  | .partialReset sc _ => scopeIn sc
  | .resetQuiesceDone sc => scopeIn sc
  | .resetReentry r => scopeIn r.scope
  | .returnToService sc _ => scopeIn sc
  | .packageReset => true
  | .supplyRamp _ => true
  | .undervoltage => true
  | .rstNAssert => true
  | .rstNRelease _ => true
  | .perstN => true
  | .firmwareVerified _ => true
  | .hbmTrainingDone _ _ _ => true
  | .portTrainingDone _ _ _ => true
  | .knownAnswerRun _ _ => true
  | .blockDetach _ => true
  | .blockReattach _ => true
  | .thermalSample _ _ _ _ => true
  | .throttleUpdate _ _ _ _ _ => true
  | .dutySlot => true
  | .mailboxHandoff _ _ _ => true
  | .mailboxPoll => true
  | .inventoryRead _ => true
  | .inventoryClear _ => true
  | .configRead _ => true
  | .configWrite _ => true
  | .jobAttach _ => true
  | .attachStart => true
  | .jobDetach _ => true
  | .rankUpdate _ => true
  | .formulaLoad _ => true
  | .atomizerProgramLoad _ => true
  | .trickProgramLoad _ => true
  | .recipeLoad _ => true
  | .regAccess _ => true
  | .logRead _ => true
  | .ckpDrydown _ => true
  | .ckpStatement _ => true
  | .ckpSeal _ => true
  | .ckpStage _ => true
  | .ckpCommit _ => true
  | .ckpShardRead _ => true
  | .attest _ => true
  | .certRead _ => true
  | .fwStage _ => true
  | .fwActivate _ => true
  | .fwConfirm _ => true
  | .bootLoad _ => true
  | .scopedReset _ => true
  | .debugUnlockChallenge _ => true
  | .debugUnlockToken _ => true
  | .smbusBlockRead _ => true
  | .bypass => true
  | .idcode => true
  | .samplePreload _ _ => true
  | .extest _ => true
  | .scoCtlWrite _ _ _ => true
  | .scoCntWrite _ _ _ => true
  | .scoSampleWrite _ _ => true
  | .vinLow _ => true

end Sys2Proof
end

