-- ==== Sys2Proof/Tests/Slice0.lean ====
section
/-!
SUPPORT. Slice0.lean: tests: an ill-formed command for each check, the spec's worked examples, one-step checks by hand, and for each statement a
state and operands that meet its hypotheses.
-/
namespace Sys2Proof.Tests

open Sys2Proof Sys2Proof.Machine

set_option Elab.async false

/-! ### Small states -/

/-- A package that has been brought up, with nothing attached. -/
def live : State := { State.reset with boot := { Boot.reset with supply := true, pwrOk := true, rstN := true, stage := 9, ready := true } }

/-- Core 5 runs, at PC 64. -/
def running (f : Core → Core) : State := live.onCore 5 (fun x => f { x with halted := false, runBit := true, pc := 64 })

/-- G1 and G2 of the running core. -/
def regs (a b : BitVec 64) : State := running (fun x => (x.setG 1 a).setG 2 b)

/-- The state that a command leaves. -/
def after (c : Instr) (s : State) : State := match exec c s with
  | .next t => t
  | _ => State.reset

/-- The running core after an instruction. -/
def core5 (c : Instr) (s : State) : Core := (after c s).core 5

/-- The first byte of a Suit buffer (R475). -/
def suit0 : Nat := 0x0100_0000_0000

/-- Bytes at the start of Suit buffer 0. -/
def holding (bs : List Byte) (s : State) : State := s.writeMem suit0 bs

/-- A bare packet of a kind. -/
def packet (kind : BitVec 8) (data : List Byte) (kh : KindHdr) : Packet :=
  { hdr := { kind := kind, len := BitVec.ofNat 16 data.length, incarnation := 0 }, data := data, kh := kh }

/-! ### A command that is not well formed, for each check -/

theorem test_wf_action : Instr.wf (.actionRelease (.eng .sol 16)) = false := by decide
theorem test_wf_head : Instr.wf (.descriptorHead .shf 16) = false := by decide
theorem test_wf_wait : Instr.wf (.pipWaitSatisfied .sol 63) = false := by decide
theorem test_wf_timeout : Instr.wf (.pipTimeout .sol 16) = false := by decide
theorem test_wf_ring : Instr.wf (.cqHeadWrite (.eng .shf 20) 0) = false := by decide
theorem test_wf_run : Instr.wf (.ctrlRunWrite (.eng .sol 16) 0) = false := by decide
theorem test_wf_noise (ns : List (Fin 36 × BitVec 16)) (h : 36 < ns.length) : Instr.wf (.patrolScrub 0 0 ⟨ns, false⟩) = false := by
  show decide (ns.length ≤ 36) = false
  exact decide_eq_false (by omega)
theorem test_wf_noise_witness : 36 < (List.replicate 37 ((0, 1) : Fin 36 × BitVec 16)).length := by simp
theorem test_wf_flit : Instr.wf (.flitReceive 0 ⟨List.replicate 255 0, []⟩) = false := by decide +kernel
theorem test_wf_load_kind : Instr.wf (.load { packet 2 [] .none with hdr := { kind := 2, len := 8 } }) = false := by decide
theorem test_wf_load_len : Instr.wf (.load { packet 1 [] .none with hdr := { kind := 1, len := 257 } }) = false := by decide +kernel
theorem test_wf_store_len : Instr.wf (.store { packet 2 [1, 2] .none with hdr := { kind := 2, len := 3 } }) = false := by decide +kernel
theorem test_wf_rput_kind : Instr.wf (.rputPacket (packet 2 [1] .none)) = false := by decide
theorem test_wf_atom_header : Instr.wf (.atomPacket (packet 4 [1] (.hand { hand := 0, issuer := 0 }))) = false := by decide
theorem test_wf_inval_payload : Instr.wf (.invalPacket (packet 5 [1] .none)) = false := by decide
theorem test_wf_confirm_kind : Instr.wf (.confirm (packet 5 [] .none)) = false := by decide
theorem test_wf_data_kind : Instr.wf (.data 0 (packet 0x82 [] .none)) = false := by decide
theorem test_wf_ack_kind : Instr.wf (.ack (packet 0x81 [] .none)) = false := by decide
theorem test_wf_hand_header : Instr.wf (.hstage (packet 8 [] .none)) = false := by decide
theorem test_wf_hand_slots : Instr.wf (.hvote (packet 9 [] (.hand { hand := 0, issuer := 0, slots := List.replicate 17 0 }))) = false := by decide
theorem test_wf_trick_frame : Instr.wf (.trkChunk (packet 0x18 [] (.trick { srcRank := 0, inst := 0, progSlot := 0, frame := 1, level := 1, deck := 0, step := 0, count := 0, index := 0 }))) = false := by decide
theorem test_wf_trick_level : Instr.wf (.trkChunk (packet 0x18 [] (.trick { srcRank := 0, inst := 0, progSlot := 0, frame := 0, level := 4, deck := 0, step := 0, count := 0, index := 0 }))) = false := by decide
theorem test_wf_trick_deck : Instr.wf (.trkChunk (packet 0x18 [] (.trick { srcRank := 0, inst := 0, progSlot := 0, frame := 0, level := 1, deck := 4, step := 0, count := 0, index := 0 }))) = false := by decide
theorem test_wf_service : Instr.wf (.heartbeat (packet 0x20 [1] .none)) = false := by decide +kernel
theorem test_wf_msg_header : Instr.wf (.msg (packet 0x10 [1] .none)) = false := by decide
theorem test_wf_suspect : Instr.wf (.suspect (packet 0x23 [1] .none)) = false := by decide +kernel
theorem test_wf_unit : Instr.wf (.arithReplay .sol ⟨16, false⟩) = false := by decide
theorem test_wf_scope : Instr.wf (.partialReset (.core .shf 16) false) = false := by decide
theorem test_wf_good : Instr.wf (.store (packet 2 [1, 2] .none)) = true := by decide

/-! ### The spec's worked examples -/

/-- R236, R239: the load from 0x0060_0123_4500 lies in stack 9, channel 19, pseudo-channel 1, at 0x1_2300; its twin is L higher. -/
theorem test_hbm_place : live.hbmKey 0x0060_0123_4500 = pchKey (64 * 9 + 2 * 19 + 1) 0x1_2300 := by decide +kernel
theorem test_hbm_address : live.hbmAddr (pchKey (64 * 9 + 2 * 19 + 1) 0x1_2300) = 0x0060_0123_4500 := by decide +kernel
theorem test_twin : live.twinKey (live.hbmKey 0x0060_0123_4500) = some (pchKey (64 * 9 + 2 * 19 + 1) (0x1_2300 + 0x3000_0000)) := by decide +kernel

/-- R478, R479 and the map's example: engine 22 and its neighbours. -/
theorem test_map_status : regAddr 0x0F00_0001_6088 = some (.eng .tbl, .inst 22, 0x088) := by decide +kernel
theorem test_map_group : regAddr 0x0F00_0004_00F8 = some (.eng .tbl, .group, 0x0F8) := by decide +kernel
theorem test_map_organ : live.storeOf 0x0102_02D0_0000 = some (0x0102_02C0_0000, 0x0102_02E0_0000, .organ 22) := by decide +kernel
theorem test_map_tile : live.storeOf 0x0104_000B_0CA0 = some (0x0104_000B_0000, 0x0104_000B_8000, .tile 22) := by decide +kernel
theorem test_map_remote : raSlot 0x8C00_0100_0A00_0040 = 12 ∧ raLaddr 0x8C00_0100_0A00_0040 = 0x0100_0A00_0040 ∧ raNc 0x8C00_0100_0A00_0040 = false := by decide +kernel

/-- R48, R53 and their example: 2⁶⁰, 1, −2⁶⁰ and 2⁻¹⁰⁰ sum to 1.0 in either order, inexact, with no window loss. -/
def fourTerms : List FVal := [.fin false 1 60, .fin false 1 0, .fin true 1 60, .fin false 1 (-100)]
theorem test_anchored_first : (ASum.terms winTrick64 61 {} fourTerms).s = 2 ^ 131 + 2 ^ 31 := by decide +kernel
theorem test_anchored_second : ASum.terms winTrick64 61 {} [.fin true 1 60, .fin false 1 (-100), .fin false 1 60, .fin false 1 0] =
    ASum.terms winTrick64 61 {} fourTerms := by decide +kernel
theorem test_anchored_rounds : Fmt.encode .b64 .rne false ((ASum.terms winTrick64 61 {} fourTerms).value winTrick64 61) =
    (0x3FF0_0000_0000_0000, { inexact := true }) := by decide +kernel
theorem test_window_loss : (ASum.terms winTrick32 41 {} [.fin false 3 (-60), .fin false 5 (-56)]).s = 2 ∧
    (ASum.terms winTrick32 41 {} [.fin false 3 (-60), .fin false 5 (-56)]).wl = true := by decide +kernel

/-- R76, R77 and their example: 13.7, −0.3, 2.2 and 0.07 as binary32 into MXFP4. -/
theorem test_mxfp4 :
    let b := encodeMxBlock .mxE2m1 (fun _ => .rne) ([0x415B3333, 0xBE99999A, 0x400CCCCD, 0x3D8F5C29].map (fun x => (Fmt.decode .b32 false x).1) ++ List.replicate 28 .zero)
    b.scale = 0x80 ∧ (packBlock .mxE2m1 b.codes).take 3 = [0x87, 0x02, 0] ∧ b.flags = { resultOvf := true, inexact := true } := by decide +kernel

/-- R80, R81 and their example: −0.3 under σ = 1. -/
theorem test_fix36 : fix36Container (toFix36 1 (Fmt.decode .b64 false 0xBFD3_3333_3333_3333).1).1 = 0xFFFF_FFFE_CCCC_CCCD := by decide +kernel

/-- R130 and the FP64 example: the exact products −6 + 95·2⁻⁵⁰ + 2⁻⁹⁶ and 6. -/
theorem test_fp64_cancellation :
    Fmt.encode .b64 .rne false ((ASum.terms win192 4 {} [.fin true (3 * 2 ^ 104 - 3040 * 2 ^ 48 - 128) (-103), .fin false 6 0]).value win192 4) =
      (0x3D37_C000_0000_0001, {}) := by decide +kernel

/-- R327: one limb's residues. -/
theorem test_residue : residue 0xFFFF_FFFF_FFFF_FFFF = 0 ∧ residue 2 = 2 := by decide +kernel

/-- R223 and its example. -/
def sadState : State := running (fun x => { x with
  vl := 16, vtype := 0
  v := (x.v.set 1 (BitVec.ofNat 128 (leNat [10, 200, 3, 7, 0, 255, 128, 64, 1, 2, 3, 4, 5, 6, 7, 8]))).set 2
    (BitVec.ofNat 128 (leNat [12, 100, 3, 9, 255, 0, 127, 70, 8, 7, 6, 5, 4, 3, 2, 1])) })
theorem test_vsad : (core5 (.vsad 5 3 1 2 0) sadState).v[3] = BitVec.ofNat 128 (0x20 * 2 ^ 64 + 0x26D) := by decide +kernel
theorem test_vsada : (core5 (.vsada 5 3 1 2 0) (sadState.onCore 5 (fun x => { x with vl := 12, v := x.v.set 3 (BitVec.ofNat 128 (0x20 * 2 ^ 64 + 0x26D)) }))).v[3] =
    BitVec.ofNat 128 (48 * 2 ^ 64 + 1242) := by decide +kernel

/-- R253, R254 and their example: 1.5 and −0.25 into a cell under A = 13, read back as 1.25. -/
def cellState : State := live.onHbm (fun h => { h with areg := h.areg.set 5 ⟨0x2000_0000, 0x1_0000, 13, false, false, true⟩ })
def addCell (bits : Nat) : MsReq := ⟨9, 0x03, 0x2000_9400, 1, false, 0, leBytes 2 bits, false⟩
def twoAdds : State := after (.aadd (.given (addCell 0xBE80))) (after (.aadd (.given (addCell 0x3FC0))) cellState)
theorem test_cell_one : leNat ((after (.aadd (.given (addCell 0x3FC0))) cellState).readMem 0x2000_9400 16) = 3 * 2 ^ 90 := by decide +kernel
theorem test_cell_two : leNat (twoAdds.readMem 0x2000_9400 16) = 5 * 2 ^ 89 := by decide +kernel
theorem test_cell_read : (twoAdds.applyMs ⟨11, 0x01, 0x2000_9400, 1, true, 0, [], false⟩).2.fetched = leBytes 4 0x3FA0_0000 := by decide +kernel

/-- R250 and the ATOM example: 41 becomes 42, and 41 is returned. -/
def fortyOne : State := live.writeMem 0x0410_0000 (leBytes 8 41)
def oneMore : MsReq := ⟨1, 0x12, 0x0410_0000, 1, true, 0, leBytes 8 1, false⟩
theorem test_iadd : ((after (.iadd (.given oneMore)) fortyOne).readMem 0x0410_0000 8) = leBytes 8 42 := by decide +kernel
theorem test_iadd_fetch : (fortyOne.applyMs oneMore).2.fetched = leBytes 8 41 := by decide +kernel

/-- The map's example: a store of 0x104 to the RAISE word of Suit 5 raises pip 0x104. -/
theorem test_raise : (after (.st64 5 2 1 0) (regs 0x0105_0000_5000 0x104)).pipUp 5 0x104 = true := by decide +kernel

/-! ### Dealer cores: checks by hand, and states that meet the hypotheses -/

theorem test_issues : Issues (regs 3 4) 5 := ⟨by decide +kernel, by decide +kernel⟩

theorem test_add_wraps : (core5 (.add 5 3 1 2) (regs (-1) 1)).gr 3 = 0 := by decide +kernel
theorem test_add_moves_on : (core5 (.add 5 3 1 2) (regs (-1) 1)).pc = 68 := by decide +kernel
theorem test_g0_stays : (core5 (.add 5 0 1 2) (regs 3 4)).gr 0 = 0 := by decide +kernel
theorem test_sub_same_register : (core5 (.sub 5 1 1 2) (regs 3 4)).gr 1 = -1 := by decide +kernel
theorem test_mulhs_signs : (core5 (.mulhs 5 3 1 2) (regs (-1) 1)).gr 3 = -1 := by decide +kernel
theorem test_mulhu_top : (core5 (.mulhu 5 3 1 2) (regs (-1) (-1))).gr 3 = -2 := by decide +kernel
theorem test_div_zero : (core5 (.div 5 3 1 2) (regs 7 0)).gr 3 = -1 := by decide +kernel
theorem test_rem_zero : (core5 (.rem 5 3 1 2) (regs 7 0)).gr 3 = 7 := by decide +kernel
theorem test_sra_sign : (core5 (.sra 5 3 1 2) (regs (-8) 63)).gr 3 = -1 := by decide +kernel
theorem test_srl_zero : (core5 (.srl 5 3 1 2) (regs (-8) 63)).gr 3 = 1 := by decide +kernel
theorem test_slt_signed : (core5 (.slt 5 3 1 2) (regs (-1) 0)).gr 3 = 1 := by decide +kernel
theorem test_sltu_unsigned : (core5 (.sltu 5 3 1 2) (regs (-1) 0)).gr 3 = 0 := by decide +kernel
theorem test_addi_negative : (core5 (.addi 5 3 1 0xFFFF) (regs 3 0)).gr 3 = 2 := by decide +kernel
theorem test_lui_sign : (core5 (.lui 5 3 0x8000) (regs 0 0)).gr 3 = 0xFFFF_FFFF_8000_0000 := by decide +kernel
theorem test_branch_back : (core5 (.bne 5 1 2 0xFFFF) (regs 3 4)).pc = 60 := by decide +kernel
theorem test_branch_not_taken : (core5 (.beq 5 1 2 0xFFFF) (regs 3 4)).pc = 68 := by decide +kernel
theorem test_jal_links : (core5 (.jal 5 2) (regs 3 4)).gr 31 = 68 ∧ (core5 (.jal 5 2) (regs 3 4)).pc = 72 := by decide +kernel
theorem test_jr : (core5 (.jr 5 1) (regs 0x100 4)).pc = 0x100 := by decide +kernel

/-- Traps (R218): with and without a handler. -/
def handler : State := running (fun x => { x.setG 1 (BitVec.ofNat 64 (suit0 + 1)) with tvec := 0x200 })
theorem test_trap_handler : (core5 (.brk 5) handler).pc = 0x200 ∧ (core5 (.brk 5) handler).epc = 64 ∧ (core5 (.brk 5) handler).cause = 7 := by decide +kernel
theorem test_trap_halts : (core5 (.brk 5) (regs 0 0)).halted = true ∧ (core5 (.brk 5) (regs 0 0)).pc = 64 ∧ (core5 (.brk 5) (regs 0 0)).err = 1 := by decide +kernel
theorem test_meets_trap_handler : (7 : Nat) ≠ 5 ∧ (handler.core 5).tvec ≠ 0 := by decide +kernel
theorem test_meets_trap_none : ((regs 0 0).core 5).tvec = 0 := by decide +kernel

/-- A job that holds no region. -/
def jobless : State := (regs (BitVec.ofNat 64 suit0) 7).onJob (fun j => { j with attached := true })
/-- A poisoned line at the start of Suit buffer 0. -/
def poisoned : State := (regs (BitVec.ofNat 64 suit0) 7).onMem (fun m => m.poisonLine (suit0 / 64))
theorem test_meets_align : (handler.core 5).gr 1 + BitVec.ofInt 64 (0 : BitVec 16).toInt = BitVec.ofNat 64 (suit0 + 1) ∧ (suit0 + 1) % 8 ≠ 0 := by decide +kernel
theorem test_meets_no_memory : (0x00FF_FFFF_FFF8 : Nat) % 8 = 0 ∧ (0x00FF_FFFF_FFF8 : Nat) < 0x0F00_0000_0000 ∧ live.storeOfExtent 0x00FF_FFFF_FFF8 8 = none := by decide +kernel
theorem test_meets_perm : suit0 % 8 = 0 ∧ jobless.storeOfExtent suit0 8 = some (.suit 0) ∧ jobless.attachedExtent suit0 8 = false := by decide +kernel
theorem test_trap_align : (core5 (.ld64 5 3 1 0) handler).cause = 2 := by decide +kernel
theorem test_trap_addr : (core5 (.ld64 5 3 1 0) (regs 0x00FF_FFFF_FFF8 0)).cause = 3 := by decide +kernel
theorem test_trap_perm : (core5 (.ld64 5 3 1 0) jobless).cause = 4 := by decide +kernel
theorem test_trap_poison : (core5 (.ld64 5 3 1 0) poisoned).cause = 5 := by decide +kernel
theorem test_meets_poison : (∃ k, poisoned.locate false suit0 8 = .ok (.mem k)) ∧ poisoned.accessNow 5 false suit0 8 = true ∧
    (poisoned.settle suit0 8).poisonedIn suit0 8 = true := ⟨⟨.suit 0, by rfl⟩, by decide +kernel, by decide +kernel⟩

/-- Loads and stores (R4, R219). -/
def pointing : State := holding (leBytes 8 0x8182_8384_8586_8788) (regs (BitVec.ofNat 64 suit0) 0x1122_3344_5566_7788)
theorem test_meets_load : ReadsMemory pointing 5 suit0 8 := ⟨⟨.suit 0, by rfl⟩, by decide +kernel, by decide +kernel⟩
theorem test_meets_store : WritesMemory pointing 5 suit0 8 := ⟨⟨.suit 0, by rfl, by rfl⟩, by decide +kernel⟩
theorem test_meets_store_form : pointing.mem.wf = true := by decide +kernel
theorem test_ld16_sign : (core5 (.ld16 5 3 1 0) pointing).gr 3 = 0xFFFF_FFFF_FFFF_8788 := by decide +kernel
theorem test_ld16u_zero : (core5 (.ld16u 5 3 1 0) pointing).gr 3 = 0x8788 := by decide +kernel
theorem test_st16_bytes : (after (.st16 5 2 1 0) pointing).readMem suit0 4 = [0x88, 0x77, 0x86, 0x85] := by decide +kernel
theorem test_fld32_clears : (core5 (.fld32 5 3 1 0) pointing).v[3] = 0x8586_8788 := by decide +kernel

/-- Floating point (R215 to R217). -/
def fregs (a b : Nat) : State := running (fun x => (x.setF 1 (BitVec.ofNat 64 a)).setF 2 (BitVec.ofNat 64 b))
theorem test_fadd : (core5 (.fadd 5 3 1 2 false) (fregs 0x3FF0_0000_0000_0000 0x4000_0000_0000_0000)).fr 3 = 0x4008_0000_0000_0000 := by decide +kernel
theorem test_fdiv_by_zero : (core5 (.fdiv 5 3 1 2 false) (fregs 0x3FF0_0000_0000_0000 0)).fr 3 = 0x7FF0_0000_0000_0000 := by decide +kernel
theorem test_fcmp_nan : (core5 (.fle 5 3 1 2 false) (fregs 0x7FF8_0000_0000_0000 0)).gr 3 = 0 := by decide +kernel
theorem test_ftoi_nan : (core5 (.ftoi 5 3 1 false) (fregs 0x7FF8_0000_0000_0000 0)).gr 3 = 0 := by decide +kernel
theorem test_meets_fcvt : fcvtSource 1 = some .b32 ∧ fcvtSource 31 = none := by decide +kernel
theorem test_meets_representable : fp64.decode 0x3FF0_0000_0000_0000 = .fin false (2 ^ 52) (-52) ∧ (0x3FF0_0000_0000_0000 : Nat) < 2 ^ fp64.width := by decide +kernel
theorem test_wracr_reserved : (core5 (.wracr 5 1) (regs (-1) 0)).acr = 7 := by decide +kernel

/-- Operations of core 5 (R267, R280). -/
def op0 (id : Nat) (kind : OpKind) (st : OpState) : OutOp where
  id := id
  kind := kind
  core := some 5
  node := ⟨0, 1⟩
  slot := 0
  rank := 1
  tag := 0
  key := 0
  addr := 0x8000_0000_0000_0000
  localAddr := suit0
  len := 8
  pkt := packet 2 [] .none
  sentAt := 0
  retries := 0
  stamp := 0
  st := st
  want := []
  got := []
  noInstall := []
  held := false
  req := none
  port := none

def fencing (list : Option Nat) (os : List OutOp) : State := (running (fun x => { x with stall := some (.fence 3 list) })).onFab (fun f => { f with ops := os })
theorem test_meets_fence_waits : ∃ o ∈ [op0 0 .store .outstanding], o.st = .outstanding := by decide +kernel
theorem test_fence_waits : ((after (.fenceComplete 5) (fencing none [op0 0 .store .outstanding])).core 5).stall = some (.fence 3 none) := by decide +kernel
theorem test_meets_fence : ((fencing none [op0 0 .store (.acked 0)]).core 5).stall = some (.fence 3 none) ∧
    (fencing none [op0 0 .store (.acked 0)]).coreInReset 5 = false ∧ (fencing none [op0 0 .store (.acked 0)]).serves = true := by decide +kernel
theorem test_fence_acked : (core5 (.fenceComplete 5) (fencing none [op0 0 .store (.acked 0)])).stall = none := by decide +kernel
theorem test_fence_unknown : (core5 (.fenceComplete 5) (fencing none [op0 0 .store (.unknown 0x09 .timeout)])).gr 3 = 1 := by decide +kernel
theorem test_meets_fence_list : (fencing (some suit0) [op0 0 .store (.unknown 0x09 .timeout)]).accessFault 64 suit0
    (unknownList [op0 0 .store (.unknown 0x09 .timeout)]).length = none := by decide +kernel

/-- Dealer-V. -/
theorem test_setvl : (core5 (.setvl 5 3 1 false 0x0A) (regs 10 0)).gr 3 = 4 ∧ (core5 (.setvl 5 3 1 false 0x0A) (regs 10 0)).vl = 4 := by decide +kernel
theorem test_setvl_refused : (core5 (.setvl 5 3 1 false 0x08) (regs 10 0)).cause = 1 := by decide +kernel
theorem test_meets_setvl_safe : ((regs 10 0).core 5).haltingSince = none := by decide +kernel
def vregs (vt : BitVec 8) (vl : BitVec 5) (a b : Nat) : State := running (fun x => { x with vtype := vt, vl := vl, v := (x.v.set 1 (BitVec.ofNat 128 a)).set 2 (BitVec.ofNat 128 b) })
theorem test_meets_int_kind : vtKind ((vregs 4 16 1 2).core 5).vtype.toNat ≤ 1 := by decide +kernel
theorem test_meets_flt_kind : vtOk ((vregs 0x0A 4 1 2).core 5).vtype.toNat = true ∧ vtKind ((vregs 0x0A 4 1 2).core 5).vtype.toNat = 2 ∧ ((vregs 0x0A 4 1 2).core 5).el = .flt fp32 := by decide +kernel
theorem test_meets_kind_four : 4 ≤ vtKind ((vregs 0x10 4 1 2).core 5).vtype.toNat := by decide +kernel
theorem test_meets_bf16_kind : vtKind ((vregs 0x0D 4 1 2).core 5).vtype.toNat = 3 := by decide +kernel
theorem test_vadd_wraps : vElem ((core5 (.vadd 5 3 1 2 0) (vregs 0 16 0xFF 0x02)).v[3]) 8 0 = 1 := by decide +kernel
theorem test_vcmp_bits : (core5 (.vcmplt 5 3 1 2 0) (vregs 0 16 0x01FF 0x0201)).kr 3 = 0x0002 := by decide +kernel
theorem test_meets_vcvt : vcvtSource 1 = some .b32 ∧ ((1 : Nat) + 1 ≤ 32) := by decide +kernel
theorem test_meets_vsad : vtKind ((vregs 1 8 1 2).core 5).vtype.toNat = 0 ∧ ((vregs 1 8 1 2).core 5).sew = 16 := by decide +kernel
theorem test_vredsum : vElem ((core5 (.vredsum 5 3 1 2 0) (vregs 0 3 0x030201 0x0A)).v[3]) 8 0 = 16 := by decide +kernel

/-- Two 64-bit elements, the second past the end of the Suit buffer. -/
def edge : Nat := suit0 + 0x0180_0000 - 8
def vmem (a : Nat) : State := (vregs 3 2 0 0).onCore 5 (Core.setG 1 (BitVec.ofNat 64 a))
theorem test_meets_vload : ReadsMemory (vmem suit0) 5 suit0 8 ∧ ReadsMemory (vmem suit0) 5 (suit0 + 8) 8 :=
  ⟨⟨⟨.suit 0, by rfl⟩, by decide +kernel, by decide +kernel⟩, ⟨⟨.suit 0, by rfl⟩, by decide +kernel, by decide +kernel⟩⟩
theorem test_meets_vstore : WritesMemory (vmem suit0) 5 suit0 8 := ⟨⟨.suit 0, by rfl, by rfl⟩, by decide +kernel⟩
theorem test_meets_indices : IndexRegistersOk ((vregs 3 2 0 0).core 5) 3 8 3 := by unfold IndexRegistersOk; decide +kernel
theorem test_meets_vfault : (vmem edge).locate false edge 8 = .ok (.mem (.suit 0)) ∧ (vmem edge).locate false (edge + 8) 8 = .error 3 := ⟨by rfl, by rfl⟩
theorem test_vfault : (core5 (.vld 5 3 1 0) (vmem edge)).vfault = 1 ∧ (core5 (.vld 5 3 1 0) (vmem edge)).cause = 3 ∧
    (core5 (.vld 5 3 1 0) (vmem edge)).vfaddr = BitVec.ofNat 64 (edge + 8) := by decide +kernel

/-! ### Dealer cores: the fabric, control, pips -/

/-- A node of rank 0 in a rack with rank 1 at physical slot 1. -/
def racked (s : State) : State := (s.onJob (fun j => { j with rank := 0 })).onFab (fun f => { f with
  enable := true, ranks := [⟨0, ⟨0, 0⟩⟩, ⟨1, ⟨0, 1⟩⟩] })
/-- G1 names byte 0x100 of slot 1's Suit buffer 0, and G2 the start of the local one. -/
def remote : Nat := 0x8000_0000_0000_0000 + 2 ^ 56 + suit0 + 0x100
def reaching : State := racked (regs (BitVec.ofNat 64 remote) (BitVec.ofNat 64 suit0))
theorem test_meets_remote_load : reaching.locate false remote 8 = .ok (.remote ⟨0, 1⟩) ∧ (reaching.fab.rrcEn && !raNc remote) = true ∧
    reaching.missing ⟨0, 1⟩ remote 8 ≠ [] := ⟨by rfl, by decide +kernel, by decide +kernel⟩
def cachedLine : State := reaching.onFab (fun f => { f with rrc := [⟨⟨0, 1⟩, (suit0 + 0x100) / 256, List.replicate 256 7⟩] })
theorem test_meets_cached_load : cachedLine.missing ⟨0, 1⟩ remote 8 = [] ∧ cachedLine.locate false remote 8 = .ok (.remote ⟨0, 1⟩) := ⟨by decide +kernel, by rfl⟩
theorem test_cached_load : (core5 (.ld64 5 3 1 0) cachedLine).gr 3 = 0x0707_0707_0707_0707 := by decide +kernel
theorem test_meets_remote_store : reaching.locate true remote 8 = .ok (.remote ⟨0, 1⟩) ∧ reaching.tagRoom ⟨0, 1⟩ 1 = true := ⟨by rfl, by decide +kernel⟩
theorem test_remote_store_drops : (after (.st64 5 2 1 0) cachedLine).fab.rrc = [] := by decide +kernel
/-- R450: a remote operation sent and a cache miss are events of the F-die. -/
theorem test_score_remote : ((after (.st64 5 2 1 0) (reaching.watch .fdie)).sco.pulses.map (fun p => p.event)).contains 0x0601 = true ∧
    ((after (.ld64 5 2 1 0) (reaching.watch .fdie)).sco.pulses.filter (fun p => p.event == 0x0605)).map (fun p => p.n) = [1] := by decide +kernel
/-- A job that names every unit. -/
def attached (s : State) : State := s.onJob (fun j => { j with attached := true, rank := 0, uses := ⟨-1, -1, -1, -1, -1, -1⟩ })
theorem test_meets_register_load : (attached live).locate false 0x0F00_0001_6088 8 = .ok .reg := by rfl

/-- RPUT and RGET of 64 bytes: to and from slot 1. -/
def putting : State := racked (running (fun x => ((x.setG 1 (BitVec.ofNat 64 remote)).setG 2 (BitVec.ofNat 64 suit0)).setG 3 64))
theorem test_meets_rput : remote % 64 = 0 ∧ suit0 % 64 = 0 ∧ putting.blockFault false 64 suit0 64 = none ∧ putting.blockWaits (.dealer 5) suit0 64 = false ∧
    putting.tagRoom ⟨0, 1⟩ 1 = true ∧ putting.poisonedIn suit0 64 = false ∧ putting.mem.upset = [] := by decide +kernel
theorem test_meets_rput_node : putting.remoteOf remote = .ok ⟨0, 1⟩ := by rfl
theorem test_meets_rget : putting.blockFault true 64 suit0 64 = none ∧ putting.rrcUsed remote = true ∧ putting.missing ⟨0, 1⟩ remote 64 ≠ [] := by decide +kernel
theorem test_meets_rget_cached : cachedLine.rrcUsed remote = true ∧ cachedLine.missing ⟨0, 1⟩ remote 64 = [] := by decide +kernel
theorem test_meets_rput_align : (remote + 8) % 64 ≠ 0 := by decide +kernel
theorem test_rput_pc : (core5 (.rput 5 3 1 2) putting).pc = 68 := by decide +kernel

/-- A request block: IADD of one INT64 element with FETCH 0. -/
def iaddBlock : List Byte := leBytes 1 1 ++ leBytes 1 0x12 ++ leBytes 2 1 ++ leBytes 2 0 ++ leBytes 2 8 ++ List.replicate 56 0 ++ leBytes 8 1 ++ List.replicate 312 0
def atomic (target : Nat) : State := holding iaddBlock (racked (regs (BitVec.ofNat 64 target) (BitVec.ofNat 64 suit0)))
theorem test_meets_atom : (atomic remote).blockFault false 64 suit0 384 = none ∧ (atomic remote).blockWaits (.dealer 5) suit0 384 = false ∧
    (atomic remote).poisonedIn suit0 384 = false ∧ (atomic remote).mem.upset = [] ∧ (2 : Nat) ^ 62 ≤ remote ∧ (atomic remote).tagRoom ⟨0, 1⟩ 1 = true := by decide +kernel
theorem test_meets_atom_good : (let q := (atomic remote).atomBlock suit0 remote false
    atomBad q.code.toNat q.fmt.toNat q.count ((atomic remote).wordAt (suit0 + 6) 2) q.fetch) = false := by decide +kernel
theorem test_meets_atom_bad : (let s := holding [0x1F] (atomic remote)
    let q := s.atomBlock suit0 remote false
    atomBad q.code.toNat q.fmt.toNat q.count (s.wordAt (suit0 + 6) 2) q.fetch) = true := by decide +kernel
theorem test_meets_atom_local : (0x0410_0000 : Nat) < 2 ^ 62 ∧ (atomic 0x0410_0000).atomPerm ((atomic 0x0410_0000).atomBlock suit0 0x0410_0000 false) = false := by decide +kernel
theorem test_atom_pending : (core5 (.atom 5 3 1 2) (atomic remote)).gr 3 = 1 := by decide +kernel

/-- INVAL and INVAL_SEND of 256 bytes at slot 1. -/
def dropping : State := (cachedLine.onCore 5 (Core.setG 2 256)).onCore 5 (Core.setG 3 2)
theorem test_meets_inval : ∀ i : Nat, i < 64 → (2 : Nat).testBit i = true → (dropping.translate i).isSome = true := by decide +kernel
theorem test_inval : (after (.inval 5 1 2) dropping).fab.rrc = [] := by decide +kernel

/-- A hand with one store entry of 8 bytes for slot 1, its source in the same Suit buffer; and one with no entry. -/
def handBlock (n : Nat) : List Byte := leBytes 1 n ++ List.replicate 63 0 ++ leBytes 1 2 ++ List.replicate 5 0 ++ leBytes 2 8 ++
  leBytes 8 (2 ^ 63 + 2 ^ 56 + suit0) ++ leBytes 8 (suit0 + 0x1000) ++ List.replicate 8 0
def dealing (n : Nat) : State := holding (handBlock n) (racked (regs (BitVec.ofNat 64 suit0) 0))
theorem test_meets_hand : (dealing 1).blockFault false 64 suit0 64 = none ∧ (dealing 1).wordAt suit0 1 = 1 ∧
    (dealing 1).blockFault true 64 suit0 (2112 + 16) = none ∧ (dealing 1).blockWaits (.dealer 5) suit0 (2112 + 16) = false ∧
    (dealing 1).poisonedIn suit0 (64 + 32) = false := by decide +kernel
theorem test_meets_hand_empty : (dealing 0).wordAt suit0 1 = 0 ∧ (dealing 0).blockFault true 64 suit0 64 = none ∧ (dealing 0).blockWaits (.dealer 5) suit0 64 = false := by decide +kernel
theorem test_meets_hand_many : (dealing 65).wordAt suit0 1 = 65 := by decide +kernel
theorem test_hand_refused : (core5 (.hand 5 3 1) (dealing 0)).gr 3 = 3 := by decide +kernel

/-- MSEND of 64 bytes to rank 1, and to a rank without an entry. -/
def msgBlock (rank : Nat) : List Byte := leBytes 4 rank ++ leBytes 2 0 ++ leBytes 2 0 ++ leBytes 4 64 ++ leBytes 4 0 ++ leBytes 8 (suit0 + 0x1000) ++ List.replicate 40 0
def sending (rank : Nat) : State := holding (msgBlock rank) (racked (regs (BitVec.ofNat 64 suit0) 0))
theorem test_meets_msend : (sending 1).blockFault false 64 suit0 64 = none ∧ (sending 1).wordAt (suit0 + 8) 4 = 64 ∧
    (sending 1).wordAt (suit0 + 16) 8 % 64 = 0 ∧ (sending 1).blockFault false 64 (suit0 + 0x1000) 64 = none ∧ (sending 1).msgRoom 1 = true ∧
    (sending 1).poisonedIn (suit0 + 0x1000) 64 = false ∧ (sending 1).nodeOfRank 1 = some ⟨0, 1⟩ := by decide +kernel
theorem test_meets_msend_nowhere : (sending 2).nodeOfRank ((sending 2).wordAt suit0 4) = none := by decide +kernel
theorem test_msend_pending : (core5 (.msend 5 3 1) (sending 1)).gr 3 = 1 := by decide +kernel

/-- Control of a core (R231). -/
theorem test_run_restarts : (core5 (.dlrCtrlWrite 5 1) live).halted = false := by decide +kernel
theorem test_run_halts : (core5 (.dlrCtrlWrite 5 0) (regs 0 0)).halted = true := by decide +kernel
theorem test_meets_halt_submit : ((running (fun x => { x with stall := some .submit })).core 5).stall = some .submit ∧ ((regs 0 0).core 5).halted = false := by decide +kernel
def onToSafe (t0 : BitVec 64) : State := running (fun x => { x with haltingSince := some t0, cycle := 65536 })
theorem test_safepoint_in_time : (core5 (.safepointHalt 5) (onToSafe 1)).atSafepoint = true := by decide +kernel
theorem test_safepoint_too_late : (core5 (.safepointHalt 5) (onToSafe 0)).atSafepoint = false ∧ (core5 (.safepointHalt 5) (onToSafe 0)).halted = true := by decide +kernel
def context (bs : List Byte) (halted : Bool) : State := holding bs (live.onCore 5 (fun x => { x with halted := halted, ctxBase := BitVec.ofNat 64 suit0 }))
theorem test_meets_ctx_save : ((context [] true).core 5).halted = true ∧ ((context [] true).storeOfExtent suit0 848).any Store.shared = true := by decide +kernel
theorem test_meets_ctx_restore : (context [2, 0, 0x80] true).wordAt suit0 2 = 2 ∧ (context [2, 0, 0x80] true).wordAt (suit0 + 2) 1 = 0x80 ∧
    (context [2, 0, 0x80] true).poisonedIn suit0 848 = false := by decide +kernel
theorem test_meets_ctx_narrow : (context [2, 0, 0x40] true).wordAt (suit0 + 2) 1 = 0x40 ∧ ((context [2, 0, 0x40] true).storeOfExtent suit0 592).any Store.shared = true := by decide +kernel
theorem test_ctx_format : (core5 (.ctxRestore 5) (context [1, 0, 0x80] true)).ctxResult = 3 ∧ (core5 (.ctxRestore 5) (context [1, 0, 0x80] true)).err = 4 := by decide +kernel
theorem test_ctx_busy : (core5 (.ctxSave 5) (context [] false)).ctxResult = 4 := by decide +kernel
theorem test_meets_context_image : Core.reset.acr.toNat < 8 ∧ Core.reset.fflags.toNat < 256 := by decide +kernel

/-- Pips (R334). -/
theorem test_pip_up : (after (.pipRaise 3 0xFFFF_F7FF) live).pipUp 3 0x7FF = true := by decide +kernel
theorem test_pip_same_ac : (after (.pipLower 3 5) (after (.pipRaise 3 5) live)).pipUp 3 5 = true := by decide +kernel
theorem test_pip_later : (after (.pipLower 3 5) ((after (.pipRaise 3 5) live).onHbm (fun h => { h with raised := [] }))).pipUp 3 5 = false := by decide +kernel

/-! ### Engines -/

/-- A descriptor from its fields: byte offset and value. -/
def desc (fs : List (Nat × Nat)) : BitVec 1024 := BitVec.ofNat 1024 ((fs.map (fun f => f.2 * 2 ^ (8 * f.1))).sum)
/-- An accepted descriptor. -/
def entry (d : BitVec 1024) (status : BitVec 16) : Entry := ⟨⟨none, false, d⟩, [], [], status, 0, 0⟩
/-- An engine's FIFO, head and RUN. -/
def engine (k : EngKind) (i : Nat) (fifo : List Entry) (head : Head) (s : State) : State :=
  s.onEngine k i (fun e => { e with fifo := fifo, head := head, runBit := true, cq := { e.cq with base := BitVec.ofNat 64 (suit0 + 0x10000) } })
/-- A duty slot that is enabled. -/
def inSlot (s : State) : State := s.onPwr (fun p => { p with slotOn := true })
def waiting : Head := { Head.idle with phase := .waitPips }
def runningHead (r : EngRun) : Head := { Head.idle with phase := .running, start := some 0, run := r }

/-- SUBMIT (R93, R94, R228). -/
def submitting (a : BitVec 64) : State := attached (regs a 0)
theorem test_meets_submit : regAddr 0x0F00_0001_6000 = some (.eng .tbl, .inst 22, 0) ∧ (submitting 0).engPresent .tbl 22 = true ∧
    (submitting 0).dealerStores (.eng .tbl) (.inst 22) 0 = true := by decide +kernel
theorem test_meets_submit_group : regAddr 0x0F00_0004_0000 = some (.eng .tbl, .group, 0) ∧ (submitting 0).job.attached = true := by decide +kernel
theorem test_submit_waits : (core5 (.submit 5 1 8) (submitting 0x0F00_0001_6000)).stall = some .submit := by decide +kernel
theorem test_submit_register : (core5 (.submit 5 1 9) (submitting 0x0F00_0001_6000)).cause = 6 := by decide +kernel
theorem test_submit_nowhere : (core5 (.submit 5 1 8) (submitting 0x0F00_0001_6008)).cause = 6 := by decide +kernel
theorem test_submit_group_dropped : (core5 (.submit 5 1 8) (submitting 0x0F00_0004_0000)).pc = 68 := by decide +kernel

/-- Acceptance (R92). -/
def ported (k : EngKind) (n : Nat) : State := live.onEngine k 3 (fun e => { e with port := [⟨none, false, 0⟩], fifo := List.replicate n (entry 0 0) })
theorem test_meets_accept : ((ported .shf 63).engine .shf 3).port = [⟨none, false, 0⟩] ∧ (ported .shf 63).engInReset .shf 3 = false ∧
    ((ported .shf 63).engine .shf 3).fifo.length < 64 := by decide +kernel
theorem test_meets_accept_full : 64 ≤ ((ported .shf 64).engine .shf 3).fifo.length := by decide +kernel
theorem test_accept_takes : ((after (.tblAccept 3) (ported .tbl 0)).engine .tbl 3).fifo.length = 1 := by decide +kernel
theorem test_accept_leaves : ((after (.solAccept 3) (ported .sol 64)).engine .sol 3).port.length = 1 := by decide +kernel

/-- The head of the FIFO (R33, R35): on arrival, past, now, to come, and rejected. -/
def at100 (rel : Nat) (st : BitVec 16) : State := (engine .tbl 3 [entry (desc [(96, rel)]) st] Head.idle live).onCad (fun c => { c with count := 0, phase := 100 })
theorem test_meets_head : ((at100 99 0).engine .tbl 3).fifo = [entry (desc [(96, 99)]) 0] ∧ ((at100 99 0).engine .tbl 3).head.phase = .idle ∧
    ((at100 99 0).engine .tbl 3).runBit = true ∧ (at100 99 0).engInReset .tbl 3 = false := by decide +kernel
theorem test_head_arrival : ((after (.descriptorHead .tbl 3) (at100 (2 ^ 64 - 1) 0)).engine .tbl 3).head.firstEffect = 104 := by decide +kernel
theorem test_head_past : ((after (.descriptorHead .tbl 3) (at100 99 0)).engine .tbl 3).head.late = true := by decide +kernel
theorem test_head_now : ((after (.descriptorHead .tbl 3) (at100 100 0)).engine .tbl 3).head.phase = .waitPips ∧
    ((after (.descriptorHead .tbl 3) (at100 100 0)).engine .tbl 3).head.late = false := by decide +kernel
theorem test_head_to_come : ((after (.descriptorHead .tbl 3) (at100 101 0)).engine .tbl 3).head.phase = .waitRelease := by decide +kernel
theorem test_head_rejected : ((after (.descriptorHead .tbl 3) (at100 101 3)).engine .tbl 3).fifo = [] := by decide +kernel

/-- Completion (R109, R112), PIP_TIMEOUT (R103), and the start (R101). -/
def nop : State := engine .tbl 3 [entry 0 0] waiting (inSlot live)
theorem test_meets_completion : (nop.engine .tbl 3).cq.full = false ∧ nop.storeOfExtent (nop.engine .tbl 3).cq.slot 32 = some (.suit 0) ∧ (Store.suit 0).shared = true := by decide +kernel
def full : State := nop.onEngine .tbl 3 (fun e => { e with cq := { e.cq with tail := 64 } })
theorem test_meets_full : (full.engine .tbl 3).cq.full = true := by decide +kernel
theorem test_full_holds : ((full.finish .tbl 3 0).engine .tbl 3).head.held = true := by decide +kernel
theorem test_meets_start : (nop.engine .tbl 3).head.phase = .waitPips ∧ (nop.engine .tbl 3).head.firstEffect ≤ nop.now ∧
    (∀ p ∈ startSet .tbl 0, nop.pipUp (engineSuit .tbl 3) p = true) ∧ nop.mem.noPoison = true ∧ nop.mem.upset = [] ∧ nop.anyFenced = false ∧
    descOp 0 = 0 ∧ nop.pwr.slotOn = true := by decide +kernel
theorem test_meets_start_working : descOp (desc [(0, 1)]) ≠ 0 ∧ live.pwr.slotOn = false := by decide +kernel
theorem test_nop_completes : (after (.pipWaitSatisfied .tbl 3) nop).readMem (suit0 + 0x10000) 1 ≠ [] ∧ ((after (.pipWaitSatisfied .tbl 3) nop).engine .tbl 3).fifo = [] := by decide +kernel
/-- PIP_MODE 1 with one pip, and LIMIT_CD 1. -/
def pipped : State := ((engine .shf 3 [entry (desc [(0, 1), (88, 2 ^ 62 + 2 ^ 24)]) 0] waiting live).onEngine .shf 3 (fun e => { e with pipLimit := 1 })).onCad
  (fun c => { c with count := 1 })
theorem test_meets_pip_timeout : (pipped.engine .shf 3).pipLimit ≠ 0 ∧
    (pipped.engine .shf 3).head.firstEffect + (pipped.engine .shf 3).pipLimit.toNat * 60000 ≤ pipped.now := by decide +kernel

/-- Registers of a ring (R112), of the Organ, and of an error register. -/
theorem test_meets_head_beyond : (2 : Nat) ^ (live.engine .tbl 3).cq.sizeLog2.toNat < ((live.engine .tbl 3).cq.tail - 1).toNat := by decide +kernel
theorem test_meets_head_within : ((live.engine .tbl 3).cq.tail - 0).toNat ≤ 2 ^ (live.engine .tbl 3).cq.sizeLog2.toNat ∧ (live.engine .tbl 3).head.held = false := by decide +kernel
def heldRunning : State := full.onEngine .tbl 3 (fun e => { e with head := { runningHead {} with held := true } })
theorem test_meets_head_frees : (heldRunning.engine .tbl 3).head.held = true ∧ ((heldRunning.engine .tbl 3).cq.tail - 1).toNat < 2 ^ (heldRunning.engine .tbl 3).cq.sizeLog2.toNat := by decide +kernel
theorem test_cq_head_ignored : ((after (.cqHeadWrite (.eng .tbl 3) 1) live).engine .tbl 3).cq.head = 0 := by decide +kernel
theorem test_organ_split_cap : (after (.organSplitWrite 3 511) live).eng.organSplit[3] = 384 := by decide +kernel
theorem test_organ_split_busy : ((after (.organSplitWrite 3 1) nop).engine .tbl 3).err = 32 := by decide +kernel
theorem test_meets_registers : regAddr 0x0F00_0001_60C0 = some (.eng .tbl, .inst 22, 0x0C0) := by decide +kernel
theorem test_err_write_one_clears : ((after (.registerWrite .banker 0x0F00_0001_60C0 1) (live.onEngine .tbl 22 (fun e => { e with err := 3 }))).engine .tbl 22).err = 2 := by decide +kernel

/-- A Tableau: one element, FP64, before its only tile and after it; and PIP_MODE 2 with one chunk. -/
def oneByOne : BitVec 1024 := desc [(0, 1), (8, 1), (12, 1), (16, 1), (24, suit0), (32, suit0 + 64), (40, 2 ^ 64 - 1), (48, suit0 + 128), (56, 2 ^ 64 - 1),
  (64, 2 ^ 64 - 1), (72, 2 ^ 64 - 1), (80, 8), (84, 8), (88, 8), (92, 8), (120, 2 ^ 64 - 1)]
def tableau (r : EngRun) : State := engine .tbl 3 [entry oneByOne 0] (runningHead r) (inSlot live)
theorem test_meets_tile : (tableau {}).pwr.slotOn = true ∧ ((tableau {}).engine .tbl 3).head.phase = .running ∧ ((tableau {}).engine .tbl 3).tblHead.pipMode ≠ 2 ∧
    ((tableau {}).engine .tbl 3).head.run.tiles < ((tableau {}).engine .tbl 3).tblHead.tiles := by decide +kernel
theorem test_meets_tbl_commit : ((tableau { tiles := 1 }).engine .tbl 3).tblHead.tiles ≤ ((tableau { tiles := 1 }).engine .tbl 3).head.run.tiles := by decide +kernel
theorem test_tbl_commit : ((after (.tblCommit 3) (tableau { tiles := 1 })).engine .tbl 3).fifo = [] := by decide +kernel

/-- An Atomizer with no group left. -/
def atomizer : State := engine .atm 3 [entry (desc [(0, 1)]) 0] (runningHead { group := 1 }) (inSlot live)
theorem test_meets_atm : (atomizer.engine .atm 3).head.phase = .running ∧ (atomizer.engine .atm 3).atmHead.groups ≤ (atomizer.engine .atm 3).head.run.group := by decide +kernel

/-- A Solitaire with two problems to assemble. -/
def solving (r : EngRun) : State := engine .sol 3 [entry (desc [(0, 1), (4, 2)]) 0] (runningHead r) (inSlot live)
theorem test_meets_compounder : ((solving {}).engine .sol 3).head.run.assembled < ((solving {}).engine .sol 3).solHead.nprob ∧
    ((solving {}).engine .sol 3).head.run.problems.length < 8 := by decide +kernel
def problem (factored done : Bool) : Problem where
  idx := 0
  a := []
  fix := []
  b := []
  wrote := []
  rangeBad := false
  poisoned := false
  factors := []
  recips := []
  pivots := []
  sigF := 0
  sigL := 0
  factored := factored
  status := 0
  corrections := 0
  column := 0
  warmUsed := false
  refactored := false
  warmRejected := false
  perturbed := false
  resNorm := none
  x := []
  done := done
  fl := {}
theorem test_meets_factorise : ((solving { problems := [problem false false] }).engine .sol 3).buffered 0 = some (problem false false) ∧
    ((solving { problems := [problem false false] }).engine .sol 3).solHead.warm = false := by decide +kernel
theorem test_meets_refine : ((solving { problems := [problem true false] }).engine .sol 3).buffered 0 = some (problem true false) := by decide +kernel
theorem test_meets_sol_commit : ((solving { problems := [problem true true] }).engine .sol 3).head.run.problems = [problem true true] ∧ (problem true true).done = true := by decide +kernel

/-- A Shuffle FILL, a SAMPLE, a full ring, and the state registers. -/
def shuffle (op : Nat) : State := engine .shf 3 [entry (desc [(0, op), (24, 1), (32, suit0)]) 0] (runningHead {}) (inSlot live)
theorem test_meets_fill : ((shuffle 1).engine .shf 3).head.phase = .running ∧ ((shuffle 1).engine .shf 3).cq.full = false ∧ (shfDesc ((shuffle 1).engine .shf 3).headDesc).op = 1 := by decide +kernel
theorem test_meets_sample : (shfDesc ((shuffle 2).engine .shf 3).headDesc).op ≠ 1 := by decide +kernel
theorem test_meets_shf_full : (((shuffle 1).onEngine .shf 3 (fun e => { e with cq := { e.cq with tail := 64 } })).engine .shf 3).cq.full = true := by decide +kernel
theorem test_meets_shf_idle : (live.engine .shf 3).fifo = [] ∧ ((shuffle 1).engine .shf 3).fifo ≠ [] := by decide +kernel
theorem test_lane_base : ((after (.shfJaBaseWrite 3 1) live).eng.shfState[3]).lanes[2] = BitVec.ofNat 96 (66 * 2 ^ 64) := by decide +kernel
theorem test_shf_slot_busy : ((after (.shfJaBaseWrite 3 1) (shuffle 1)).engine .shf 3).err = 16 := by decide +kernel

theorem test_meets_anchored : 1 ≤ winCell32.g ∧ [FVal.zero, FVal.nan].Perm [FVal.nan, FVal.zero] := ⟨by decide, List.Perm.swap ..⟩


/-! ### Cadence (R24-R44) -/

/-- A marker with a good CRC-8. -/
def mark (src : Fin 33) (n : Nat) : Instr := .marker src (BitVec.ofNat 48 n) (BitVec.ofNat 8 (cadenceCrc n))
/-- The cadence unit of a live package, with one source changed. -/
def cad (src : Fin 33) (f : CadSource → CadSource) (g : Cadence → Cadence) : State :=
  live.onCad (fun c => g { c with sources := vmod c.sources src f })
def heard (n at_ run : Nat) (v : Bool) (x : CadSource) : CadSource := { x with seen := true, lastCount := BitVec.ofNat 48 n, lastAt := at_, run := run, valid := v }
/-- Locked on port 0, with port 8 the secondary. -/
def lockedOn (c : Cadence) : Cadence := { c with st := .lockedPrimary, active := 0, secondary := 8, secEnable := true, aligned := true }
/-- The sixteenth marker in a row on time makes a source valid; one cycle late, it does not. -/
theorem test_marker_valid : ((after (mark 3 8) (cad 3 (heard 7 0 15 false) (fun c => { c with refAc := 60002 }))).cad.sources[3]).valid = true := by decide +kernel
theorem test_marker_late : ((after (mark 3 8) (cad 3 (heard 7 0 15 false) (fun c => { c with refAc := 60003 }))).cad.sources[3]).valid = false := by decide +kernel
theorem test_meets_marker : live.serves = true ∧ (0x5A : Nat) ≠ cadenceCrc 3 ∧ (BitVec.ofNat 8 (cadenceCrc 3)).toNat = cadenceCrc 3 := by decide +kernel
theorem test_marker_bad : (after (.marker 0 3 0x5A) live).cad.events = 32 := by decide +kernel
/-- Port 0 is the primary, whose delay is 100 ac. -/
def acquiring : State := (cad 0 (heard 4 0 16 true) (fun c => { c with primary := 0, src := 0, refAc := 60000 })).onPort 0 (fun p => { p with delay := 100 })
theorem test_meets_cad_load : acquiring.cad.st = .acquiring ∧ acquiring.cad.selected = some 0 ∧ (acquiring.cad.sources[0]).valid = true := by decide +kernel
theorem test_marker_load : (after (mark 0 5) acquiring).cad.count = 5 ∧ (after (mark 0 5) acquiring).cad.phase = 100 := by decide +kernel
def failing : State := cad 8 (heard 4 0 16 true) (fun c => { lockedOn c with refAc := 60000, count := 5 })
theorem test_meets_failover : failing.cad.canFailover = true ∧ failing.cad.selPending = false ∧ (8 : Fin 33) = failing.cad.secondarySrc ∧
    failing.cad.selected ≠ some 8 ∧ failing.cad.valid failing.cad.active = false ∧ (5 : Count) = (failing.expected 8).1 := by decide +kernel
theorem test_failover : (after (mark 8 5) failing).cad.st = .lockedSecondary := by decide +kernel
theorem test_meets_differ : (7 : Count) ≠ ((cad 0 (fun x => { heard 4 0 16 true x with differ := 2 }) lockedOn).expected 0).1 := by decide +kernel
theorem test_differ : ((after (mark 0 7) (cad 0 (fun x => { heard 4 0 16 true x with differ := 2 }) lockedOn)).cad.sources[0]).valid = false := by decide +kernel
/-- Three intervals without a marker. -/
def silent (at_ : Nat) : State := cad 0 (heard 4 at_ 16 true) (fun c => { lockedOn c with refAc := 180000 })
theorem test_source_invalid : (after (.sourceInvalid 0) (silent 0)).cad.st = .freeRun := by decide +kernel
theorem test_source_still_valid : ((after (.sourceInvalid 0) (silent 1)).cad.sources[0]).valid = true := by decide +kernel

/-- Two seconds without a source. -/
theorem test_acquire_timeout : (after .acquireTimeout (live.onCad (fun c => { c with refAc := 1_200_000_000 }))).cad.st = .aligning := by decide +kernel
theorem test_acquire_waits : (after .acquireTimeout (live.onCad (fun c => { c with refAc := 1_199_999_999 }))).cad.st = .acquiring := by decide +kernel
theorem test_forced_free_run : (after .forcedFreeRun (live.onCad (fun c => { lockedOn c with src := 2, phase := 0 }))).cad.st = .freeRun := by decide +kernel
/-- The handshake ends at M+4, phase 1,024. -/
def shaking (attempts phase : Nat) : State := live.onCad (fun c => { c with st := .aligning, markerM := some 1, count := 5, phase := phase, attempts := attempts })
theorem test_meets_handshake : (shaking 2 1024).cad.st = .aligning ∧ ((1 : Count).toNat + 4) * 60000 + 1024 ≤ (shaking 2 1024).now := by decide +kernel
theorem test_handshake : (after (.alignmentHandshake 0) (shaking 0 1024)).cad.aligned = true ∧ (after (.alignmentHandshake 0) (shaking 0 1023)).cad.aligned = false := by decide +kernel
theorem test_handshake_again : (after (.alignmentHandshake 1) (shaking 1 1024)).cad.markerM = none ∧
    (after (.alignmentHandshake 1) ((shaking 1 1024).onCad (fun c => { c with alignFree := true }))).cad.markerM = some 6 := by decide +kernel
theorem test_handshake_fails : (after (.alignmentHandshake 0x10) (shaking 2 1024)).boot.failCode = 1 := by decide +kernel
theorem test_handshake_deck : (after (.alignmentHandshake 4) (shaking 2 1024)).inv.deckAbsent[2] = true := by decide +kernel
theorem test_meets_tick : (shaking 0 59999).cad.st ≠ .acquiring ∧ (shaking 0 59999).cad.phase < 60000 := by decide +kernel
theorem test_tick : (after .cadenceIntervalTick (shaking 0 59999)).cad.count = 6 ∧ ((after .cadenceIntervalTick (shaking 0 59999)).core 5).cycle = 3 := by decide +kernel
theorem test_cad_ctrl : (after (.cadCtrlWrite 0x1F0511) live).cad.src = 1 ∧ (after (.cadCtrlWrite 0x1F0531) live).cad.src = live.cad.src := by decide +kernel
/-- Releases: reached, and one cycle before. -/
def releasing (phase : Nat) : State := (engine .tbl 3 [entry (desc [(96, 65536 + 7)]) 0] { Head.idle with phase := .waitRelease } live).onCad (fun c => { c with count := 1, phase := phase })
theorem test_meets_release : ((releasing 7).engine .tbl 3).head.phase = .waitRelease ∧ ((releasing 7).engine .tbl 3).runBit = true ∧
    relReached (releasing 7) (((releasing 7).engine .tbl 3).headRelease .tbl) = true ∧
    relReached (releasing 6) (((releasing 6).engine .tbl 3).headRelease .tbl) = false := by decide +kernel
theorem test_release_lag : ((after (.actionRelease (.eng .tbl 3)) (releasing 7)).engine .tbl 3).head.firstEffect = 60011 := by decide +kernel
def decant0 : DecantRec := ⟨suit0, 1, 0, suit0, 1, 0, 0, 0, 0, 5, 2⟩
def decanting (f : Checkpoint → Checkpoint) : State := live.onCkp f
theorem test_meets_decant_release : relReached (decanting (fun k => { k with cur := some decant0, phase := .waitRelease })) decant0.release.toNat = true ∧
    (decanting (fun k => { k with cur := some decant0, phase := .waitRelease })).ckp.phase = .waitRelease := by decide +kernel

/-! ### Memory-side operations (R249-R257) -/

/-- A request at an address of Deck 0's HBM window. -/
def req (code : BitVec 8) (fmt : BitVec 5) (count target : Nat) (payload : List Byte) : MsReq :=
  { code := code, fmt := fmt, flush := false, count := count, fetch := false, target := BitVec.ofNat 64 target, payload := payload }
theorem test_meets_ms_plain : live.msFree .controller (req 1 0x12 2 8 []) = true ∧ msTakes 1 0x12 = true ∧ live.inHbm 8 16 = true ∧ live.poisonedIn 8 16 = false ∧
    live.mem.wf = true ∧ live.mem.upset = [] ∧ (List.range 16).all (fun i => (List.range 16).all (fun j => live.keyOf (8 + i) != live.keyOf (8 + j) || i == j)) = true := by decide +kernel
theorem test_iadd_twice : (after (.iadd (.given (req 1 0x12 1 8 (leBytes 8 3)))) (after (.iadd (.given (req 1 0x12 1 8 (leBytes 8 4)))) live)).wordAt 8 8 = 7 := by decide +kernel
theorem test_cas_equal : (after (.cas (.given (req 0x11 0x12 1 8 (leBytes 8 0 ++ leBytes 8 9)))) live).wordAt 8 8 = 9 := by decide +kernel
theorem test_cas_differs : (after (.cas (.given (req 0x11 0x12 1 8 (leBytes 8 1 ++ leBytes 8 9)))) live).wordAt 8 8 = 0 := by decide +kernel
theorem test_meets_ms_rejections : live.inHbm suit0 1 = false ∧ live.aregOf 0 = none ∧ live.inHbm (live.hbmEnd - 8) 1 = true ∧
    live.inHbm (live.hbmEnd - 8) 16 = false ∧ live.inHbm 4 8 = true ∧ 4 % 8 ≠ 0 ∧ fmtBytes 0x12 = 8 := by decide +kernel
theorem test_ms_statuses : (live.applyMs (req 1 0x12 1 suit0 [])).2.status = 4 ∧ (live.applyMs (req 9 0 1 0 [])).2.status = 7 ∧
    (live.applyMs (req 1 0x12 2 (live.hbmEnd - 8) [])).2.status = 4 ∧ (live.applyMs (req 1 0x12 1 4 [])).2.status = 5 := by decide +kernel

/-- An anchored region of 128 bytes at 0, with anchor 0; a recipe with one element, an IADD of the payload's first word, and one that fails. -/
def regioned : State := live.onHbm (fun h => { h with areg := vmod h.areg (3 : Fin 64) (fun r => { r with size := 128, valid := true }) })
theorem test_meets_cells : (regioned.aregOf 16).isSome = true ∧ regioned.msFree .controller (req 9 1 2 16 []) = true ∧ 16 + 2 * 16 ≤ 128 ∧ msTakes 9 1 = true ∧
    classTakes 9 1 false = true ∧ regioned.inHbm 16 32 = true ∧ regioned.poisonedIn 16 32 = false := by decide +kernel
theorem test_aadd : (after (.aclear (.given (req 0x0A 1 1 16 []))) (after (.aadd (.given (req 9 1 1 16 (leBytes 4 0x3F80_0000)))) regioned)).mem.cells = [] := by decide +kernel
theorem test_meets_recipe_missing : vget live.hbm.recipes 5 [] = [] ∧ live.inHbm 0 1 = true ∧ live.splitBytes ≤ live.liveBytes := by decide +kernel
theorem test_recipe_missing : (live.applyMs { req 0x0C 0 0 0 [] with recipe := 5 }).2.status = 8 := by decide +kernel

/-! ### Controllers (R235, R242-R248, R253, R258) -/

theorem test_meets_mem_ctrl : live.hbm.trainedOnce = false ∧ live.job.attached = false ∧ live.hbm.winSplit.toNat ≠ 1 ∧ 1 * 2 ^ 20 ≤ live.liveBytes ∧
    2047 * 2 ^ 20 > live.liveBytes := by decide +kernel
theorem test_mem_ctrl_hours : ((after (.memCtrlWrite 2 48) live).ctl 2).scrubHours = 48 ∧ ((after (.memCtrlWrite 2 49) live).ctl 2).scrubHours = 12 := by decide +kernel
theorem test_mem_ctrl_busy : ((after (.memCtrlWrite 2 (2047 * 2 ^ 16 + 12)) live).ctl 2).err.getLsbD 6 = true := by decide +kernel
def declaring (y : Nat) : State := regioned.onHbm (fun h => { h with areg := vmod h.areg (4 : Fin 64) (fun r => { r with base := BitVec.ofNat 64 y, size := 64 }) })
theorem test_areg : ((after (.aregDeclare 4 1) (declaring 128)).hbm.areg[4]).valid = true := by decide +kernel
theorem test_areg_overlap : ((after (.aregDeclare 4 1) (declaring 64)).ctl 15).err.getLsbD 5 = true ∧ ((after (.aregDeclare 4 1) (declaring 64)).hbm.areg[4]).valid = false := by decide +kernel
theorem test_areg_range : ((after (.aregDeclare 4 1) (declaring suit0)).ctl 0).err.getLsbD 7 = true := by decide +kernel
/-- Stack 2 has trained; channel 5 retrains, and has failed its check once. -/
def stack (f : HbmCtl → HbmCtl) : State := live.onCtl 2 (fun c => f { c with trained := true })
theorem test_meets_retrain : (stack (fun c => { c with retrainReq := 32 })).pchOut (64 * 2 + 2 * 5) = false ∧
    ((stack (fun c => { c with retrainReq := 32 })).ctl 2).wantsRetrain 5 ((25 : BitVec 8).toInt) = true := by decide +kernel
theorem test_retrain_once_more : ((after (.channelRetrainDone 2 5 false 25) (stack (fun c => { c with retraining := 32 }))).ctl 2).retrainFails = [(5, 1)] := by decide +kernel
theorem test_retrain_fences : ((after (.channelRetrainDone 2 5 false 25) (stack (fun c => { c with retraining := 32, retrainFails := [(5, 1)] }))).ctl 2).fencedCh = 32 := by decide +kernel
theorem test_retrain_passes : ((after (.channelRetrainDone 2 5 true 25) (stack (fun c => { c with retraining := 32, retrainFails := [(5, 1)] }))).ctl 2).retraining = 0 := by decide +kernel
theorem test_mem_retrain : ((after (.memRetrain 2 0x105) live).ctl 2).retrainReq = 32 ∧ ((after (.memRetrain 2 5) live).ctl 2).retrainReq = 0 := by decide +kernel
theorem test_meets_scrub : (stack (fun c => c)).mem.wf = true ∧ (stack (fun c => c)).pchOut (64 * 2 + 5) = false ∧ vget ((stack (fun c => c)).ctl 2).scrubAt 5 0 + 64 ≤ 2 ^ 30 := by decide +kernel
theorem test_scrub_clean : (after (.patrolScrub 2 5 ⟨[], false⟩) (stack (fun c => c))).mem = (stack (fun c => c)).mem ∧ vget ((after (.patrolScrub 2 5 ⟨[], false⟩) (stack (fun c => c))).ctl 2).scrubAt 5 0 = 64 := by decide +kernel
theorem test_correct_one : correctOne (syndromes [(3, 0x41)]) = some [(3, 0x41)] := by decide +kernel

/-! ### The fabric: requests, reads, acknowledgements (R259-R286) -/

/-- A node of rank 0 under job tag 7 in epoch 3, whose rack holds rank 1. -/
def jobbed (s : State) : State := (racked s).onFab (fun f => { f with jobTag := 7, epoch := 3, incarnation := 9 })
def taker : State := jobbed live
/-- A request of rank 1 for the local Suit buffer 0. -/
def ask (kind : BitVec 8) (len : Nat) (data : List Byte) : Packet :=
  { hdr := { kind := kind, jobTag := 7, incarnation := 9, tag := 20, srcSlot := 1, dstSlot := 0, len := BitVec.ofNat 16 len, epoch := 3, laddr := BitVec.ofNat 44 suit0 }, data := data }
theorem test_meets_takes : taker.flt.fenced = false ∧ (ask 2 4 [1, 2, 3, 4]).hdr.jobTag = taker.fab.jobTag ∧ taker.departedRank (taker.srcRank (ask 2 4 [])) = false ∧
    taker.fab.enable = true ∧ (ask 2 4 []).hdr.epoch = taker.fab.epoch := by decide +kernel
theorem test_meets_write : taker.replayOf (ask 2 4 [1, 2, 3, 4]) = none ∧ taker.freeNow suit0 4 ∧ taker.mem.upset = [] ∧
    taker.heldWrite (ask 2 4 [1, 2, 3, 4]) = false ∧ taker.remoteReach suit0 4 = true := by unfold State.freeNow; decide +kernel
theorem test_store_writes : (after (.store (ask 2 4 [1, 2, 3, 4])) taker).wordAt suit0 4 = 0x04030201 := by decide +kernel
def retried (inc : BitVec 16) : Packet := { ask 2 4 [9, 9, 9, 9] with hdr := { (ask 2 4 []).hdr with retry := true, incarnation := inc } }
theorem test_store_once : (after (.store (retried 9)) (after (.store (ask 2 4 [1, 2, 3, 4])) taker)).wordAt suit0 4 = 0x04030201 := by decide +kernel
theorem test_store_lost : (after (.store (retried 8)) taker).wordAt suit0 4 = 0 ∧ (after (.store (retried 8)) taker).tx.map (·.hdr.status) = [9] := by decide +kernel
def resetting : State := { taker with resets := [{ scope := .deck 0, step := 1, began := 0, since := 0, reentry := none, hbmKept := true, cores := [], engines := [], workLost := false, replayed := false }] }
theorem test_meets_held : resetting.heldAt suit0 4 = true := by decide +kernel
/-- A hand held here that stages the same bytes. -/
def stagedHand : HandIn where
  num := 1
  issuer := 1
  issuerNode := ⟨0, 1⟩
  slots := [0]
  entries := [⟨0, 2, 0, 0, false, 4, 0, suit0, [5, 6, 7, 8], 0⟩]
  st := .voted
  asking := []
  stuck := false
def staged : State := taker.onHnd (fun h => { h with inn := [stagedHand] })
theorem test_meets_staged : staged.heldAt suit0 4 = false ∧ staged.stagedHit suit0 4 = true ∧ staged.replayOf (ask 2 4 [1, 2, 3, 4]) = none := by decide +kernel
theorem test_staged_waits : (after (.store (ask 2 4 [1, 2, 3, 4])) staged).mem.cells = [] ∧ (after (.store (ask 2 4 [1, 2, 3, 4])) staged).hnd.waiting.length = 1 := by decide +kernel

theorem test_load_answers : (after (.load (ask 1 8 [])) (holding [1, 2] taker)).tx.map (fun p => (p.hdr.kind, p.data)) = [(0x81, [1, 2, 0, 0, 0, 0, 0, 0])] := by decide +kernel
theorem test_meets_load_nowhere : taker.remoteReach 0x0F00_0000_0000 8 = false := by decide +kernel
theorem test_meets_inval_packet : taker.nodeOfRank (taker.slotRank 1) = some ⟨0, 1⟩ := by decide +kernel
def replaying (tag : BitVec 16) : State := taker.onFab (fun f => { f with replay := [⟨keyNode ⟨0, 1⟩, tag, 0, [], 0⟩] })
theorem test_confirm_frees : (after (.confirm (ask 6 0 [])) (replaying 20)).fab.replay = [] ∧ (after (.confirm (ask 6 0 [])) (replaying 21)).fab.replay.length = 1 := by decide +kernel
theorem test_meets_dropped : ((ask 1 8 []).hdr.jobTag ≠ live.fab.jobTag) ∧ (taker.onFlt (fun f => { f with fenced := true })).flt.fenced = true := by decide +kernel
theorem test_stale : (after (.load (ask 1 8 [])) (taker.onFab (fun f => { f with epoch := 5 }))).fab.staleEpoch = 1 ∧
    (after (.load (ask 1 8 [])) (taker.onFab (fun f => { f with epoch := 4 }))).fab.staleEpoch = 0 := by decide +kernel

/-- A load of core 5 that waits, of 8 bytes that no line caches, and its data. -/
def loadOp (want : List Nat) (st : OpState) : OutOp := { op0 6 .load st with rank := 1, slot := 1, node := ⟨0, 1⟩, addr := BitVec.ofNat 64 remote, want := want, core := some 5 }
def loading (o : OutOp) (st : Stall) : State := jobbed ((running (fun x => { x with stall := some st })).onFab (fun f => { f with ops := [o], nextId := 7 }))
def answer (status : BitVec 8) (data : List Byte) : Packet :=
  { hdr := { kind := 0x81, jobTag := 7, srcSlot := 1, epoch := 3, len := BitVec.ofNat 16 data.length, status := status, laddr := BitVec.ofNat 44 (suit0 + 0x100) }, data := data }
def oneLoad : State := loading (loadOp [] .outstanding) (.load 6 3 8 false false)
theorem test_meets_data : oneLoad.op 6 = some (loadOp [] .outstanding) ∧ (oneLoad.core 5).stall = some (.load 6 3 8 false false) ∧
    oneLoad.answerWaits (loadOp [] .outstanding) = false ∧ oneLoad.departedRank 1 = false ∧ oneLoad.fab.enable = true ∧ oneLoad.fab.jobTag = 7 := by decide +kernel
theorem test_data : (core5 (.data 6 (answer 0 [1, 0, 0, 0, 0, 0, 0, 0x80])) oneLoad).gr 3 = 0x8000_0000_0000_0001 := by decide +kernel
theorem test_data_poison : (core5 (.data 6 (answer 6 [])) oneLoad).cause = 5 := by decide +kernel
theorem test_data_addr : (core5 (.data 6 (answer 4 [])) oneLoad).cause = 3 := by decide +kernel
def twoLines : State := loading (loadOp [(suit0 + 0x100) / 256, (suit0 + 0x200) / 256] .outstanding) (.load 6 3 8 false false)
theorem test_meets_line : (suit0 + 0x100) / 256 ∈ (loadOp [(suit0 + 0x100) / 256, (suit0 + 0x200) / 256] .outstanding).want ∧ twoLines.rrcUsed remote = true ∧
    (loadOp [] .outstanding).noInstall.contains ((suit0 + 0x100) / 256) = false := by decide +kernel
theorem test_line_installed : (after (.data 6 (answer 0 (List.replicate 256 4))) twoLines).fab.rrc.length = 1 := by decide +kernel
theorem test_data_late : (after (.data 6 (answer 0 [])) (loading (loadOp [] (.unknown 0x01 .timeout)) (.load 6 3 8 false false))).fab.lateAck = 1 := by decide +kernel

/-- A remote store of core 5, its acknowledgement, and a fetching ATOM. -/
def storeOp (st : OpState) (retries : Nat) : OutOp := { op0 6 .store st with rank := 1, slot := 1, node := ⟨0, 1⟩, tag := 20, retries := retries, core := some 5 }
def storing (st : OpState) (retries : Nat) : State := loading (storeOp st retries) .submit
def acking (status : BitVec 8) : Packet := { hdr := { kind := 0x82, jobTag := 7, srcSlot := 1, tag := 20, epoch := 3, status := status } }
theorem test_meets_ack : (storing .outstanding 0).ackedOp (acking 0) = some (storeOp .outstanding 0) ∧ (storing .outstanding 0).waitsFor (storeOp .outstanding 0) = false ∧
    (acking 0).hdr.jobTag ≠ 0 ∧ (storing .outstanding 0).departedRank ((storing .outstanding 0).ackRank (acking 0)) = false := by decide +kernel
theorem test_ack_addr : (after (.ack (acking 4)) (storing .outstanding 0)).fab.err = 1 ∧ ((after (.ack (acking 4)) (storing .outstanding 0)).op 6).any (fun o => o.st == .acked 4) = true := by decide +kernel
theorem test_ack_lost : (after (.ack (acking 9)) (storing .outstanding 0)).fab.unknown = 1 := by decide +kernel
theorem test_ack_held : ((after (.ack (acking 0x0D)) (storing .outstanding 3)).op 6).any (fun o => o.held && o.retries == 0) = true := by decide +kernel
theorem test_ack_late : (after (.ack (acking 0)) (storing (.unknown 0x09 .timeout) 0)).fab.lateAck = 1 := by decide +kernel
def atomWaits : State := loading { storeOp .outstanding 0 with kind := .atom, localAddr := suit0 } (.atom 6 3)
theorem test_ack_atom : (core5 (.ack (acking 5)) atomWaits).gr 3 = 5 ∧ (core5 (.ack (acking 5)) atomWaits).stall = none := by decide +kernel
def timed (at_ : Nat) (retries : Nat) : State := (storing .outstanding retries).onCad (fun c => { c with count := 0, phase := at_ })
theorem test_retry : ((after (.retryTimeout 6) (timed 30000 7)).op 6).any (fun o => o.retries == 8) = true ∧
    ((after (.retryTimeout 6) (timed 29999 7)).op 6).any (fun o => o.retries == 8) = false := by decide +kernel
theorem test_retry_ends : (after (.retryTimeout 6) (timed 30000 8)).fab.unknown = 1 := by decide +kernel
theorem test_expiry : (after (.replayEntryExpiry (keyNode ⟨0, 1⟩) 20) ((replaying 20).onCad (fun c => { c with count := 16 }))).fab.replay = [] ∧
    (after (.replayEntryExpiry (keyNode ⟨0, 1⟩) 20) ((replaying 20).onCad (fun c => { c with count := 15, phase := 59999 }))).fab.replay.length = 1 := by decide +kernel

/-! ### Links (R259-R263, R286) -/

def linked (f : Port → Port) : State := live.onPort 2 (fun p => f { p with up := true, trained := true })
set_option maxRecDepth 20000 in
theorem test_flit_good : ((after (.flitReceive 2 ⟨flitBytes 0 0 0 [1, 2, 3], []⟩) (linked (fun p => p))).fab.ports[2]).rxNext = 1 := by decide +kernel
set_option maxRecDepth 20000 in
theorem test_flit_out_of_order : ((after (.flitReceive 2 ⟨flitBytes 5 0 0 [1, 2, 3], []⟩) (linked (fun p => p))).fab.ports[2]).rxNext = 0 := by decide +kernel
set_option maxRecDepth 20000 in
theorem test_meets_flit : (linked (fun p => p)).fab.ports[(2 : Fin 32)].up = true ∧ flitOk (flitBytes 0 0 0 []) = true ∧ flitOk (List.replicate 256 1) = false := by decide +kernel
theorem test_wavelength : ((after (.wavelengthFailing 2 3) (linked (fun p => p))).fab.ports[2]).activeW = 0xF7 := by decide +kernel
theorem test_wavelength_down : ((after (.wavelengthFailing 2 0) (linked (fun p => { p with activeW := 0xF, failed := 0x3F0 }))).fab.ports[2]).up = false := by decide +kernel
theorem test_wavelength_spared : ((after (.wavelengthSpared 2) (linked (fun p => { p with activeW := 0xF7, failed := 8, switching := true, moving := [3] }))).fab.ports[2]).activeW = 0x1F7 := by decide +kernel
theorem test_fab_retry : (after (.fabRetryWrite (2 * 2 ^ 32 + 300000)) live).fab.limit = 2 ∧ (after (.fabRetryWrite (2 * 2 ^ 32 + 300001)) live).fab.err = 16 := by decide +kernel
theorem test_fab_ctrl : (after (.fabCtrlWrite 1) cachedLine).fab.rrc = [] := by decide +kernel
theorem test_port_role : ((after (.portRoleWrite 2 0) (linked (fun p => p))).fab.ports[2]).up = false ∧ ((after (.portRoleWrite 2 0) (attached (linked (fun p => p)))).fab.ports[2]).up = true := by decide +kernel

/-! ### Hands, messages, partners (R290-R314) -/

/-- A hand packet of rank 1 about its hand 1, and a hand of one store entry of 4 bytes for local Suit buffer 0. -/
def handAsk (kind : BitVec 8) (hh : HandHdr) (data : List Byte) : Packet := { ask kind (32 + data.length) data with kh := .hand hh }
def hand1 : HandHdr := { hand := 1, issuer := 1, nent := 1, slots := [0] }
def stageData : List Byte := leBytes 1 2 ++ List.replicate 5 0 ++ leBytes 2 4 ++ leBytes 8 (2 ^ 63 + suit0) ++ leBytes 8 32 ++ List.replicate 8 0 ++ [1, 2, 3, 4]
def stagedEntry : HandEntry := entryOf stageData 0 (fun off n => slice stageData off n)
theorem test_meets_stage : taker.replayOf (handAsk 8 hand1 stageData) = none ∧ taker.handIn 1 1 = none ∧ taker.mem.upset = [] ∧ taker.stagedHands < 256 ∧
    taker.stagedBytes + 4 ≤ 2 ^ 20 ∧ taker.entryCheck stagedEntry = 0 ∧ taker.busyAt .fdie (taker.entryReach stagedEntry).1 (taker.entryReach stagedEntry).2 = false ∧ taker.hnd.inn = [] := by decide +kernel
theorem test_stage : ((after (.hstage (handAsk 8 hand1 stageData)) taker).handIn 1 1).map (·.st) = some .voted ∧ (after (.hstage (handAsk 8 hand1 stageData)) taker).mem.cells = [] := by decide +kernel
theorem test_meets_stage_full : ∃ s : State, 256 ≤ s.stagedHands :=
  ⟨taker.onHnd (fun h => { h with inn := List.replicate 256 stagedHand }), by decide +kernel⟩
theorem test_show : (after (.hshow (handAsk 0x0A hand1 [])) staged).wordAt suit0 4 = 0x08070605 := by decide +kernel
theorem test_meets_show : (staged.votedHere hand1).map (·.entries) = some stagedHand.entries ∧ (∀ e ∈ stagedHand.entries, e.kind = 2) ∧ taker.votedHere hand1 = none := by decide +kernel
theorem test_fold : (after (.hfold (handAsk 0x0B hand1 [])) staged).mem.cells = [] ∧ ((after (.hfold (handAsk 0x0B hand1 [])) staged).handIn 1 1).map (·.st) = some .discarded := by decide +kernel
/-- A hand that this node has issued to slots 1 and 2. -/
def handOut : HandOut where
  num := 4
  core := 5
  dreg := 3
  block := suit0
  entries := []
  slots := [1, 2]
  nodes := [⟨0, 1⟩, ⟨0, 2⟩]
  votes := [2]
  decided := none
  reason := 0
  foldSlot := 0xFF
  acks := []
  silent := []
  fetched := []
  absorbed := false
def issued (votes : List Nat) : State := taker.onHnd (fun h => { h with out := [{ handOut with votes := votes }] })
def vote (code : BitVec 8) : Packet := handAsk 9 { hand := 4, issuer := 0, code := code, reason := 5 } []
theorem test_meets_vote : (issued [2]).handOut 4 = some handOut ∧ handOut.decided = none ∧ (∀ x ∈ handOut.slots, x = 1 ∨ x ∈ handOut.votes) ∧
    (∃ x ∈ [1, 2], x ≠ 1 ∧ x ∉ ([] : List Nat)) := by decide +kernel
theorem test_vote_last : ((after (.hvote (vote 0)) (issued [2])).handOut 4).map (·.decided) = some (some true) := by decide +kernel
theorem test_vote_first : ((after (.hvote (vote 0)) (issued [])).handOut 4).map (·.votes) = some [1] := by decide +kernel
theorem test_vote_fold : ((after (.hvote (vote 1)) (issued [2])).handOut 4).map (fun h => (h.decided, h.reason)) = some (some false, 5) := by decide +kernel
theorem test_fold_req : ((after (.hfoldReq (handAsk 0x0C { hand := 4, issuer := 0, reason := 6 } [])) (issued [])).handOut 4).map (fun h => (h.decided, h.reason)) =
    some (some false, 6) := by decide +kernel
/-- The issuer of rank 1 has departed. -/
def partner1 : Partner where
  identity := 0xABCD
  rank := 1
  port := 2
  model := 0
  incarnation := 3
  lastBeat := 4
  misses := 0
  departed := false
  challenge := none
  attested := false
  clean := false
  readySince := none
  admitted := false
  reported := false
def beside (p : Partner) (s : State) : State := s.onFab (fun f => { f with partners := [p] })
def orphaned : State := beside { partner1 with departed := true } staged
def query : Packet := { handAsk 0x0D hand1 [] with hdr := { (ask 0x0D 32 []).hdr with srcSlot := 2 } }
theorem test_meets_query : orphaned.departedRank (orphaned.slotRank 1) = true ∧ orphaned.departedRank (orphaned.srcRank query) = false ∧ orphaned.replayOf query = none ∧
    ∀ x ∈ orphaned.fab.partners, x.rank.toNat = orphaned.slotRank 1 → x.departed = true := by decide +kernel
theorem test_query : ((after (.hquery query) orphaned).tx.map (fun p => slice p.data 5 1)) = [[2]] := by decide +kernel

/-- A message of 4 bytes to slot 1 of queue 3, which has two slots of 4,096 bytes in Suit buffer 0 and its pips there. -/
def queued (busy : List Nat) (valid : Bool) : State := taker.onHnd (fun h => { h with rxq := vmod h.rxq (3 : Fin 64) (fun _ =>
  { base := BitVec.ofNat 64 suit0, pipBase := 100, suit := 0, slotLog2 := 12, slots := 2, valid := valid, busy := busy }) })
def rankAsk (kind : BitVec 8) (data : List Byte) (slot : BitVec 16) : Packet :=
  { ask kind data.length data with kh := .rank { srcRank := 1, dstRank := 0, queue := 3, slot := slot, srcId := shortId 0xABCD } }
theorem test_meets_msg : replayOf (queued [] true).fab.msgReplay (keyRank 1) 20 = none ∧ (queued [] true).fab.msgReplay.length < 16384 ∧
    (queued [] true).freeNow (suit0 + 4096) 4 ∧ (queued [] true).remoteReach (suit0 + 4096) 4 = true ∧
    (queued [] true).pieceQueue 3 = false ∧ (queued [] true).msgBegun = [] := by unfold State.freeNow; decide +kernel
theorem test_meets_msg_full : 16384 ≤ (List.replicate 16384 (⟨0, 0, 0, [], 0⟩ : Replay)).length := Nat.le_of_eq List.length_replicate.symm
theorem test_msg : (after (.msg (rankAsk 0x10 [1, 2, 3, 4] 1)) (queued [] true)).wordAt (suit0 + 4096) 4 = 0x04030201 ∧
    (after (.msg (rankAsk 0x10 [1, 2, 3, 4] 1)) (queued [] true)).pipUp 0 101 = true := by decide +kernel
theorem test_msg_busy : (after (.msg (rankAsk 0x10 [1, 2, 3, 4] 1)) (queued [1] true)).tx.map (·.hdr.status) = [0x0B] := by decide +kernel
theorem test_msg_bad : (after (.msg (rankAsk 0x10 [1, 2, 3, 4] 2)) (queued [] true)).tx.map (·.hdr.status) = [0x0C] ∧
    (after (.msg (rankAsk 0x10 [1, 2, 3, 4] 1)) (queued [] false)).tx.map (·.hdr.status) = [0x0C] := by decide +kernel

/-- Frames outside any job, from the partner of the identity 0xABCD. -/
def outside (kind : BitVec 8) (data : List Byte) : Packet := { rankAsk kind data 0 with hdr := { (ask kind data.length data).hdr with jobTag := 0 } }
theorem test_meets_service : (outside 0x24 []).hdr.jobTag = 0 ∧ taker.flt.fenced = false ∧ replayOf taker.fab.replay (keyId (shortId 0xABCD)) 20 = none := by decide +kernel
def challenged : State := beside { partner1 with challenge := some 5 } taker
theorem test_meets_response : challenged.partnerOf (shortId 0xABCD) = some { partner1 with challenge := some 5 } := by decide +kernel
def managed : State := (beside { partner1 with attested := true } taker).onFlash (fun f => { f with
  config := some (ConfigRecord.bound [(0x10, 0xABCD)]) })
theorem test_meets_mbx_req : managed.partnerOf (shortId 0xABCD) = some { partner1 with attested := true } ∧
    (vget managed.bnk.mbx 16 Mailbox.reset).msg.own = false ∧ (vget managed.bnk.mbx 16 Mailbox.reset).kept = none := by decide +kernel
theorem test_meets_manager : managed.isJobManager 0xABCD = true := by
  have h : managed.configField 0x10 = some 0xABCD := (State.configField_bound rfl).trans (by decide +kernel)
  simp [State.isJobManager, upTo, List.range, List.range.loop, h]
def report (cd who : Nat) : Packet := rankAsk 0x23 (leBytes 8 cd ++ leBytes 4 who ++ [1, 0, 0, 0]) 0
def reported (n : Nat) : State := taker.onFlt (fun f => { f with entries := [⟨9, n, 1, 2⟩] })
theorem test_meets_suspect : (reported 2).flt.entries.find? (fun e => e.suspect = 9 ∧ e.w = 33 / 16) = some ⟨9, 2, 1, 2⟩ ∧
    taker.flt.entries.find? (fun e => e.suspect = 9 ∧ e.w = 2) = none ∧ taker.flt.entries.length < 256 := by decide +kernel
theorem test_suspect_counts : (after (.suspect (report 33 9)) (reported 2)).flt.entries = [⟨9, 2, 2, 3⟩] ∧ (after (.suspect (report 31 9)) (reported 2)).flt.entries.length = 2 := by decide +kernel
theorem test_witness_free : (after (.witnessEntryFree 9 2) ((reported 2).onCad (fun c => { c with count := 48 }))).flt.entries = [] ∧
    (after (.witnessEntryFree 9 2) ((reported 2).onCad (fun c => { c with count := 47, phase := 59999 }))).flt.entries.length = 1 := by decide +kernel

/-- Heartbeats, hellos, departures (R303-R305). -/
def beatData (n : Nat) (clean : Nat) : List Byte := leBytes 8 n ++ leBytes 4 1 ++ [0, BitVec.ofNat 8 clean, 0, 0] ++ leBytes 32 0xABCD
def beatAsk (kind tag : Nat) (n clean : Nat) : Packet :=
  { ask (BitVec.ofNat 8 kind) 48 (beatData n clean) with hdr := { (ask (BitVec.ofNat 8 kind) 48 []).hdr with jobTag := BitVec.ofNat 16 tag } }
def beating : State := (beside partner1 taker).onCad (fun c => { c with count := 6, phase := 2000 })
theorem test_meets_beat : beating.partner (srIdentity (beatAsk 0x20 7 6 0)) = some partner1 ∧ (beatAsk 0x20 7 6 0).hdr.jobTag = beating.fab.jobTag ∧
    beating.now ≤ (srCount (beatAsk 0x20 7 6 0)).toNat * 60000 + 2000 ∧ partner1.lastBeat.toNat + partner1.misses < (srCount (beatAsk 0x20 7 6 0)).toNat ∧
    taker.partner (srIdentity (beatAsk 0x20 7 6 0)) = none := by decide +kernel
theorem test_beat : ((after (.heartbeat (beatAsk 0x20 7 6 0)) beating).partner 0xABCD).map (·.lastBeat) = some 6 := by decide +kernel
theorem test_beat_late : ((after (.heartbeat (beatAsk 0x20 7 6 0)) (beating.onCad (fun c => { c with phase := 2001 }))).partner 0xABCD).map (·.lastBeat) = some 4 := by decide +kernel
theorem test_meets_miss : partner1.lastBeat ≠ 0 ∧ partner1.lastBeat.toNat + partner1.misses + 1 ≤ beating.beatDue := by decide +kernel
theorem test_miss : ((after (.heartbeatMiss 0xABCD) beating).partner 0xABCD).map (·.misses) = some 1 := by decide +kernel
theorem test_third_miss : ((after (.heartbeatMiss 0xABCD) (beside { partner1 with lastBeat := 2, misses := 2 } beating)).partner 0xABCD).map (·.departed) = some true := by decide +kernel
theorem test_fenced : ((after (.fenced (beatAsk 0x22 7 6 0)) beating).partner 0xABCD).map (·.departed) = some true := by decide +kernel
theorem test_hello : ((after (.hello (beatAsk 0x21 0 6 0x0F)) taker).partner 0xABCD).map (fun p => (p.clean, p.challenge.isSome)) = some (true, true) := by decide +kernel
def discovering (since : Nat) : State := (attached (beside { partner1 with attested := true, clean := true, readySince := some since } taker)).onCad (fun c => { c with count := 1024, phase := 0 })
theorem test_meets_discovery : (discovering 0).cad.count.toNat % 1024 = 0 ∧ (discovering 0).cad.phase = 0 ∧ (discovering 0).job.attached = true := by decide +kernel
theorem test_discovery : ((after .discoveryEpoch (discovering (1022 * 60000))).partner 0xABCD).map (·.admitted) = some true ∧
    ((after .discoveryEpoch (discovering (1022 * 60000 + 1))).partner 0xABCD).map (·.admitted) = some false := by decide +kernel
def updating : State := cachedLine.onFab (fun f => { f with rankUpdate := some ⟨4, 0, [(5, BitVec.ofNat 64 (2 ^ 63 + 3))]⟩ })
theorem test_meets_update : updating.fab.rankUpdate = some ⟨4, 0, [(5, BitVec.ofNat 64 (2 ^ 63 + 3))]⟩ ∧ relReached updating 0 = true := by decide +kernel
theorem test_update : (after .rankUpdateRelease updating).fab.epoch = 4 ∧ (after .rankUpdateRelease updating).fab.rrc = [] := by decide +kernel
theorem test_rxq_busy : (after (.rxqWrite 3 true 0) (queued [1] true)).hnd.err = 8 ∧ (after (.rxqWrite 3 true 0) (queued [] true)).hnd.err = 0 := by decide +kernel

/-! ### Trick (R315-R346) -/

/-- A program: a sum over `n` ranks from rank 0 of one FP64 element, from Suit buffer 0 to the 64 bytes after it; level 1 as a ring with
chunks of 256 bytes; and a broadcast of 64 elements. -/
def prog (kind n fmt count : Nat) : List Byte :=
  leBytes 4 (kind + fmt * 2 ^ 16 + fmt * 2 ^ 24) ++ leBytes 4 (1 + 2 ^ 16) ++ leBytes 4 0 ++ leBytes 4 n ++ leBytes 8 count ++ leBytes 8 0 ++ leBytes 4 64 ++
  List.replicate 28 0 ++ leBytes 8 suit0 ++ leBytes 8 (suit0 + 0x1000) ++ leBytes 2 0x1000 ++ List.replicate 14 0 ++ List.replicate 96 0 ++
  List.replicate 32 0 ++ (leBytes 4 1 ++ leBytes 4 256 ++ leBytes 8 (suit0 + 0x10000) ++ leBytes 4 0x8000 ++ List.replicate 12 0) ++ List.replicate 64 0
/-- A launch record at Suit buffer 0, offset 0x8000, of program 2 as instance 5 with tag 6. -/
def launch (m : List Byte) (rel : Nat) : State := (attached (holding [] (taker.onTrk (fun t => { t with
  runBit := true, queue := [⟨suit0 + 0x8000, false, taker.fab.ranks⟩], progs := vput t.progs (2 : Fin 64) m })))).writeMem (suit0 + 0x8000)
    (leBytes 4 2 ++ leBytes 4 5 ++ leBytes 8 rel ++ leBytes 4 6)
theorem test_meets_queue_room : taker.trk.queued < 16 ∧ 16 ≤ (taker.onTrk (fun t => { t with queue := List.replicate 16 ⟨0, false, []⟩ })).trk.queued ∧
    ∀ c ∈ taker.trk.running, (c.phase = .blocked → taker.trk.mayStart = false) ∧ (c.phase = .released → taker.now < c.firstEffect) := by decide +kernel
theorem test_meets_launch : (launch (prog 1 1 0 1) 0).readBlock ((launch (prog 1 1 0 1) 0).sharedExtent (suit0 + 0x8000) 64) (suit0 + 0x8000) 64 =
    .ok (leBytes 4 2 ++ leBytes 4 5 ++ leBytes 8 0 ++ leBytes 4 6 ++ List.replicate 44 0) := by rfl
theorem test_meets_check : (launch (prog 1 1 0 1) 0).trkCheck taker.fab.ranks (prog 1 1 0 1) 0 = 0 ∧ (launch [] 0).trkCheck taker.fab.ranks [] 0 ≠ 0 := by decide +kernel
theorem test_launch_waits : (after .trickLaunchHead (launch (prog 1 1 0 1) (2 * 65536))).trk.running.map (fun c => (c.phase, c.firstEffect)) = [(.waitRelease, 120016)] := by decide +kernel
theorem test_launch_late : (after .trickLaunchHead ((launch (prog 1 1 0 1) 0).onCad (fun c => { c with phase := 1 }))).trk.running.map (fun c => (c.phase, c.late, c.firstEffect)) =
    [(.released, true, 17)] := by decide +kernel
theorem test_launch_bad : (after .trickLaunchHead (launch [] 0)).trk.cq.tail = 1 := by decide +kernel

/-- Instance 5 of program 2 runs on ranks 0 and 1: a sum, or a broadcast from rank 0. -/
def members : List TrkMember := [⟨0, ⟨0, 0⟩⟩, ⟨1, ⟨0, 1⟩⟩]
def collective (m : List Byte) : Collective := { newCollective 2 5 6 0 false m members 0 with phase := .running }
def tricking (c : Collective) : State := taker.onTrk (fun t => { t with runBit := true, running := [c] })
def frame (n : BitVec 8) (count : BitVec 16) (data : List Byte) : Packet := { ask 0x18 data.length data with
  kh := .trick { srcRank := 1, inst := 5, progSlot := 2, frame := n, level := 1, count := count } }
theorem test_meets_frame : (tricking (collective (prog 1 2 0 1))).col 2 5 = some (collective (prog 1 2 0 1)) ∧ (collective (prog 1 2 0 1)).posOf 1 = some 1 ∧
    replayOf taker.fab.replay (keyRank 1) 20 = none ∧ taker.trk.done.contains (2, 5) = false ∧ taker.col 2 5 = none := by decide +kernel
theorem test_frame_early : (after (.trkCredit (frame 1 1 [])) taker).trk.early.length = 1 := by decide +kernel
theorem test_frame_stale : (after (.trkCredit (frame 1 1 [])) (taker.onTrk (fun t => { t with done := [(2, 5)] }))).trk.stale = 1 := by decide +kernel
theorem test_frame_abort : (after (.trkAbort (frame 4 0 [])) (tricking (collective (prog 1 2 0 1)))).trk.running = [] := by decide +kernel
theorem test_meets_chunk : ((collective (prog 1 2 0 1)).chunkOf (trkHdr 0 1 0 0 0 0) 1).isSome = true := by decide +kernel
theorem test_meets_chunk_again : ({ collective (prog 1 2 0 1) with got := (collective (prog 1 2 0 1)).plan }.chunkOf (trkHdr 0 1 0 0 0 0) 1).any
    (fun x => (collective (prog 1 2 0 1)).plan.contains x) = true := by decide +kernel
/-- A broadcast from rank 0 that may detour, as it stands at its start and since `n` ac. -/
def broadcast (n : Nat) : Collective := (collective (List.set (prog 0x12 2 0x10 64) 1 2)).watch n
theorem test_meets_silent : (broadcast 0).phase = .running ∧ (broadcast 0).posOf 1 = some 1 ∧ (broadcast 0).alone.any (fun x => x.2 == (1, 0)) = true ∧
    0 + tSilent (broadcast 0).image * 60000 ≤ ((tricking (broadcast 0)).onCad (fun c => { c with count := 16 })).now := by decide +kernel
theorem test_silent : (after (.rankSilent 2 5 1) ((tricking (broadcast 0)).onCad (fun c => { c with count := 16 }))).trk.cq.tail = 1 ∧
    (after (.rankSilent 2 5 1) ((tricking (broadcast 1)).onCad (fun c => { c with count := 16 }))).trk.cq.tail = 0 := by decide +kernel
theorem test_meets_detour : ((broadcast 0).sendable.find? (fun x => x.level = 1 && x.dst = 1 &&
    (broadcast 0).waits.any (fun y => y.1 = x && decide (y.2 + tDetourAc (broadcast 0).image ≤ 60000 * 16)))).isSome = true ∧
    tDetour (broadcast 0).image = true ∧ (tricking (broadcast 0)).trkBusy (broadcast 0) = false := by decide +kernel
/-- A Deck in reset holds a collective's chunks; a launch of the table of ranks as it was (R316). -/
theorem test_meets_trick_busy : (resetting.trkBusy (collective (prog 1 2 0 1))) = true ∧ (∃ x ∈ (collective (prog 1 2 0 1)).extents, resetting.heldAt x.1 x.2 = true) ∧
    (tricking (collective (prog 1 2 0 1))).trkBusy (collective (prog 1 2 0 1)) = false := by decide +kernel

/-! ### Checkpoints (R347-R368) -/

/-- A Decant record of step 3 at Suit buffer 0, whose set names 256 bytes of Deck 0's HBM window. -/
def decantBytes (rel budget : Nat) : List Byte := leBytes 8 3 ++ leBytes 8 rel ++ leBytes 8 (suit0 + 0x1000) ++ leBytes 2 1 ++ leBytes 2 budget ++ leBytes 4 1 ++
  leBytes 2 4 ++ leBytes 2 8 ++ leBytes 2 (0x1000 + 7) ++ List.replicate 26 0
def checkpoint (rel budget : Nat) (f : Checkpoint → Checkpoint) : State :=
  ((holding (decantBytes rel budget) (attached taker)).writeMem (suit0 + 0x1000) (leBytes 8 0 ++ leBytes 8 256)).onHbm (fun h => { h with sachetNow := 2 }) |>.onCkp f
def record3 (rel budget : Nat) : DecantRec := decantRec suit0 (decantBytes rel budget)
theorem test_meets_decant : (checkpoint 0 0 (fun k => { k with queue := [suit0] })).ckp.queue = [suit0] ∧
    decantRec suit0 ((checkpoint 0 0 id).readMem suit0 64) = record3 0 0 ∧ (checkpoint 0 0 id).decantCheck (record3 0 0) false = 0 ∧
    (checkpoint 0 0 (fun k => { k with lastStep := some 3 })).decantCheck (record3 0 0) false ≠ 0 := by decide +kernel
theorem test_decant_lag : (after .decantCheck (checkpoint (65536 + 5) 0 (fun k => { k with queue := [suit0] }))).ckp.firstEffect = 60037 := by decide +kernel
theorem test_decant_order : (after .decantCheck (checkpoint 0 0 (fun k => { k with queue := [suit0], lastStep := some 3 }))).ckp.cur = none := by decide +kernel
def copying (fenced : Bool) : State := (checkpoint 0 5 (fun k => { k with
  phase := .copying, cur := some (record3 0 5), st := .decanting, set := [⟨0, 256, 0⟩], snap := some (live.writeMem 3 [9]).mem })).onCtl 0 (fun c => { c with fencedCh := if fenced then 0xFFFF_FFFF else 0 })
theorem test_meets_copying : (copying true).setFenced (copying true).ckp.set = true ∧ (copying false).setFenced (copying false).ckp.set = false := by decide +kernel
theorem test_meets_twins : (List.range 256).all (fun i => (copying false).twinOf i == (copying false).twinOf 0 + i) = true := by decide +kernel
theorem test_copy : (after .decantComplete (inSlot (copying false))).mem.get ((copying false).twinOf 3) = 9 ∧ (after .decantComplete (inSlot (copying false))).ckp.st = .held ∧
    (after .decantComplete (copying false)).ckp.st = .decanting := by decide +kernel
theorem test_dry_start : (after .dryDownStart (checkpoint 0 5 (fun k => { k with st := .held, set := [⟨0, 256, 0⟩], dryReady := some (record3 0 5), dryReadyAt := 0 }))).ckp.st = .draining := by decide +kernel
def drying (pause : Bool) : State := checkpoint 0 5 (fun k => { k with
  dryPause := pause, st := .draining, set := [⟨0, 256, 0⟩], dry := some { rec_ := record3 0 5, pieces := [.toSend 0], cd := 0, spent := 0 } })
theorem test_meets_dry : (drying true).dryHeld = true ∧ (drying false).dryHeld = false ∧ (drying false).departedRank 1 = false ∧ (drying false).nodeOfRank 1 = some ⟨0, 1⟩ ∧
    (beside { partner1 with departed := true } (drying false)).departedRank 1 = true := by decide +kernel
theorem test_dry_lost : (after .dryDownCd (beside { partner1 with departed := true } (drying false))).ckp.err.getLsbD 2 = true := by decide +kernel
theorem test_dry_pause : (after (.ckpCtrlWrite 1) live).ckp.dryPause = true := by decide +kernel
def restoring (copying : Bool) : State := checkpoint 0 0 (fun k => { k with st := .verified, set := [⟨0, 256, 0⟩], commit := some ⟨3, 0, copying, false, 4⟩ })
theorem test_meets_restore : relReached (restoring false) 0 = true := by decide +kernel
theorem test_restore : (after .restoreCopy ((restoring false).onMem (fun m => m.put ((restoring false).twinOf 7) 5))).mem.get ((restoring false).keyOf 7) = 5 := by decide +kernel
theorem test_restore_done : (after .restoreCopyDone (restoring true)).ckp.st = .drained ∧ (after .restoreCopyDone (restoring true)).ckp.answers = [(4, 0)] := by decide +kernel

/-! ### Faults and resets (R369-R393, R407-R411) -/

/-- A Tableau whose head runs, its fault seen before or not. -/
def faulting (seen : Bool) : State := (tableau {}).onFlt (fun f => { f with faulted := if seen then [(.tbl, 3, 0)] else [] })
theorem test_meets_replay : Block.engKind .tbl = some .tbl ∧ ((faulting false).engine .tbl 3).fifo ≠ [] ∧ ((faulting false).engine .tbl 3).head.phase = .running ∧
    (3 : Nat) < EngKind.count .tbl ∧ (faulting false).flt.faulted.contains (.tbl, 3, 0) = false ∧ (faulting true).flt.faulted.contains (.tbl, 3, 0) = true := by decide +kernel
theorem test_replay : (after (.arithReplay .tbl ⟨3, false⟩) (faulting false)).flt.log.map (fun r => (r.cls, r.replayed)) = [(.corrected, true)] := by decide +kernel
theorem test_meets_core_replay : (regs 0 0).coreIssues 5 = true := by decide +kernel
theorem test_core_replay : (core5 (.arithReplay .dlr ⟨5, false⟩) (regs 0 0)).faulted = true := by decide +kernel
theorem test_meets_sram : (live.storeOf suit0).map (·.2.2) = some (.suit 0) ∧ (Store.suit 0).block = some (.suit, 0) ∧ (Store.suit 0).plain = true := by decide +kernel
theorem test_sram_poisons : (after (.sramError (.store (BitVec.ofNat 64 (suit0 + 70))) true) live).mem.isPoison (suit0 / 64 + 1) = true := by decide +kernel
theorem test_sram_rrc : (after (.sramError (.rrc ((suit0 + 0x100) / 256)) true) cachedLine).fab.rrc = [] := by decide +kernel
theorem test_sram_table : (after (.sramError .fdieTable true) live).boot.stage = 3 := by decide +kernel
def spares (n : Nat) (repairing : Bool) : State := live.onFlt (fun f => { f with spares := vput f.spares (4 : Fin 14) (BitVec.ofNat 4 n), repairing := if repairing then [(4, 0)] else [] })
theorem test_meets_lane : (spares 7 false).linkInReset 4 = false ∧ ((spares 7 false).flt.spares[(4 : Fin 14)]).toNat < 8 ∧ 8 ≤ ((spares 8 false).flt.spares[(4 : Fin 14)]).toNat := by decide +kernel
theorem test_lane : (after (.dlinkLaneRepair 4) (spares 7 false)).flt.repairing = [(4, 0)] ∧ (after (.dlinkLaneRepair 4) (spares 8 false)).flt.repairing = [] := by decide +kernel
theorem test_lane_done : (after (.dlinkLaneRepairDone 4) (spares 2 true)).flt.spares[4] = 3 := by decide +kernel
theorem test_lockstep : (after .lockstep live).flt.fenced = true ∧ (after .lockstep (live.onBoot (fun b => { b with ready := false }))).boot.failCode = 4 := by decide +kernel
theorem test_fence_write : (after .fltFenceWrite live).flt.fenced = true := by decide +kernel
theorem test_witness_en : (after (.witnessEnWrite 0) live).flt.witnessEn = false ∧ (after (.witnessEnWrite 0) live).flt.fenced = false := by decide +kernel

/-- A reset of Deck 1 at a step. -/
def deckReset (step : Nat) (kept : Bool) : State := { attached (running id) with
  resets := [{ scope := .deck 1, step := step, began := 0, since := 0, reentry := some 1, hbmKept := kept, cores := [60], engines := [], workLost := false, replayed := false }] }
theorem test_meets_reset : live.boot.ready = true ∧ live.scopeExists (.deck 1) = true ∧ live.resets = [] := by decide +kernel
theorem test_reset_stops : ((after (.partialReset (.deck 0) false) (regs 0 0)).core 5).halted = true ∧ ((after (.partialReset (.deck 1) false) (regs 0 0)).core 5).halted = false := by decide +kernel
theorem test_meets_quiesce : ((deckReset 1 true).resetAt (.deck 1) 1).isSome = true ∧ (∀ h ∈ (deckReset 1 true).hnd.inn, h.st ≠ .voted) ∧ (∃ h ∈ staged.hnd.inn, h.st = .voted) := by decide +kernel
/-- Quiesced at a phase, and the time that passes after it: 2,000 ac of memory, then 1,000 ac held in reset (R407, R408). -/
def quiesced (p : Nat) : State := after (.resetQuiesceDone (.deck 1)) ((deckReset 1 true).onCad (fun c => { c with phase := p }))
def waited (p n : Nat) : State := ((quiesced p).onCad (fun c => { c with phase := p + n })).resetsTime
theorem test_quiesce : (quiesced 0).resets.map (·.step) = [2] ∧ (waited 0 1999).resets.map (·.step) = [2] ∧ (waited 0 2000).resets.map (·.step) = [3] ∧
    (waited 0 3000).resets.map (fun r => (r.step, r.reentry)) = [(4, some 1)] ∧ (waited 51001 3000).resets.map (·.reentry) = [some 2] := by decide +kernel
theorem test_meets_reset_time : ((quiesced 0).resetAt (.deck 1) 2).isSome = true ∧ ((deckReset 3 true).resetAt (.deck 1) 3).isSome = true := by decide +kernel
theorem test_meets_reentry : ((deckReset 4 false).resetAt (.deck 1) 4).isSome = true ∧ 1 * 60000 ≤ ((deckReset 4 false).onCad (fun c => { c with count := 1 })).now := by decide +kernel
theorem test_reentry : (after (.resetReentry ⟨.deck 1, true⟩) ((deckReset 4 false).onCad (fun c => { c with count := 1 }))).resets.map (·.marker) = [some 1] := by decide +kernel
/-- A reset of Deck 1 at a step, with its handshake to end, and stacks still to train. -/
def realigning (step : Nat) (kept : Bool) (f : ResetRun → ResetRun) : State := ({ deckReset step kept with resets := (deckReset step kept).resets.map f }).onCad (fun c => { c with
  st := .freeRun, count := 5, phase := 1024 })
def shakingAgain (tries : Nat) (kept : Bool) : State := realigning 4 kept (fun r => { r with marker := some 1, attempts := tries })
def settled (ks : List Nat) : State := realigning 5 false (fun r => { r with toTrain := ks })
theorem test_meets_realign : (shakingAgain 2 true).cad.st ≠ .aligning ∧ ((1 : Count).toNat + 4) * 60000 + 1024 ≤ (shakingAgain 2 true).now ∧ (Scope.deck 1).die = 1 := by decide +kernel
theorem test_realign : ((after (.alignmentHandshake 1) (shakingAgain 0 true)).resets.map (·.step)) = [5] ∧
    ((after (.alignmentHandshake 2) (shakingAgain 0 true)).resets.map (fun r => (r.attempts, r.marker))) = [(1, some 6)] ∧
    (after (.alignmentHandshake 2) (shakingAgain 2 true)).boot.scopeReset.isSome = true := by decide +kernel
theorem test_step_five : (after (.alignmentHandshake 0) (shakingAgain 0 false)).mem.isPoison (4 * 2 ^ 30) = true ∧
    (after (.alignmentHandshake 0) (shakingAgain 0 true)).mem.isPoison (4 * 2 ^ 30) = false ∧
    ((after (.alignmentHandshake 0) (shakingAgain 0 true)).ctl 4).retraining = 0xFFFF_FFFF ∧
    (after (.alignmentHandshake 0) (shakingAgain 0 true)).resets.map (·.links) = [deckLinks 1] := by decide +kernel
theorem test_meets_return : ((realigning 6 true id).resetAt (.deck 1) 6).isSome = true ∧ vget (realigning 6 true id).inv.dlr 60 .absent ≠ .absent := by decide +kernel
theorem test_return : ((after (.returnToService (.deck 1) []) (realigning 6 true id)).core 60).runBit = true ∧
    (after (.returnToService (.deck 1) []) (realigning 6 true id)).resets = [] ∧
    (after (.returnToService (.deck 1) []) (settled [4])).resets = (settled [4]).resets := by decide +kernel
/-- A stack that trains anew under a reset (R21, R401). -/
theorem test_meets_reset_training : (∃ r ∈ (settled [4]).resets, (4 : Fin 16).val ∈ r.toTrain) ∧ vget (settled [4]).boot.attempts 4 0 = 0 ∧
    vget ((settled [4]).onBoot (fun b => { b with attempts := vput b.attempts (4 : Fin 16) 3 })).boot.attempts 4 0 = 3 := by decide +kernel
theorem test_reset_training : ((after (.hbmTrainingDone 4 true 25) (settled [4])).resets.map (fun r => (r.toTrain, r.step))) = [([], 6)] ∧
    ((after (.hbmTrainingDone 4 true 25) (settled [4])).ctl 4).trained = true := by decide +kernel
/-- A Package reset waits for a voted hand (R378). -/
theorem test_meets_package_wait : staged.packageResetting = false ∧ (∃ h ∈ staged.hnd.inn, h.st = .voted) ∧
    (∀ h ∈ staged.hnd.inn, ∀ g ∈ staged.hnd.inn, h.issuer = g.issuer → h.num = g.num → h = g) := by decide +kernel
def packageWaiting : State := after .packageReset staged
theorem test_package_waits : packageWaiting.packageResetting = true ∧ packageWaiting.hnd.inn.map (·.st) = [.voted] := by decide +kernel
theorem test_meets_package_quiesce : (packageWaiting.resetAt .package 1).isSome = true := by decide +kernel
theorem test_package_ends : (after (.resetQuiesceDone .package) (packageWaiting.onHnd (fun h => { h with inn := [] }))).boot.scopeReset.map (fun r => (r.code, r.workLost)) =
    some (0x0107, true) := by decide +kernel
theorem test_package_reset : (after .packageReset (attached live)).bnk.job.attached = false ∧ (after .packageReset live).fab.incarnation = 1 := by decide +kernel

/-! ### Bring-up and power (R394-R405, R462-R473) -/

theorem test_supply : (after (.supplyRamp 4400) State.reset).boot.pwrOk = true ∧ (after (.supplyRamp 4399) State.reset).boot.pwrOk = false := by decide +kernel
theorem test_meets_undervoltage : live.boot.supply = true ∧ live.boot.rstN = true ∧ live.awake = true := by decide +kernel
theorem test_undervoltage : (after .undervoltage live).boot.supply = false := by decide +kernel
theorem test_rst_assert : (after .rstNAssert (attached live)).bnk.job.attached = false := by decide +kernel
def powered : State := State.reset.onBoot (fun b => { b with supply := true, pwrOk := true })
theorem test_meets_release_pin : powered.boot.rstN = false ∧ powered.boot.supply = true ∧ powered.pwr.tripped = false ∧ powered.boot.pwrOk = true := by decide +kernel
theorem test_rst_release : (after (.rstNRelease 1) powered).boot.stage = 3 := by decide +kernel
def stage (n : BitVec 4) (s : State) : State := s.onBoot (fun b => { b with stage := n, ready := false })
theorem test_meets_rom : (stage 3 live).awake = true ∧ (stage 3 live).boot.stage = 3 ∧ (stage 3 live).boot.mbxWait = false := by decide +kernel
theorem test_no_image : (after (.firmwareVerified false) (stage 3 live)).boot.mbxWait = true := by decide +kernel
theorem test_bad_image : live.imageCheck [] ≠ none := by decide +kernel
/-- A stack that trains, by the attempts before. -/
def training (n : Nat) : State := (stage 7 live).onBoot (fun b => { b with stacksLeft := [2, 3], attempts := vput b.attempts (2 : Fin 16) n })
theorem test_meets_training : (training 3).boot.stage = 7 ∧ (2 : Nat) ∈ (training 3).boot.stacksLeft ∧ vget (training 3).boot.attempts 2 0 = 3 := by decide +kernel
theorem test_training : ((after (.hbmTrainingDone 2 true 25) (training 1)).ctl 2).rate = 1 ∧ (after (.hbmTrainingDone 2 false 25) (training 3)).boot.stacksLeft = [3] := by decide +kernel
theorem test_meets_port_training : (live.fab.ports[(2 : Fin 32)]).role ≠ 0 ∧ live.pwr.detached.getLsbD 0 = false ∧ 7 ≤ live.boot.stage.toNat ∧ (live.fab.ports[(2 : Fin 32)]).trained = false := by decide +kernel
/-- The test set is loaded and its signature good or not; it names one digest for the F-die, one for the P-die and one for the Tableaux. -/
def answering (good : Bool) : State := (stage 8 live).onBoot (fun b => { b with
  setGood := good, testSet := ⟨[⟨.fdie, [], [], 5⟩, ⟨.pdie, [], [], 6⟩, ⟨.tbl, [], [], 7⟩], [], []⟩ })
theorem test_known_answers : (after (.knownAnswerRun ⟨none, none⟩ []) (answering true)).boot.ready = true ∧ (after (.knownAnswerRun ⟨some 5, some 6⟩ []) (answering true)).boot.ready = true ∧
    (after (.knownAnswerRun ⟨none, none⟩ []) (answering false)).boot.failCode = 2 ∧ (after (.knownAnswerRun ⟨none, some 5⟩ []) (answering true)).boot.failCode = 3 ∧
    (after (.knownAnswerRun ⟨none, none⟩ [(.tbl 0 3, 8)]) (answering true)).flash.inventory = [.unit (.tbl 0 3)] := by decide +kernel

theorem test_detach : ((after (.blockDetach 0) (linked id)).fab.ports[2]).up = false ∧ ((after (.blockDetach 1) (linked id)).fab.ports[2]).up = true := by decide +kernel
theorem test_reattach : (after (.blockReattach 1) (live.onPwr (fun p => { p with detached := 6 }))).pwr.detached = 4 := by decide +kernel
/-- The third critical sample of the HBM, at 95 degrees and below. -/
def hot (n : Nat) : State := live.onPwr (fun p => { p with critical := vput p.critical (6 : Fin 7) n })
theorem test_meets_thermal : (hot 2).pwr.tripAt = none ∧ 2 ≤ (hot 2).pwr.critical[(6 : Fin 7)] := by decide +kernel
theorem test_thermal : (after (.thermalSample 0 0 0 95) (hot 2)).flt.fenced = true ∧ (after (.thermalSample 0 0 0 95) (hot 1)).flt.fenced = false ∧
    (after (.thermalSample 0 0 0 94) (hot 2)).flt.fenced = false := by decide +kernel
def throttling (level calm : Nat) : State := live.onPwr (fun p => { p with level := level, calm := calm })
theorem test_throttle_up : (after (.throttleUpdate 0 0 0 0 761) (throttling 4 0)).pwr.level = 5 ∧ (after (.throttleUpdate 0 0 0 0 760) (throttling 4 0)).pwr.level = 4 ∧
    (after (.throttleUpdate 0 0 0 0 761) (throttling 27 0)).pwr.level = 27 := by decide +kernel
theorem test_throttle_down : (after (.throttleUpdate 0 0 0 0 0) (throttling 4 3)).pwr.level = 3 ∧ (after (.throttleUpdate 0 0 0 0 0) (throttling 4 2)).pwr.level = 4 := by decide +kernel
theorem test_duty_slot : (after .dutySlot (live.onCad (fun c => { c with phase := 1000 }))).pwr.slotOn = true ∧ (after .dutySlot live).pwr.slotOn = false := by decide +kernel
theorem test_vin_low : (after (.vinLow 4599) live).pwr.err = 8 ∧ (after (.vinLow 4600) live).pwr.err = 0 := by decide +kernel

/-! ### Mailboxes and firmware commands (R418-R446) -/

/-- A request, and a mailbox that has it in hand or holds it with OWN 1. -/
def ask4 (cmd : BitVec 16) (arg : BitVec 64) (payload : List Byte) : MbxMsg :=
  { seq := 7, cmd := cmd, status := 0, reqLen := BitVec.ofNat 16 payload.length, rspLen := 0, part := 0, arg := arg, own := true, last := true, payload := payload }
def inHand (m : Fin 32) (x : MbxMsg) (s : State) : State := s.onMbx m (fun b => { b with msg := x, inHand := some x })
def posted (m : Fin 32) (x : MbxMsg) (s : State) : State := s.onMbx m (fun b => { b with msg := x })
/-- The status that mailbox 2 answers. -/
def answered (c : Instr) (s : State) : BitVec 16 × Bool := let b := ((after c s).mbx 2).msg; (b.status, b.own)
theorem test_handoff : ((after (.mailboxHandoff 2 3 ⟨1, 0x0101, 0, 0, 0, true, []⟩) live).mbx 2).msg.own = true ∧ (after (.mailboxHandoff 2 3 ⟨1, 0x0101, 0, 0, 0, true, []⟩) (posted 2 (ask4 0x0101 0 []) live)).bnk.dropped = 3 := by decide +kernel
def firmware (s : State) : State := s.onBoot (fun b => { b with running := [0] })
theorem test_meets_poll : (firmware live).polls = true := by decide +kernel
theorem test_poll_takes : (((after .mailboxPoll (firmware (posted 2 (ask4 0x0101 0 []) live))).mbx 2).inHand).isSome = true := by decide +kernel
theorem test_meets_take : ((posted 2 (ask4 0x0101 0 []) live).mbx 2).msg.own = true ∧ ((posted 2 (ask4 0x0101 0 []) live).mbx 2).inHand = none ∧
    ((posted 2 (ask4 0x0101 0 []) live).mbx 2).xfer = none ∧ (0x0101 : Nat) ∈ mbxCommands ∧ multiPart 0x0101 = false ∧ stateCommand 0x0101 = false ∧
    stateCommand 0x0A01 = true ∧ multiPart 0x0A01 = false ∧ badArg (ask4 0x0101 0 []) = false ∧ hostOnly (ask4 0x0901 0 []) = true ∧
    (0x0105 : Nat) ∉ mbxCommands := by decide +kernel
theorem test_take_statuses : let st (m : Fin 32) (cmd : BitVec 16) (f : State → State) : Nat := let s := f (posted m (ask4 cmd 0 []) live); ((s.takeUp m).mbx m).msg.status.toNat
    st 2 0x0105 id = 0x0100 ∧ st 2 0x0904 id = 0x0100 ∧ st 17 0x0901 id = 0x0104 ∧ st 2 0x0101 (fun s => s.onBoot (fun b => { b with mbxWait := true })) = 0x0107 ∧
    st 2 0x0A01 (fun s => s.onBnk (fun b => { b with stateCmd := some 5 })) = 0x0103 := by decide +kernel
theorem test_take_long : (((posted 2 { ask4 0x0101 0 [] with reqLen := 4065 } live).takeUp 2).mbx 2).msg.status = 0x0101 := by decide +kernel

theorem test_meets_in_hand : (inHand 2 (ask4 0x0101 0 []) live).inHand 2 0x0101 = some (ask4 0x0101 0 []) ∧ ((inHand 2 (ask4 0x0101 0 []) live).mbx 2).discard = false := by decide +kernel
def listed : State := (inHand 2 (ask4 0x0102 0 []) live).onFlash (Flash.putRecords [.channel 1 2])
theorem test_meets_clear : listed.inventoryRecords.length = 1 := by
  simp [listed, State.inventoryRecords, State.onFlash]
theorem test_clear_none : answered (.inventoryClear 2) (inHand 2 (ask4 0x0102 0 []) live) = (0x0101, false) := by decide +kernel
def configBytes (field : Nat) (v : Nat) : List Byte := leBytes 8 field ++ leBytes 32 v
theorem test_meets_config : (configBytes 5 24).length = 40 ∧ configOk (configEntryOf (configBytes 5 24) 0) = true ∧ configOk (configEntryOf (configBytes 5 49) 0) = false ∧
    (configEntryOf (configBytes 4 0) 0).1 = 4 := by decide +kernel
theorem test_config_attached : answered (.configWrite 2) (attached (inHand 2 (ask4 0x0202 0 (configBytes 4 0)) live)) = (0x0106, false) := by decide +kernel
theorem test_config_range : answered (.configWrite 2) (inHand 2 (ask4 0x0202 0 (configBytes 5 49)) live) = (0x0101, false) := by decide +kernel
theorem test_meets_reg_good : live.regRefused 2 false 0x0F00_0001_60C0 = none ∧ live.bankerRead 0x0F00_0001_60C0 = some 0 ∧ live.regRefused 2 true 0x0F00_0001_60C0 = none ∧
    (live.regRefused 2 true 0x0F00_0001_6000).isSome = true := by decide +kernel
theorem test_reg_length : answered (.regAccess 2) (inHand 2 (ask4 0x0501 0 [1]) live) = (0x0101, false) := by decide +kernel
theorem test_log_read : answered (.logRead 2) (inHand 2 (ask4 0x0601 0 []) live) = (0, false) := by decide +kernel
theorem test_attest_length : answered (.attest 2) (inHand 2 (ask4 0x0801 0 [1]) live) = (0x0101, false) := by decide +kernel
theorem test_meets_stage_image : (ask4 0x0901 0 [1]).payload.length ≤ 2 ^ 24 := by decide +kernel
theorem test_activate_unstaged : answered (.fwActivate 2) (inHand 2 (ask4 0x0902 0 []) live) = (0x0108, false) := by decide +kernel
theorem test_activate : (after (.fwActivate 2) ((inHand 2 (ask4 0x0902 0 []) live).onBnk (fun b => { b with staged := true }))).flash.boot.active = 1 := by decide +kernel
theorem test_boot_load_late : answered (.bootLoad 2) (inHand 2 (ask4 0x0904 0 []) live) = (0x0100, false) := by decide +kernel
theorem test_meets_scope : scopeOfArg 0x0001_0003 = some (.deck 1) ∧ scopeOfArg 4 = some .package ∧ scopeOfArg 0x0004_0003 = none ∧ live.bnk.resetOf = none := by decide +kernel
theorem test_scoped_reset : (after (.scopedReset 2) (inHand 2 (ask4 0x0A01 0x0001_0003 []) live)).bnk.resetOf = some (.deck 1) := by decide +kernel
theorem test_scoped_reset_ends : answered (.scopedReset 2) ((inHand 2 (ask4 0x0A01 0x0001_0003 []) live).onBnk (fun b => { b with resetOf := some (.deck 1) })) = (0, false) := by decide +kernel
theorem test_token_short : answered (.debugUnlockToken 2) (inHand 2 (ask4 0x0B01 1 []) live) = (0x0101, false) := by decide +kernel
theorem test_token_attached : answered (.debugUnlockToken 2) (attached (inHand 2 (ask4 0x0B01 1 ([0, 0, 1, 0] ++ List.replicate (68 + sigLen) 0)) live)) = (0x0106, false) := by decide +kernel

/-! ### Jobs (R300, R429-R433) -/

/-- An attach stream of one region, one rank and an image of 64 bytes at 0x1000 that names core 5. -/
def image : List Byte := leBytes 2 1 ++ List.replicate 30 0 ++ [0x20] ++ List.replicate 31 0
def stream (ver : List Byte) (digest : BitVec 256) (start : Nat) : List Byte :=
  leBytes 2 7 ++ [0, 1] ++ leBytes 4 1 ++ leBytes 4 1 ++ leBytes 4 0 ++ leBytes 8 9 ++ leBytes 8 0x1000 ++ leBytes 8 64 ++ digestBytes digest ++ List.replicate 32 0 ++
  leBytes 8 start ++ List.replicate 16 0 ++ leBytes 8 0 ++ leBytes 8 0x2000 ++ leBytes 8 (2 ^ 63) ++ ver
def attaching (start : Nat) : State := inHand 2 (ask4 0x0301 0 (stream image (digest256 image) start)) live
theorem test_meets_attach : live.job.attachMbx = none ∧ live.attachBad (stream image 0 (2 * 65536)) 0 = false ∧ live.attachBad (stream image 0 0) 0 = true ∧
    live.namesAbsent (usesOf image) = false ∧ 64 ≤ image.length ∧ leAt image 0 2 = 1 := by decide +kernel
theorem test_meets_attach_digest : (digest256 (streamImage (stream image (digest256 image) 0))).toNat = leAt (stream image (digest256 image) 0) 40 32 := by decide +kernel
theorem test_attach_near : answered (.jobAttach 2) (attaching 0) = (0x0101, false) := by decide +kernel
theorem test_attach_debug : answered (.jobAttach 2) ((attaching 0).onBnk (fun b => { b with debugOpen := true })) = (0x0111, false) := by decide +kernel
def starting (n : Nat) : State := (attached live).onJob (fun j => { j with attachMbx := some 2, start := BitVec.ofNat 64 n, uses := ⟨0, 0, 32, 0, 0, 0⟩, imageBase := 0x1000, entry := 2 })
theorem test_meets_start_job : relReached (starting 1) (starting 1).job.start.toNat = false ∧ relReached (starting 0) (starting 0).job.start.toNat = true := by decide +kernel
theorem test_start_waits : (after .attachStart (starting 1)).job.started = false := by decide +kernel
theorem test_detach_none : answered (.jobDetach 2) (inHand 2 (ask4 0x0302 0 []) live) = (0x0105, false) := by decide +kernel
def detaching (step : Nat) (s : State) : State := attached (inHand 2 (ask4 0x0302 0 []) (s.onJob (fun j => { j with detachStep := step })))
theorem test_meets_detach : (∃ h ∈ (detaching 0 staged).hnd.inn, h.st = .voted) ∧ (∀ h ∈ (detaching 2 (replaying 1)).hnd.inn, h.st ≠ .voted) ∧
    (detaching 2 (replaying 1)).fab.replay ≠ [] ∧ (detaching 5 live).fab.replay = [] ∧ (detaching 5 live).fab.msgReplay = [] := by decide +kernel
set_option maxRecDepth 20000 in
theorem test_detach_holds : (after (.jobDetach 2) (detaching 0 staged)).job.detachStep = 2 := by decide +kernel
theorem test_detach_ends : (after (.jobDetach 2) (detaching 5 live)).job.attached = false ∧ answered (.jobDetach 2) (detaching 5 live) = (0, false) := by decide +kernel
def updateBytes (epoch n : Nat) : List Byte := leBytes 4 epoch ++ leBytes 4 n ++ leBytes 8 (2 * 65536) ++ leBytes 8 5 ++ leBytes 8 (2 ^ 63 + 3)
def rankUpdating (b : List Byte) : State := attached (inHand 2 (ask4 0x0303 0 b) taker)
theorem test_meets_rank_update : (updateBytes 4 1).length = 16 + 16 * 1 ∧ relValid taker (2 * 65536) = true ∧ taker.now + 60000 ≤ relTime (2 * 65536) ∧ taker.fab.epoch.toNat + 1 = 4 := by decide +kernel
theorem test_rank_update : (after (.rankUpdate 2) (rankUpdating (updateBytes 4 1))).fab.rankUpdate.isSome = true ∧ answered (.rankUpdate 2) (rankUpdating (updateBytes 5 1)) = (0x0101, false) := by decide +kernel

/-- Programs: an address in the attached region, a slot, and images that are refused or not. -/
def loading' (arg : Nat) (b : List Byte) : State := (attached (inHand 2 (ask4 0x0401 (BitVec.ofNat 64 arg) b) live)).onJob (fun j => { j with regions := [⟨0, 0x2000, 0⟩] })
theorem test_meets_placed : 64 % 64 = 0 ∧ (loading' 0 []).storeOfExtent 64 200 = some .hbm ∧ inside 64 200 0 0x2000 = true := by decide +kernel
theorem test_program_refused : answered (.atomizerProgramLoad 2) (loading' (64 * 256 + 2) (List.replicate 200 0)) = (0x010E, false) ∧
    answered (.formulaLoad 2) (loading' (64 * 256 + 1) (List.replicate 10 0)) = (0x010E, false) := by decide +kernel
theorem test_trick_program : (after (.trickProgramLoad 2) (loading' (9 * 256 + 3) (prog 1 1 0 1))).trk.progs[9] = prog 1 1 0 1 ∧ answered (.trickProgramLoad 2) (loading' (64 * 256 + 3) (prog 1 1 0 1)) = (0x0101, false) ∧
    answered (.trickProgramLoad 2) (loading' (9 * 256 + 3) (prog 4 1 0 1)) = (0x010E, false) := by decide +kernel
theorem test_meets_slot_in_use : (tricking (collective (prog 1 2 0 1))).slotInUse 2 = true := by decide +kernel
theorem test_recipe_load : answered (.recipeLoad 2) (loading' (16 * 256 + 4) []) = (0x0101, false) ∧ answered (.recipeLoad 2) (loading' (15 * 256 + 4) []) = (0x010E, false) := by decide +kernel

/-! ### Checkpoint commands (R356-R364) -/

theorem test_checkpoint_needs_job : answered (.ckpStatement 2) (inHand 2 (ask4 0x0702 0 []) live) = (0x0105, false) := by decide +kernel
def ckpAsk (cmd : BitVec 16) (arg : BitVec 64) (b : List Byte) (s : State) : State := inHand 2 (ask4 cmd arg b) s
def holdingStep (st : SachetState) : State := checkpoint 0 5 (fun k => { k with st := st, sachetStep := 3, set := [⟨0, 256, 0⟩] })
theorem test_meets_drydown : 64 ≤ (decantBytes 0 5).length ∧ 1 ≤ (record3 0 5).dryBudget ∧ (record3 0 5).dryBudget ≤ 1023 ∧ 1 ≤ (record3 0 5).drySlots ∧ (record3 0 5).drySlots ≤ 4095 ∧
    (record3 0 5).step = (holdingStep .held).ckp.sachetStep := by decide +kernel
theorem test_drydown : (after (.ckpDrydown 2) (ckpAsk 0x0701 0 (decantBytes 0 5) (holdingStep .held))).ckp.st = .draining ∧
    answered (.ckpDrydown 2) (ckpAsk 0x0701 0 (decantBytes 0 0) (holdingStep .held)) = (0x0101, false) := by decide +kernel
theorem test_statement_early : (answered (.ckpStatement 2) (ckpAsk 0x0702 0 [] (holdingStep .held))).1 = BitVec.ofNat 16 ckInconsistent := by decide +kernel
theorem test_seal_bad : (answered (.ckpSeal 2) (ckpAsk 0x0703 0 [] (holdingStep .drained))).1 = BitVec.ofNat 16 ckManifestBad := by decide +kernel
theorem test_stage_bad : (answered (.ckpStage 2) (ckpAsk 0x0704 0 [] (holdingStep .drained))).1 = BitVec.ofNat 16 ckManifestBad := by decide +kernel
theorem test_commit : (after (.ckpCommit 2) (ckpAsk 0x0705 (2 * 65536) (leBytes 8 3) (holdingStep .verified))).ckp.commit.isSome = true ∧
    (answered (.ckpCommit 2) (ckpAsk 0x0705 (2 * 65536) (leBytes 8 4) (holdingStep .verified))).1 = BitVec.ofNat 16 ckInconsistent ∧
    answered (.ckpCommit 2) (ckpAsk 0x0705 1 (leBytes 8 3) (holdingStep .verified)) = (0x0101, false) := by decide +kernel
theorem test_shard_read_bad : (answered (.ckpShardRead 2) (ckpAsk 0x0706 0 [] (holdingStep .verified))).1 = BitVec.ofNat 16 ckManifestBad := by decide +kernel

/-! ### Scan port, management bus, Scorecard, the queue, the windows -/

theorem test_smbus : (after (.smbusBlockRead 3) live).bnk.smbus = none := by decide +kernel
theorem test_extest : (after (.extest 5) live).jtag.dr = 5 ∧ (after .bypass live).jtag.dr = 0 := by decide +kernel
theorem test_meets_sco : (0 : Fin 16).val < (ScoUnit.tbl 3).counters ∧ ((live.sco.inst (.tbl 3)).counters[0]?).isSome = true ∧ (ScoUnit.tbl 3).samples = true := by decide +kernel
theorem test_sco_cnt : ((after (.scoCntWrite (.tbl 3) 0 7) live).sco.inst (.tbl 3)).counters[0]?.map (·.count) = some 0 ∧
    (((after (.scoCntWrite (.tbl 3) 0 7) live).scoreCycle).sco.inst (.tbl 3)).counters[0]?.map (·.count) = some 7 := by decide +kernel
/-- CYCLES counts from the cycle after the write of SCO_CTL (R449, R450). -/
theorem test_sco_ctl : let s := after (.scoCtlWrite (.tbl 3) 0 (BitVec.ofNat 64 (2 ^ 43))) live
    (s.scoreCycle.sco.inst (.tbl 3)).counters[0]?.map (·.count) = some 0 ∧ (s.scoreCycle.scoreCycle.sco.inst (.tbl 3)).counters[0]?.map (·.count) = some 1 := by decide +kernel
theorem test_meets_period : ((after (.scoSampleWrite (.tbl 3) 2) live).sco.inst (.tbl 3)).period ≠ 0 := by decide +kernel
theorem test_queue_front : (match step { live with pending := [.bypass, .idcode] } with | .next t => t.pending | _ => []) = [.idcode] := by decide +kernel
theorem test_queue_empty : (match step live with |   .next t => t.cad.refAc | _ => 9) = 1 := by decide +kernel
theorem test_meets_memory : live.mem.wf = true ∧ (live.writeMem suit0 [1]).mem.wf = true := by decide +kernel
theorem test_meets_windows : live.splitBytes ≤ live.liveBytes ∧ 0 < live.hbmEnd := by decide +kernel
theorem test_window_ends : live.hbmAddr (live.hbmKey 0) = 0 ∧ live.hbmAddr (live.hbmKey (live.hbmEnd - 1)) = live.hbmEnd - 1 := by decide +kernel

/-! ### What holds a request, and a frame in pieces (R247, R301, R304, R309, R377, R384) -/

/-- A rank that a rank update has moved is gone from the frames of the epochs before (R304). -/
def moved : State := taker.onFab (fun f => { f with gone := [(1, some 4)] })
theorem test_meets_gone : moved.goneRank 1 3 = true ∧ moved.goneRank 1 4 = false ∧ taker.goneRank 1 3 = false := by decide +kernel
theorem test_gone_dropped : (after (.load (ask 1 8 [])) moved).fab.foreignTag = 1 ∧ (after (.load (ask 1 8 [])) moved).tx = [] := by decide +kernel
theorem test_meets_package_resetting : packageWaiting.takesFrom 1 (ask 1 8 []) ∧ packageWaiting.packageResetting = true := by unfold State.takesFrom; decide +kernel
theorem test_package_resetting : (after (.load (ask 1 8 [])) packageWaiting).tx = packageWaiting.tx := by decide +kernel
/-- Channel 0 of stack 0 retrains: its bytes wait. -/
def shut : State := taker.onCtl 0 (fun c => { c with retraining := 1 })
theorem test_meets_shut : shut.shutAt .fdie 0 4 = true ∧ shut.heldAt 0 4 = false := by decide +kernel
theorem test_shut_waits : (after (.store { ask 2 4 [1, 2, 3, 4] with hdr := { (ask 2 4 [1, 2, 3, 4]).hdr with laddr := 0 } }) shut).hnd.waiting.length = 1 := by decide +kernel
/-- A confirmation by rank header frees a message's row. -/
def rankConfirm (tag : BitVec 16) : Packet := { rankAsk 6 [] 0 with hdr := { (rankAsk 6 [] 0).hdr with tag := tag, len := 0 } }
def answeredMsg : State := taker.onFab (fun f => { f with msgReplay := [⟨keyRank 1, 20, 0, [], 0⟩] })
theorem test_meets_rank_confirm : (rankConfirm 20).srcRank = some 1 ∧ answeredMsg.takesRequestOf 1 (rankConfirm 20) := by
  unfold State.takesRequestOf State.takesFrom; decide +kernel
theorem test_rank_confirm : (after (.confirm (rankConfirm 20)) answeredMsg).fab.msgReplay = [] ∧ (after (.confirm (rankConfirm 19)) answeredMsg).fab.msgReplay.length = 1 := by decide +kernel
/-- The two halves of a message of 4 bytes: nothing is delivered before the second. -/
def piece (off : Nat) (bs : List Byte) : Packet := { rankAsk 0x10 bs 1 with off := off, total := some 4 }
def halfCome : State := after (.msg (piece 0 [1, 2])) (queued [] true)
theorem test_meets_piece : (piece 0 [1, 2]).total = some 4 ∧ joinPieces 4 [(0, [1, 2])] = none ∧ joinPieces 4 [(2, [3, 4]), (0, [1, 2])] = some [1, 2, 3, 4] := by decide +kernel
theorem test_piece : halfCome.fab.parts.length = 1 ∧ halfCome.wordAt (suit0 + 4096) 4 = 0 := by decide +kernel
theorem test_piece_last : (after (.msg (piece 2 [3, 4])) halfCome).wordAt (suit0 + 4096) 4 = 0x04030201 ∧ (after (.msg (piece 2 [3, 4])) halfCome).fab.parts = [] := by decide +kernel
/-- A message for a Deck in reset (R377). -/
theorem test_msg_held : (after (.msg (rankAsk 0x10 [1, 2, 3, 4] 1)) { queued [] true with resets := resetting.resets }).fab.heldOps.length = 1 ∧
    (after (.msg (rankAsk 0x10 [1, 2, 3, 4] 1)) { queued [] true with resets := resetting.resets }).tx.map (·.hdr.status) = [0x0D] := by decide +kernel
/-- An HQUERY whose issuer has no partner entry: it departs all the same (R304). -/
theorem test_meets_query_unknown : staged.departedRank (staged.slotRank 1) = false ∧ staged.fab.partners = [] ∧ staged.replayOf query = none := by decide +kernel
theorem test_query_unknown : (after (.hquery query) staged).departedRank 1 = true := by decide +kernel
/-- A partner that has departed, and an update that moves its rank (R300, R304). -/
def departing : State := (beside { partner1 with departed := true } taker).onFab (fun f => { f with rankUpdate := some ⟨4, 0, [(1, BitVec.ofNat 64 (2 ^ 63 + 2 ^ 25))]⟩ })
theorem test_departed_moves : (1, some 4) ∈ (after .rankUpdateRelease departing).fab.gone ∧ (after .rankUpdateRelease departing).goneRank 1 4 = false := by decide +kernel
theorem test_meets_beat_gone : (beside { partner1 with departed := true } beating).goneRank 1 3 = true ∧ beating.goneRank 1 3 = false := by decide +kernel

/-! ### Links (R260, R261) -/

/-- A codeword of wavelength 3 with symbols corrected: at FEC_LIMIT it stays, above it fails. -/
def atLimit (n : Nat) : State := linked (fun p => { p with fecLimit := 20, fecSyms := p.fecSyms.set 3 n })
set_option maxRecDepth 20000 in
theorem test_fec : let go (n : Nat) : Port := ((after (.flitReceive 2 ⟨flitBytes 0 0 0 [1], [(3, 5)]⟩) (atLimit n)).fab.ports[2])
    ((go 15).failed, (go 15).fecCorr) = (0, 1) ∧ ((go 16).failed, (go 16).activeW) = (8, 0xF7) := by decide +kernel
/-- No spare: the share stays with no wavelength. -/
theorem test_no_spare : ((after (.wavelengthFailing 2 0) (linked (fun p => { p with failed := 0x300 }))).fab.ports[2]).switching = false := by decide +kernel

/-! ### Cadence: a jump, and a source lost (R25, R27) -/

/-- Free-run at count 5, phase 7; source 8, the primary, is valid and has been out of step once. -/
def jumping : State := cad 8 (heard 8 0 16 true) (fun c => { c with st := .freeRun, primary := 8, active := 8, aligned := true, count := 5, phase := 7, refAc := 60000, jumpFrom := some 8 })
theorem test_meets_jump : jumping.cad.eligible 8 = true ∧ (jumping.cad.sources[8]).valid = true ∧ jumping.now < 9 * 60000 + jumping.srcDelay 8 := by decide +kernel
theorem test_jump : (after (mark 8 9) jumping).cad.count = 9 ∧ (after (mark 8 9) jumping).cad.events = 0x18 := by decide +kernel
theorem test_jump_releases : ((after (mark 8 9) ((jumping.onEngine .tbl 3 (fun e => { e with
    fifo := [entry (desc [(96, 8 * 65536)]) 0], runBit := true, head := { Head.idle with phase := .waitRelease } })))).engine .tbl 3).head.late = true := by decide +kernel

/-! ### Memory-side commands (R250) -/

/-- Each on an INT64 or binary64 element that holds 5, or 2.0. -/
def fiveAt8 : State := live.writeMem 8 (leBytes 8 5)
def twoAt8 : State := live.writeMem 8 (leBytes 8 0x4000_0000_0000_0000)
def minus1 : List Byte := leBytes 8 (2 ^ 64 - 1)
theorem test_minima : (after (.smin (.given (req 2 0x12 1 8 minus1))) fiveAt8).wordAt 8 8 = 2 ^ 64 - 1 ∧ (after (.smax (.given (req 3 0x12 1 8 minus1))) fiveAt8).wordAt 8 8 = 5 ∧
    (after (.umin (.given (req 4 0x12 1 8 minus1))) fiveAt8).wordAt 8 8 = 5 ∧ (after (.umax (.given (req 5 0x12 1 8 minus1))) fiveAt8).wordAt 8 8 = 2 ^ 64 - 1 := by decide +kernel
theorem test_float_minima : (after (.msideFmin (.given (req 6 0 1 8 (leBytes 8 0x3FF0_0000_0000_0000)))) twoAt8).wordAt 8 8 = 0x3FF0_0000_0000_0000 ∧
    (after (.msideFmax (.given (req 7 0 1 8 (leBytes 8 0x3FF0_0000_0000_0000)))) twoAt8).wordAt 8 8 = 0x4000_0000_0000_0000 ∧
    (after (.plainFadd (.given (req 8 0 1 8 (leBytes 8 0x3FF0_0000_0000_0000)))) twoAt8).wordAt 8 8 = 0x4008_0000_0000_0000 := by decide +kernel
theorem test_plain_fadd_promise : (after (.plainFadd (.given (req 8 0 1 4 []))) (attached live)).job.outside = true := by decide +kernel

/-! ### Scrub, checkpoints, faults, jobs -/

theorem test_scrub_report : (after (.patrolScrub 2 5 ⟨[], true⟩) (stack id)).flt.log.map (fun r => (r.cls, r.code)) = [(.corrected, 0x010C)] := by decide +kernel
/-- A Decant that is armed takes its snapshot in an enabled slot (R35, R352). -/
def armed (on : Bool) : State := (checkpoint 0 5 (fun k => { k with phase := .armed, cur := some (record3 0 5) })).onPwr (fun p => { p with slotOn := on })
theorem test_armed : (after .decantCheck (armed true)).ckp.st = .decanting ∧ (after .decantCheck (armed false)).ckp.phase = .armed := by decide +kernel
theorem test_meets_copy_waits : ({ copying false with resets := resetting.resets }).ckpWaits = true ∧ (copying false).ckpWaits = false ∧ (restoring false).ckpWaits = false := by decide +kernel
/-- A twin that is poisoned poisons its line, and the restore ends SHARD_BAD (R365). -/
def badTwin : State := (restoring false).onMem (fun m => m.poisonLine ((restoring false).twinOf 64 / 64))
theorem test_restore_poison : (after .restoreCopy badTwin).mem.isPoison ((restoring false).lineOf 64) = true ∧ (after .restoreCopyDone (after .restoreCopy badTwin)).ckp.st = .incomplete ∧
    (after .restoreCopyDone (after .restoreCopy badTwin)).ckp.answers = [(4, 0x36)] := by decide +kernel
theorem test_meets_stage_held : (holdingStep .held).ckp.st.holds = true ∧ (holdingStep .held).mem.upset = [] := by decide +kernel
/-- Retired state of core 5 is uncorrectable: its work is lost (R373). -/
theorem test_meets_core_lost : (regs 0 0).scopeExists (.core .dlr 5) = true ∧ (regs 0 0).boot.ready = true ∧ (regs 0 0).resets = [] := by decide +kernel
theorem test_core_lost : (after (.arithReplay .dlr ⟨5, true⟩) (regs 0 0)).resets.map (fun r => (r.scope, r.workLost)) = [(.core .dlr 5, true)] := by decide +kernel
theorem test_no_reentry : (after (.resetReentry ⟨.deck 1, false⟩) ((deckReset 4 true).onCad (fun c => { c with count := 1 }))).boot.scopeReset.isSome = true := by decide +kernel
theorem test_fdie_table_record : (after (.sramError .fdieTable true) live).boot.scopeReset.isSome = true := by decide +kernel
/-- A hand that is kept held does not hold a detach (R294). -/
def stuckHand : State := detaching 2 (staged.onHnd (fun h => { h with inn := h.inn.map (fun g => { g with stuck := true }) }))
theorem test_meets_stuck : (∀ h ∈ stuckHand.hnd.inn, h.st ≠ .voted ∨ h.stuck = true) ∧ ∃ h ∈ stuckHand.hnd.inn, h.st = .voted := by decide +kernel
set_option maxRecDepth 20000 in
theorem test_detach_stuck : (after (.jobDetach 2) stuckHand).hnd.inn = [] := by decide +kernel

/-! ### Engines: the hypotheses of completion -/

theorem test_meets_engines_free : (tableau {}).tblWaits 3 = false ∧ atomizer.atmWaits 3 = false ∧ (solving {}).solWaits 3 = false ∧ (shuffle 1).shfWaits 3 = false ∧
    (tableau {}).mem.noPoison = true ∧ (tableau {}).mem.upset = [] ∧ (tableau {}).anyFenced = false := by decide +kernel
/-- PIP_MODE 2 with one chunk, whose pip is up (R101). -/
def chunked : State := (((tableau {}).onEngine .tbl 3 (fun e => { e with fifo := [entry (oneByOne + desc [(20, 1), (104, 2 * 2 ^ 24 + 2 ^ 16)]) 0] })).raisePip (engineSuit .tbl 3) 0)
theorem test_meets_chunk_consume : chunked.nextChunk 3 = some 0 ∧ (chunked.engine .tbl 3).tblHead.pipMode = 2 ∧ chunked.tblWaits 3 = false := by decide +kernel

/-! ### Conditions of the clauses that say how work ends or is cut short -/

/-- R227: poison at element 1 of two, the first being clean; and a store whose second element lies past the buffer. -/
def poisonSecond : State := ((vmem (suit0 + 56)).onMem (fun m => m.poisonLine (suit0 / 64 + 1))).onCore 5 (fun x => { x with v := x.v.set 2 (BitVec.ofNat 128 (8 * 2 ^ 64)) })
theorem test_meets_vpoison : ReadsMemory poisonSecond 5 (suit0 + 56) 8 ∧ (poisonSecond.poisonedIn (suit0 + 64) 8 = true ∧ poisonSecond.mem.upset = []) ∧
    ((∃ k, poisonSecond.locate false (suit0 + 64) 8 = .ok (.mem k)) ∧ poisonSecond.accessNow 5 false (suit0 + 64) 8 = true) :=
  ⟨⟨⟨.suit 0, by rfl⟩, by decide +kernel, by decide +kernel⟩, by decide +kernel, ⟨.suit 0, by rfl⟩, by decide +kernel⟩
theorem test_vpoison : (core5 (.gatherff 5 3 1 2 0 0 3) poisonSecond).cause = 5 ∧ (core5 (.vld 5 3 1 0) poisonSecond).vfault = 1 := by decide +kernel
theorem test_meets_vstore_fault : WritesMemory (vmem edge) 5 edge 8 ∧ (vmem edge).locate true (edge + 8) 8 = .error 3 :=
  ⟨⟨⟨.suit 0, by rfl, by rfl⟩, by decide +kernel⟩, by rfl⟩
theorem test_meets_pip_held : resetting.deckResetting 0 = true ∧ live.deckResetting 0 = false := by decide +kernel
theorem test_pip_held : (after (.pipRaise 0 5) resetting).fab.heldPips = [(0, 5)] ∧ (after (.pipRaise 0 5) resetting).pipUp 0 5 = false := by decide +kernel

/-- R481: PIP_LIMIT of engine 22 was written through its window in this ac; and the group mask. -/
def busy22 : State := (live.onBus (fun x => { x with written := [⟨.eng .tbl, 22, 0x0B8, 0, 7⟩] })).onEng (fun x => { x with tblMask := -1 })
theorem test_meets_instance_stands : regAddr 0x0F00_0004_00B8 = some (.eng .tbl, .group, 0x0B8) ∧ (busy22.selected (.eng .tbl) .group).contains 22 = true ∧
    regAddr 0x0F00_0004_00F8 = some (.eng .tbl, .group, 0x0F8) ∧ maskAt (.eng .tbl) 0x0F8 = some 0 ∧ live.bus.masks = [] ∧
    (∀ x ∈ live.bus.written, x.blk ≠ .eng .tbl) := by decide +kernel
theorem test_instance_stands : let t := after (.registerWrite .banker 0x0F00_0004_00B8 3) busy22
    ((t.engine .tbl 22).pipLimit, (t.engine .tbl 21).pipLimit) = (7, 3) := by decide +kernel
theorem test_meets_registers_all : regAddr 0x0F00_0004_00C0 = some (.eng .tbl, .group, 0x0C0) ∧ regAddr 0x0F00_0001_6008 = some (.eng .tbl, .inst 22, 0x008) ∧
    regAddr 0x0F00_0001_6088 = some (.eng .tbl, .inst 22, 0x088) := by decide +kernel

/-- R29: the marker after the one that loaded the count is M. -/
def awaiting : State := cad 0 (heard 4 0 16 true) (fun c => { c with st := .aligning, alignFree := false, markerM := none, active := 0, refAc := 60000, count := 4 })
theorem test_meets_awaits : awaiting.cad.awaitsM = true ∧ (awaiting.cad.sources[0]).valid = true ∧ awaiting.serves = true := by decide +kernel
theorem test_marker_m : (after (mark 0 5) awaiting).cad.markerM = some 5 ∧ (after (mark 0 5) awaiting).cad.count = 5 := by decide +kernel

/-- R412: a channel of a Deck in reset does not begin a retrain. -/
def channelHeld : State := { stack (fun c => { c with retrainReq := 32 }) with resets := resetting.resets }
theorem test_meets_channel_held : channelHeld.deckResetting (2 / 4) = true ∧ (stack (fun c => { c with retrainReq := 32 })).deckResetting (2 / 4) = false ∧
    (stack (fun c => c)).serves = true := by decide +kernel
theorem test_channel_held : ((after (.channelRetrain 2 5 25) channelHeld).ctl 2).retraining = 0 := by decide +kernel

/-- An ATOM of rank 1 on the INT64 at 8; a staged hand that holds those bytes; their Deck in reset; their channel in a retrain (R291, R377, R384). -/
def atomAsk : Packet := { ask 4 8 (leBytes 8 1) with hdr := { (ask 4 8 []).hdr with laddr := 8, code := 1, fmt := 0x12, count := 1 } }
def atomStaged : State := taker.onHnd (fun h => { h with inn := [{ stagedHand with entries := [⟨0, 2, 0, 0, false, 8, 0, 8, leBytes 8 5, 0⟩] }] })
theorem test_meets_atom_ask : taker.takesRequest atomAsk ∧ taker.replayOf atomAsk = none ∧ taker.heldWrite atomAsk = false ∧
    taker.msHeld (taker.packetReq atomAsk).1 = none ∧ taker.msShut .fdie (taker.packetReq atomAsk).1 = false ∧
    (taker.msReach (taker.packetReq atomAsk).1).any (fun x => taker.stagedHit x.1 x.2) = false := by
  unfold State.takesRequest State.takesRequestOf State.takesFrom; decide +kernel
theorem test_meets_atom_waits : (resetting.msHeld (resetting.packetReq atomAsk).1).isSome = true ∧ (atomStaged.msHeld (atomStaged.packetReq atomAsk).1).isSome = false ∧
    (atomStaged.msReach (atomStaged.packetReq atomAsk).1).any (fun x => atomStaged.stagedHit x.1 x.2) = true := by decide +kernel
theorem test_atom_ask : (after (.atomPacket atomAsk) taker).wordAt 8 8 = 1 ∧ (after (.atomPacket atomAsk) resetting).wordAt 8 8 = 0 ∧
    (after (.atomPacket atomAsk) atomStaged).hnd.waiting.length = 1 := by decide +kernel

/-- An RGET of 8 bytes into Suit buffer 0, and the link of its core's Deck to the F-die in a retrain (R272, R384). -/
def rgetOp (want : List Nat) : OutOp := { loadOp want .outstanding with kind := .rget }
def getting : State := loading (rgetOp []) .submit
def linkOut (s : State) : State := s.onFlt (fun f => { f with repairing := [(6, 0)] })
theorem test_meets_rget_answer : getting.op 6 = some (rgetOp []) ∧ getting.blockWaits .fdie suit0 8 = false ∧ getting.answerWaits (rgetOp []) = false ∧
    getting.takesFrom 1 (answer 4 []) := by unfold State.takesFrom; decide +kernel
theorem test_rget_refused : (after (.data 6 (answer 4 [])) getting).fab.err = 1 ∧ (after (.data 6 (answer 6 [])) getting).poisonedIn suit0 8 = true ∧
    (after (.data 6 (answer 0 (leBytes 8 9))) getting).wordAt suit0 8 = 9 := by decide +kernel
theorem test_meets_answer_waits : (linkOut oneLoad).answerWaits (loadOp [] .outstanding) = true ∧ (linkOut oneLoad).op 6 = some (loadOp [] .outstanding) ∧
    (linkOut oneLoad).takesFrom 1 (answer 0 [1]) ∧ (linkOut oneLoad).serves = true := by unfold State.takesFrom; decide +kernel
theorem test_answer_waits : (after (.data 6 (answer 0 [1])) (linkOut oneLoad)).fab.answers.length = 1 ∧ (core5 (.data 6 (answer 0 [1])) (linkOut oneLoad)).stall.isSome = true := by decide +kernel
theorem test_meets_late : (loading (loadOp [] (.unknown 0x01 .timeout)) .submit).op 6 = some (loadOp [] (.unknown 0x01 .timeout)) := by decide +kernel

/-- R384, R288, R290, R295: the outcome of an ATOM, and of a hand to slots 1 and 2, of which 2 has acknowledged. -/
theorem test_meets_outcome_shut : (linkOut atomWaits).outcomeShut { storeOp .outstanding 0 with kind := .atom, localAddr := suit0 } = true ∧
    (linkOut atomWaits).waitsFor { storeOp .outstanding 0 with kind := .atom, localAddr := suit0 } = true ∧
    atomWaits.outcomeShut { storeOp .outstanding 0 with kind := .atom, localAddr := suit0 } = false := by decide +kernel
theorem test_outcome_shut : (after (.ack (acking 5)) (linkOut atomWaits)).fab.answers.length = 1 ∧ (core5 (.ack (acking 5)) (linkOut atomWaits)).gr 3 = 0 := by decide +kernel
def handOp (kind : BitVec 8) (retries : Nat) : OutOp := { storeOp .outstanding retries with kind := .hand, pkt := packet kind [] (.hand { hand := 4, issuer := 0 }) }
def handWaits (kind : BitVec 8) (retries : Nat) (h : HandOut) : State := (loading (handOp kind retries) (.hand 3 4)).onHnd (fun x => { x with out := [h] })
def shown (acks : List Nat) : HandOut := { handOut with decided := some true, acks := acks }
theorem test_meets_hand_ack : (handWaits 0x0A 0 (shown [2])).ackedOp (acking 0) = some (handOp 0x0A 0) ∧ (handOp 0x0A 0).isUnknown = false ∧
    (handWaits 0x0A 0 (shown [2])).handOut 4 = some (shown [2]) ∧ (handWaits 0x0A 0 (shown [2])).handShut (shown [2]) = false ∧
    (∀ x ∈ (shown [2]).slots, x = (handOp 0x0A 0).slot ∨ x ∈ (shown [2]).acks ∨ x ∈ (shown [2]).silent) ∧
    (∃ x ∈ (shown []).slots, x ≠ (handOp 0x0A 0).slot ∧ x ∉ (shown []).acks ∧ x ∉ (shown []).silent) ∧
    (handWaits 0x0A 0 (shown [])).handOut 4 = some (shown []) := by decide +kernel
theorem test_hand_ack : ((after (.ack (acking 0)) (handWaits 0x0A 0 (shown []))).handOut 4).map (·.acks) = some [1] ∧
    ((core5 (.ack (acking 0)) (handWaits 0x0A 0 (shown [2]))).gr 3, (core5 (.ack (acking 0)) (handWaits 0x0A 0 (shown [2]))).pc) = (0, 68) ∧
    (core5 (.ack (acking 0)) (handWaits 0x0B 0 { handOut with decided := some false, acks := [2], reason := 5 })).gr 3 = 1 ∧
    (core5 (.ack (acking 0)) (handWaits 0x0A 0 { shown [] with silent := [2] })).gr 3 = 2 := by decide +kernel
theorem test_meets_hand_retry : let late (s : State) : State := s.onCad (fun c => { c with count := 1, phase := 0 })
    (late (handWaits 0x08 8 handOut)).op 6 = some (handOp 0x08 8) ∧ (handOp 0x08 8).sentAt + (late (handWaits 0x08 8 handOut)).fab.timeout.toNat ≤ (late (handWaits 0x08 8 handOut)).now ∧
    (late (handWaits 0x08 8 handOut)).fab.limit.toNat ≤ (handOp 0x08 8).retries ∧ (late (handWaits 0x08 8 handOut)).handOut 4 = some handOut ∧ handOut.decided = none ∧
    (late (handWaits 0x08 8 handOut)).fab.answers = [] ∧ (late (handWaits 0x0A 8 (shown [2]))).handOut 4 = some (shown [2]) := by decide +kernel
theorem test_hand_retry : let late (s : State) : State := s.onCad (fun c => { c with count := 1, phase := 0 })
    ((after (.retryTimeout 6) (late (handWaits 0x08 8 handOut))).handOut 4).map (fun h => (h.decided, h.reason)) = some (some false, 2) ∧
    (core5 (.retryTimeout 6) (late (handWaits 0x0A 8 (shown [2])))).gr 3 = 2 := by decide +kernel

/-! ### Hands and messages: pieces, folds, waits -/

/-- Staging packets of rank 1: for its hand 2 on the bytes of its hand 1, and one whose entry names no memory. -/
def hand2 : HandHdr := { hand1 with hand := 2 }
def stageAt (a : Nat) : List Byte := leBytes 1 2 ++ List.replicate 5 0 ++ leBytes 2 4 ++ leBytes 8 a ++ leBytes 8 32 ++ List.replicate 8 0 ++ [1, 2, 3, 4]
def nowhere : Nat := 2 ^ 63 + 0x0F00_0000_0000
def rivalOf (st : HandState) : State := taker.onHnd (fun h => { h with inn := [{ stagedHand with st := st }] })
theorem test_meets_fold_check : taker.entryCheck (entryOf (stageAt nowhere) 0 (fun off n => slice (stageAt nowhere) off n)) ≠ 0 ∧
    taker.busyAt .fdie (taker.entryReach (entryOf (stageAt nowhere) 0 (fun off n => slice (stageAt nowhere) off n))).1
      (taker.entryReach (entryOf (stageAt nowhere) 0 (fun off n => slice (stageAt nowhere) off n))).2 = false ∧ taker.stagedHands < 256 := by decide +kernel
theorem test_meets_fold_overlap : (∃ g ∈ (rivalOf .voted).hnd.inn, g.holds = true ∧ g.st = .voted ∧
      anyOverlap ([stagedEntry].map (rivalOf .voted).entryExtent) ((rivalOf .voted).handExtents g) = true) ∧
    (∃ g ∈ (rivalOf .staged).hnd.inn, g.holds = true ∧ g.st = .staged ∧
      anyOverlap ([stagedEntry].map (rivalOf .staged).entryExtent) ((rivalOf .staged).handExtents g) = true) ∧
    (rivalOf .voted).handIn 1 2 = none ∧ (rivalOf .voted).entryCheck stagedEntry = 0 ∧ (rivalOf .voted).replayOf (handAsk 8 hand2 stageData) = none := by decide +kernel
theorem test_folds : ((after (.hstage (handAsk 8 hand1 (stageAt nowhere))) taker).handIn 1 1).map (·.st) = some .discarded ∧
    ((after (.hstage (handAsk 8 hand2 stageData)) (rivalOf .voted)).handIn 1 2).map (·.st) = some .discarded ∧
    ((after (.hstage (handAsk 8 hand2 stageData)) (rivalOf .voted)).handIn 1 1).map (·.st) = some .voted ∧
    (after (.hstage (handAsk 8 hand2 stageData)) (rivalOf .voted)).tx.any (fun p => p.hdr.kind == 0x0C) = true ∧
    ((after (.hstage (handAsk 8 hand2 stageData)) (rivalOf .staged)).handIn 1 1).map (·.st) = some .discarded := by decide +kernel
/-- A target with no free tag, and one for which a vote waits already. -/
def tagsOut : State := taker.onFab (fun f => { f with nextTag := [(keyNode ⟨0, 1⟩, 4096)] })
def voteWaits : State := taker.onHnd (fun h => { h with unsent := [⟨9, 1, ⟨0, 1⟩, hand1, []⟩] })
theorem test_meets_vote_waits : (tagsOut.translate 1).getD ⟨0, 0⟩ = ⟨0, 1⟩ ∧ 4096 ≤ tagsOut.unconfirmed (keyNode ⟨0, 1⟩) ∧ (∃ x ∈ voteWaits.hnd.unsent, x.node = ⟨0, 1⟩) ∧
    taker.unconfirmed (keyNode ⟨0, 1⟩) < 4096 ∧ taker.hnd.unsent = [] := by decide +kernel
theorem test_vote_waits : (after (.hstage (handAsk 8 hand1 stageData)) tagsOut).hnd.unsent.map (·.kind) = [9] ∧
    (after (.hstage (handAsk 8 hand1 stageData)) voteWaits).hnd.unsent.map (·.kind) = [9, 9] := by decide +kernel
/-- The decision to show a hand has come, and waits for a link; its staging comes in two segments. -/
def showHeld : State := after (.hshow (handAsk 0x0A hand1 [])) (linkOut staged)
def halfStage (off n : Nat) : Packet := { handAsk 8 hand1 (slice stageData off n) with off := off, total := some stageData.length }
theorem test_meets_show_waits : showHeld.showWaits 1 1 = true ∧ staged.showWaits 1 1 = false ∧
    (∃ e ∈ stagedHand.entries, (linkOut staged).shutAt .fdie ((linkOut staged).entryReach e).1 ((linkOut staged).entryReach e).2 = true) ∧
    ((linkOut staged).votedHere hand1).map (·.entries) = some stagedHand.entries := by decide +kernel
theorem test_show_waits : showHeld.mem.cells = [] ∧ showHeld.fab.replay = [] ∧ (after (.hquery query) showHeld).departedRank 1 = true ∧
    (after (.hquery query) showHeld).hnd.waiting ≠ [] := by decide +kernel
theorem test_meets_half_stage : (halfStage 0 20).total = some 36 ∧ joinPieces 36 [(0, slice stageData 0 20)] = none ∧
    joinPieces 36 [(20, slice stageData 20 16), (0, slice stageData 0 20)] = some stageData := by decide +kernel
theorem test_half_stage : (after (.hstage (halfStage 0 20)) taker).hnd.inn = [] ∧
    ((after (.hstage (halfStage 20 16)) (after (.hstage (halfStage 0 20)) taker)).handIn 1 1).map (·.st) = some .voted := by decide +kernel

/-- A message whose first half has come is in the table; its slot is not free for another; and the table is full. -/
def fullTable (n : Nat) : State := taker.onFab (fun f => { f with msgReplay := List.replicate n ⟨0, 0, 0, [], 0⟩ })
theorem test_meets_msg_begun : halfCome.msgBegun.contains (keyRank 1, 0x10, 20) = true ∧ halfCome.slotBusy (keyRank 1) 21 3 1 = true ∧
    halfCome.slotBusy (keyRank 1) 20 3 1 = false ∧ (queued [] true).slotBusy (keyRank 1) 20 3 1 = false ∧ (queued [1] true).slotBusy (keyRank 1) 20 3 1 = true ∧
    (queued [] true).msgBegun.contains (keyRank 1, 0x10, 20) = false := by decide +kernel
theorem test_meets_table_full (n : Nat) (h : 16384 ≤ n) :
    16384 ≤ (fullTable n).fab.msgReplay.length + ((fullTable n).msgBegun.filter (fun x => x.2.1 == 0x10 || x.2.1 == 0x23)).length := by
  simp [fullTable, State.onFab]; omega
theorem test_meets_msg_full_tag (n : Nat) : replayOf (fullTable n).fab.msgReplay (keyRank 1) 20 = none := by
  simp [fullTable, State.onFab, replayOf, keyRank]
theorem test_slot_taken : (after (.msg { rankAsk 0x10 [9] 1 with hdr := { (rankAsk 0x10 [9] 1).hdr with tag := 21 } }) halfCome).tx.map (·.hdr.status) = [0x0B] := by decide +kernel
/-- The queue's bytes lie in Deck 1, and its pips in Deck 0, which is in reset (R375). -/
def pipElsewhere : State := { (queued [] true).onHnd (fun h => { h with rxq := vmod h.rxq (3 : Fin 64) (fun q => { q with base := BitVec.ofNat 64 (suit0 + 4 * 0x0200_0000) }) }) with
  resets := resetting.resets }
theorem test_meets_pip_elsewhere : pipElsewhere.deckResetting (0 / 4) = true ∧ pipElsewhere.freeNow (suit0 + 4 * 0x0200_0000 + 4096) 4 ∧
    pipElsewhere.remoteReach (suit0 + 4 * 0x0200_0000 + 4096) 4 = true := by unfold State.freeNow; decide +kernel
theorem test_pip_elsewhere : (after (.msg (rankAsk 0x10 [1, 2, 3, 4] 1)) pipElsewhere).fab.heldPips = [(0, 101)] ∧
    (after (.msg (rankAsk 0x10 [1, 2, 3, 4] 1)) pipElsewhere).pipUp 0 101 = false := by decide +kernel

/-- R300, R304: an epoch that has released; a rank whose node a rank update has replaced, its partner admitted or not. -/
def movedBeat (admitted : Bool) : State := (beside { partner1 with admitted := admitted } beating).onFab (fun f => { f with gone := [(1, some 4)] })
theorem test_meets_epoch_done : 1024 ∈ ((discovering 0).onFab (fun f => { f with epochs := [1024] })).fab.epochs ∧ 1024 ∉ (discovering 0).fab.epochs ∧
    (discovering 0).flt.fenced = false := by decide +kernel
theorem test_epoch_once : ((after .discoveryEpoch ((discovering 0).onFab (fun f => { f with epochs := [1024] }))).partner 0xABCD).map (·.admitted) = some false := by decide +kernel
theorem test_meets_moved_beat : (movedBeat false).goneRank 1 3 = true ∧ (movedBeat false).partner 0xABCD = some partner1 ∧ partner1.admitted = false ∧
    (movedBeat true).partner 0xABCD = some { partner1 with admitted := true } ∧ (movedBeat true).flt.fenced = false := by decide +kernel
theorem test_moved_beat : (after (.heartbeat (beatAsk 0x20 7 6 0)) (movedBeat false)).fab.foreignTag = 1 ∧
    ((after (.heartbeat (beatAsk 0x20 7 6 0)) (movedBeat true)).partner 0xABCD).map (·.lastBeat) = some 6 := by decide +kernel

/-! ### Trick: checks of chunks, waits, and the end of a collective -/

/-- The first chunk of the sum that rank 1 sends: its element 1.0 with its CRC, the same with one byte wrong, and in a slot that is not enabled. -/
def oneChunk : List Byte := withCrc (leBytes 8 0x3FF0_0000_0000_0000)
def sumOn (on : Bool) : State := (tricking (collective (prog 1 2 0 1))).onPwr (fun p => { p with slotOn := on })
theorem test_meets_trick_key : taker.trickKey { srcRank := 1, inst := 5, progSlot := 2, frame := 1, level := 1, deck := 0, step := 0, count := 0, index := 0 } = 1 ∧
    replayOf taker.fab.replay 1 20 = none ∧ taker.nodeOfRank 1 = some ⟨0, 1⟩ := by decide +kernel
theorem test_meets_chunk_waits : (sumOn false).chunkWaits (collective (prog 1 2 0 1)) (trkHdr 0 1 0 0 0 0) 1 = true ∧
    (sumOn true).chunkWaits (collective (prog 1 2 0 1)) (trkHdr 0 1 0 0 0 0) 1 = false := by decide +kernel
theorem test_meets_chunk_body : ((collective (prog 1 2 0 1)).chunkOf (trkHdr 0 1 0 0 0 0) 1).any (fun x =>
    (match (collective (prog 1 2 0 1)).chunkBody x oneChunk with
      | .ok (.bytes b) => b == leBytes 8 0x3FF0_0000_0000_0000
      | _ => false) &&
    (match (collective (prog 1 2 0 1)).chunkBody x (oneChunk.set 0 1) with
      | .error why => !why
      | _ => false)) = true := by decide +kernel
theorem test_chunk_bad : (after (.trkChunk (frame 0 0 (oneChunk.set 0 1))) (sumOn true)).trk.crcRetry = 1 ∧
    (after (.trkChunk (frame 0 0 oneChunk)) (sumOn true)).trk.running.map (fun c => c.got.length) = [1] ∧
    (after (.trkChunk (frame 0 0 oneChunk)) (sumOn false)).trk.early.length = 1 := by decide +kernel

/-- A broadcast whose only chunk has been sent and waits for its acknowledgement alone: the record asks for a pip, and a landing pip rises. -/
def lastChunk (landed : List Nat) : Collective := { collective ((prog 0x12 2 0x10 64).set 1 3) with landed := landed, sent := (broadcast 0).plan, phase := .running }
def trickOp : OutOp := { storeOp .outstanding 0 with kind := .trick, core := none, pkt := frame 0 0 [] }
def trickAck : Packet := { acking 0 with kh := (frame 0 0 []).kh }
def acked (landed : List Nat) : State := ((tricking (lastChunk landed)).onFab (fun f => { f with ops := [trickOp], nextId := 7 })).onTrk (fun t => { t with
  cq := { t.cq with base := BitVec.ofNat 64 (suit0 + 0x20000) } })
theorem test_meets_trick_ack : (acked []).ackedOp trickAck = some trickOp ∧ trickOp.isUnknown = false ∧
    ((((acked []).dropOp 6).confirmTo trickOp).flushSends).col 2 5 = some (lastChunk []) ∧
    ((((acked []).dropOp 6).confirmTo trickOp).flushSends).trkBusy (lastChunk []) = false ∧
    ((((acked []).dropOp 6).confirmTo trickOp).flushSends).trkComplete (lastChunk []) = true ∧ (lastChunk []).isSum = false ∧ tReduce (lastChunk []).image = false ∧
    (∀ k, k < tUnits (lastChunk []).image → (lastChunk []).unitFinal k = true) ∧ (acked []).trk.cq.full = false ∧ (acked []).resets = [] ∧
    (∀ k, k < tUnits (lastChunk [0]).image → k ∈ (lastChunk [0]).landed) := by decide +kernel
theorem test_meets_trick_ack_frame : (acked []).takesFrom ((acked []).ackRank trickAck) trickAck ∧ trickAck.hdr.jobTag ≠ 0 := by
  unfold State.takesFrom; decide +kernel
theorem test_trick_ack : (after (.ack trickAck) (acked [])).trk.cq.tail = 1 ∧ (after (.ack trickAck) (acked [])).trk.done = [(2, 5)] ∧
    (after (.ack trickAck) (acked [])).wordAt (suit0 + 0x20000) 4 = 6 := by decide +kernel
theorem test_meets_abort : (tricking (collective (prog 1 2 0 1))).trk.cq.full = false := by decide +kernel
theorem test_abort : (after (.trkAbort (frame 4 0 [])) (acked [])).wordAt (suit0 + 0x20004) 2 = 0x22 := by decide +kernel

/-! ### Checkpoints: waits, pieces that are answered, and a restore that meets poison -/

/-- A Dry-down of two pieces, the first waiting for its acknowledgement in operation 6, with `k` earlier attempts; the second as given. -/
def pieceOp : OutOp := { storeOp .outstanding 0 with kind := .msg, core := none, key := keyRank 1 }
def pieceAck (status : BitVec 8) : Packet := { acking status with kh := .rank { srcRank := 1, dstRank := 0, queue := 8, slot := 0, srcId := shortId 0xABCD } }
def pieceWaiting (k : Nat) (second : PieceState) : State := (checkpoint 0 5 (fun x => { x with
  st := .draining, set := [⟨0, 256, 0⟩], dry := some { rec_ := record3 0 5, pieces := [.sent 6 k, second], cd := 0, spent := 0 } })).onFab (fun f => { f with ops := [pieceOp], nextId := 7 })
theorem test_meets_piece_ack : (pieceWaiting 2 .acked).ackedOp (pieceAck 0) = some pieceOp ∧ pieceOp.isUnknown = false ∧ (pieceWaiting 2 .acked).pieceOf 6 = some (0, 2) ∧
    (pieceWaiting 3 .acked).pieceOf 6 = some (0, 3) ∧ (pieceAck 0).hdr.jobTag ≠ 0 ∧
    (∀ i x, i ≠ 0 → ([PieceState.sent 6 2, .acked])[i]? = some x → x = .acked) ∧ ¬ (∀ i x, i ≠ 0 → ([PieceState.sent 6 2, .toSend 0])[i]? = some x → x = .acked) := by
  refine ⟨by decide +kernel, by decide, by decide +kernel, by decide +kernel, by decide, fun i x hi hx => ?_, fun h => ?_⟩
  · match i with
    | 0 => exact absurd rfl hi
    | 1 => exact (Option.some.inj hx).symm
    | n + 2 => exact absurd hx (by simp)
  · exact absurd (h 1 (.toSend 0) (by decide) rfl) (by decide)
theorem test_meets_piece_frame : (pieceWaiting 2 .acked).takesFrom ((pieceWaiting 2 .acked).ackRank (pieceAck 0)) (pieceAck 0) := by
  unfold State.takesFrom; decide +kernel
theorem test_piece_ack : (after (.ack (pieceAck 0)) (pieceWaiting 0 .acked)).ckp.st = .drained ∧
    ((after (.ack (pieceAck 0)) (pieceWaiting 0 (.toSend 0))).ckp.dry.map (·.pieces)) = some [.acked, .toSend 0] ∧
    ((after (.ack (pieceAck 0x0B)) (pieceWaiting 1 .acked)).ckp.dry.map (·.pieces)) = some [.nextCd 1, .acked] ∧
    ((after (.ack (pieceAck 0x0C)) (pieceWaiting 2 .acked)).ckp.dry.map (·.pieces)) = some [.toSend 3, .acked] ∧
    (after (.ack (pieceAck 0x0C)) (pieceWaiting 3 .acked)).ckp.st = .held ∧ (after (.ack (pieceAck 0x0C)) (pieceWaiting 3 .acked)).ckp.err.getLsbD 2 = true := by decide +kernel
theorem test_meets_dry_fenced : ((drying false).onFlt (fun f => { f with fenced := true })).flt.fenced = true ∧ (drying false).flt.fenced = false ∧
    ((drying false).onFab (fun f => { f with ranks := [] })).nodeOfRank 1 = none := by decide +kernel
theorem test_meets_copy_lines : (extentLines 0 256).all (fun l => (extentLines 0 256).all (fun l' =>
    decide ((copying false).twinOf l' / 64 = (copying false).twinOf l / 64 → l' = l))) = true ∧ (copying false).deckResetting (decant0.doneSuit / 4) = false := by decide +kernel
theorem test_meets_restore_bad : (restoring true).setFenced (restoring true).ckp.set = false ∧ (restoring true).setPoisoned (restoring true).ckp.set = false ∧
    ((restoring true).onMem (fun m => m.poisonLine ((restoring true).lineOf 64))).setPoisoned (restoring true).ckp.set = true ∧
    ({ restoring false with resets := resetting.resets }).ckpWaits = true := by decide +kernel
theorem test_restore_bad : (after .restoreCopyDone ((restoring true).onMem (fun m => m.poisonLine ((restoring true).lineOf 64)))).ckp.answers = [(4, 0x36)] := by decide +kernel

/-! ### Faults, resets and power: requests that wait, links, trips -/

theorem test_meets_no_request : (regs 0 0).resetReqs = [] ∧ (suit0 + 70) / 64 ∉ live.pdc ∧ (spares 7 true).flt.repairReq = [] ∧ (∃ x ∈ (spares 7 true).flt.repairing, x.1 = 4) ∧
    (deckReset 1 true).linkInReset 7 = true ∧ (spares 7 false).flt.repairReq = [] ∧ live.flt.fenced = false := by decide +kernel
theorem test_cache_miss : (after (.sramError (.pdieCache (BitVec.ofNat 64 (suit0 + 70))) true) live).mem = live.mem ∧
    (after (.dlinkLaneRepair 4) (spares 7 true)).flt.repairReq = [4] := by decide +kernel
/-- Core 20 is in a reset of its own when its Deck is to be reset; that request waits, and takes over at the end of a step (R410). -/
def coreReset (step : Nat) : State := { attached (running id) with
  resets := [{ scope := .core .dlr 20, step := step, began := 0, since := 0, reentry := some 1, hbmKept := true, cores := [20], engines := [], workLost := false, replayed := false }] }
def wanting : State := { coreReset 1 with resetReqs := [{ scope := .deck 1, controller := false, began := 0 }] }
theorem test_meets_waiting_request : (coreReset 1).boot.ready = true ∧ (coreReset 1).scopeExists (.deck 1) = true ∧
    (∀ r ∈ (coreReset 1).resets, (Scope.deck 1).within r.scope = false) ∧ (coreReset 1).mayBegin (.deck 1) = false ∧ (coreReset 1).resetReqs = [] ∧
    (Scope.core .dlr 20).within (.deck 1) = true ∧ (∀ c ∈ [(20 : Fin 192)], c ∈ (Scope.deck 1).cores) ∧ (∀ h ∈ wanting.hnd.inn, h.st ≠ .voted) ∧
    (∃ r ∈ (deckReset 1 true).resets, (Scope.core .dlr 20).within r.scope = true) := by decide +kernel
theorem test_waiting_request : (after (.partialReset (.deck 1) false) (coreReset 1)).resetReqs.map (·.scope) = [.deck 1] ∧
    (after (.resetQuiesceDone (.core .dlr 20)) wanting).resets.map (fun r => (r.scope, r.step, r.cores.contains 20)) = [(.deck 1, 1, true)] := by decide +kernel
/-- Steps 4 to 6: a scope with no crossing, one whose marker is set, a die link that is done, and the return. -/
theorem test_meets_no_crossing : (Scope.core .tbl 3).crosses = false ∧ (Scope.deck 1).crosses = true ∧ memoryStep (.core .dlr 20) = 0 ∧ memoryStep (.deck 1) = 2000 ∧
    ((coreReset 4).resetAt (.core .dlr 20) 4).isSome = true ∧ (∃ r ∈ (shakingAgain 0 true).resets, r.marker ≠ none ∧ r.step = 4) ∧
    (∀ d, (Scope.core .dlr 20) ≠ .deck d) := by
  refine ⟨by decide, by decide, by decide, by decide, by decide +kernel, ⟨_, List.mem_cons_self .., by decide +kernel, by decide +kernel⟩, fun d h => by cases h⟩
def linking (ks : List Nat) (ls : List Nat) : State := realigning 5 true (fun r => { r with toTrain := ks, links := ls })
theorem test_meets_link_done : (7 : Fin 14).val ∈ ((linking [] [7]).resets.head?.map (·.links)).getD [] ∧ (linking [] [7]).flt.repairing = [] ∧
    (linking [] [7]).resets.map (·.step) = [5] ∧ (linking [] [7]).resetReqs = [] := by decide +kernel
theorem test_link_done : (after (.dlinkLaneRepairDone 7) (linking [] [7])).resets.map (·.step) = [6] ∧ (after (.dlinkLaneRepairDone 7) (linking [] [7, 11])).resets.map (fun r => (r.step, r.links)) = [(5, [11])] ∧
    (after (.dlinkLaneRepairDone 7) (linking [4] [7])).resets.map (·.step) = [5] := by decide +kernel
theorem test_meets_no_return : (deckReset 4 true).resetAt (.deck 1) 6 = none ∧ (realigning 6 true id).flt.repairReq = [] ∧ (realigning 6 true id).resetReqs = [] := by decide +kernel

/-- A tripped package in reset, its HBM at 40 or at 100 degrees (R471). -/
def tripped (t : BitVec 8) : State := powered.onPwr (fun p => { p with tripped := true, tempHbm := t })
theorem test_meets_tripped : (tripped 40).pwr.cool = true ∧ (tripped 100).pwr.cool = false ∧ (tripped 40).boot.rstN = false ∧ (tripped 40).boot.supply = true ∧ (tripped 40).pwr.tripped = true := by decide +kernel
theorem test_tripped : (after (.rstNRelease 1) (tripped 40)).boot.stage = 3 ∧ (after (.rstNRelease 1) (tripped 100)).boot.rstN = false := by decide +kernel
/-- No image in either slot; a throttle level already changed in this cd; a package without its supply. -/
theorem test_meets_no_slot : (stage 3 live).imageCheck (stage 3 live).flash.slots[0] ≠ none ∧ (stage 3 live).imageCheck (stage 3 live).flash.slots[1] ≠ none := by decide +kernel
theorem test_meets_throttled : (live.onPwr (fun p => { p with throttled := some 0 })).pwr.throttled = some live.cad.count ∧ live.pwr.throttled ≠ some live.cad.count ∧
    live.cad.phase = 0 ∧ State.reset.boot.supply = false ∧ live.pwr.tripAt = none := by decide +kernel
theorem test_throttle_once : (after (.throttleUpdate 0 0 0 0 761) ((throttling 4 0).onPwr (fun p => { p with throttled := some 0 }))).pwr.level = 4 ∧
    (after (.throttleUpdate 761 0 0 0 720) (throttling 4 0)).pwr.level = 5 ∧ (after (.throttleUpdate 760 0 0 0 720) (throttling 4 0)).pwr.level = 4 := by decide +kernel
theorem test_detach_unpowered : (after (.blockDetach 0) State.reset).pwr.detached = 1 ∧ (after (.blockDetach 0) State.reset).pwr.err = 0 := by decide +kernel

/-! ### Banker: parts, streams, boot records, checkpoints that are busy -/

/-- A part of a staged image, and the transfer that it goes on or does not. -/
def partMsg (part : BitVec 32) (last : Bool) (b : List Byte) : MbxMsg := { ask4 0x0901 0 b with part := part, last := last }
def parting (next : Option Nat) (x : MbxMsg) : State := live.onMbx 2 (fun b => { b with msg := x, xfer := next.map (fun n => ⟨0x0901, 7, n, [1, 2], 0⟩) })
theorem test_meets_part : multiPart 0x0901 = true ∧ (0x0901 : Nat) ∈ mbxCommands ∧ bufferedCmd 0x0601 = false ∧ ((parting none (partMsg 0 false [1])).mbx 2).xfer = none ∧
    ((parting (some 1) (partMsg 1 false [3])).mbx 2).xfer.any (fun p => p.cmd == 0x0901 && p.seq == 7 && p.next == 1) = true ∧
    (parting none (partMsg 0 false [1])).partRefused 2 0x0901 [1] 0 0 = none ∧ live.boot.mbxWait = false := by decide +kernel
theorem test_part : (((parting none (partMsg 0 false [1])).takeUp 2).mbx 2).msg.status = 0 ∧ (((parting (some 2) (partMsg 1 false [3])).takeUp 2).mbx 2).msg.status = 0x0102 ∧
    (((parting (some 1) (partMsg 1 false [3])).takeUp 2).mbx 2).xfer.map (fun t => (t.next, t.data)) = some (2, [1, 2, 3]) ∧
    (((parting (some 1) (partMsg 1 false [3])).takeUp 2).flash.slots[live.spareSlot]) = [0xFF, 0xFF, 3] := by decide +kernel
/-- Polls: at a phase that is a multiple of 3,750, and one cycle after it. -/
def pollAt (phase : Nat) : State := firmware (posted 2 (ask4 0x0101 0 []) (live.onCad (fun c => { lockedOn c with phase := phase })))
theorem test_meets_polls : (pollAt 7500).polls = true ∧ (pollAt 7501).polls = false ∧ (pollAt 7500).cad.st.locked = true ∧ (pollAt 7500).boot.running ≠ [] := by decide +kernel
theorem test_polls : ((after .mailboxPoll (pollAt 7501)).mbx 2).inHand = none ∧ (((after .mailboxPoll (pollAt 7500)).mbx 2).inHand).isSome = true := by decide +kernel
theorem test_meets_buffered : bufferedCmd 0x0401 = true ∧ multiPart 0x0401 = true ∧ ∃ n, 2 ^ 25 < (List.replicate n (0 : Byte)).length :=
  ⟨by decide, by decide, 2 ^ 25 + 1, by rw [List.length_replicate]; decide⟩
theorem test_meets_boot_seq : live.flash.boot.seq.toNat + 1 < 2 ^ 64 ∧ (live.resets = [] ∧ live.resetReqs = []) := by decide +kernel
theorem test_boot_copies : let t := after (.fwActivate 2) ((inHand 2 (ask4 0x0902 0 []) live).onBnk (fun b => { b with staged := true }))
    t.flash.boot.seq = live.flash.boot.seq + 1 ∧ t.flash.copy ≠ live.flash.copy := by decide +kernel
/-- The attach stream: its record, its rank entry and its image take their places as they come. -/
def streamed : List Byte := stream image 0 (2 * 65536)
theorem test_meets_stream : 128 + 16 * leAt streamed 3 1 = 144 ∧ leAt streamed 8 4 = 1 ∧ leAt (streamed.take 144) 112 2 * 2 ^ 20 ≤ live.liveBytes ∧ live.job.attached = false ∧
    (streamed.take 144).length = 144 := by decide +kernel
/-- A Sachet that is busy, and one behind a Deck in reset. -/
theorem test_meets_stage_busy : (holdingStep .decanting).ckp.st = .decanting ∧ (armed true).ckp.phase = .armed ∧ (holdingStep .held).ckpWaits = false ∧
    ({ holdingStep .held with resets := resetting.resets }).ckpWaits = true ∧ (holdingStep .held).ckp.answers = [] ∧ (holdingStep .held).ckp.staging = none ∧
    (holdingStep .held).ckp.reads = [] ∧ (holdingStep .held).ckp.commit = none := by decide +kernel
/-- Counters: enabled or not, gated or not, an edge, a comparison, an event that is not listed; and the samples of every second completion. -/
def counter (f : ScoCtl → ScoCtl) : ScoCounter := { ScoCounter.reset with ctl := f ScoCounter.reset.ctl }
theorem test_meets_counter : (counter id).written = none ∧ (counter id).ctl.enable = false ∧ (counter (fun c => { c with enable := true })).ctl.enable = true ∧
    (counter (fun c => { c with enable := true, gated := true })).ctl.gated = true ∧ (counter (fun c => { c with edge := true })).ctl.edge = true ∧
    (counter (fun c => { c with cmp := 1 })).ctl.cmp = 1 ∧ (counter id).next = none := by decide +kernel
theorem test_counter : let on (f : ScoCtl → ScoCtl) : ScoCounter := counter (fun c => f { c with enable := true })
    ((on id).cycle false (some 5)).count = 5 ∧ ((counter id).cycle false (some 5)).count = 0 ∧ ((on (fun c => { c with gated := true })).cycle false (some 5)).count = 0 ∧
    ((on (fun c => { c with cmp := 1, thresh := 5 })).cycle false (some 5)).count = 0 ∧ ((on (fun c => { c with cmp := 2, thresh := 5 })).cycle false (some 5)).count = 1 ∧
    ((on (fun c => { c with edge := true })).cycle false (some 5)).count = 1 ∧ ((on id).cycle false none).ctl.badEvent = true ∧
    (({ on id with count := 2 ^ 48 - 2 }).cycle false (some 5)).count = 3 ∧ (({ on id with count := 2 ^ 48 - 2 }).cycle false (some 5)).ovf = true := by decide +kernel
def sampled (done : Nat) : State := live.onSco (fun x => x.onInst (.tbl 3) (fun y => { y with period := 2, done := done }))
theorem test_samples : ((sampled 1).completion (.tbl 3) 7 8 9 1).sco.samples.length = 1 ∧ ((sampled 0).completion (.tbl 3) 7 8 9 1).sco.samples = [] ∧
    ((sampled 1).completion (.tbl 3) 7 8 9 1).sco.samples.map (fun r => r.bytes.take 8) = [[1, 1, 3, 0, 9, 0, 0, 0]] := by decide +kernel

theorem test_detach_in_reset : (after (.blockDetach 0) powered).pwr.err.getLsbD 4 = true ∧ (tripped 40).boot.supply = true := by decide +kernel

/-! ### Instruction words of a Dealer core (R219, R222, R225) -/

/-- Words written out by the fields of the formats: R is MAJOR, D, A, B, M, FUNCT. -/
theorem test_word_sub : dealerWord 5 (0b000000_00011_00001_00010_000_00000001 : BitVec 32) = some (.sub 5 3 1 2) := by decide +kernel
theorem test_word_addi : dealerWord 5 (0b000001_00011_00001_1111111111111110 : BitVec 32) = some (.addi 5 3 1 0xFFFE) := by decide +kernel
theorem test_word_shift : dealerWord 5 (0b000110_00011_00001_00000000_10_000101 : BitVec 32) = some (.srai 5 3 1 5) ∧
    dealerWord 5 (0b000110_00011_00001_00000000_11_000101 : BitVec 32) = none := by decide +kernel
theorem test_word_load_store : dealerWord 5 (0b001001_00011_00001_0000000000001000 : BitVec 32) = some (.ld32 5 3 1 8) ∧
    dealerWord 5 (0b010010_00011_00001_0000000000001000 : BitVec 32) = some (.st16 5 3 1 8) := by decide +kernel
theorem test_word_jumps : dealerWord 5 (0b011110_11111111111111111111111110 : BitVec 32) = some (.jmp 5 0x3FFFFFE) ∧
    dealerWord 5 (0b011001_00011_00001_1111111111111111 : BitVec 32) = some (.bne 5 3 1 0xFFFF) := by decide +kernel
theorem test_word_float : dealerWord 5 (0b100001_00011_00001_00010_000_10000011 : BitVec 32) = some (.ffma 5 3 1 2 true) := by decide +kernel
theorem test_word_system : dealerWord 5 (0b100100_00000_00001_00000_000_00001001 : BitVec 32) = some (.wrtvec 5 1) := by decide +kernel
theorem test_word_fabric : dealerWord 5 (0b101001_00011_00001_00010_000_00000001 : BitVec 32) = some (.rget 5 3 1 2) := by decide +kernel
theorem test_word_vector : dealerWord 5 (0b101101_00011_00001_00010_100_00101000 : BitVec 32) = some (.vredsum 5 3 1 2 4) := by decide +kernel
theorem test_word_gather : dealerWord 5 (0b101110_00011_00001_00010_100_11100100 : BitVec 32) = some (.gather 5 3 1 2 4 2 3) := by decide +kernel
theorem test_word_setvl : dealerWord 5 (0b101111_00011_00001_1_0000000_00001010 : BitVec 32) = some (.setvl 5 3 1 true 0x0A) := by decide +kernel
/-- MAJOR 0x0F is not listed, and FUNCT 0x11 is none of the integer group's. -/
theorem test_word_reserved : dealerWord 5 (0b001111_00011_00001_0000000000000000 : BitVec 32) = none ∧
    dealerWord 5 (0b000000_00011_00001_00010_000_00010001 : BitVec 32) = none := by decide +kernel
theorem test_word_traps : (match (regs 0 0).runWord 5 (0b001111_00011_00001_0000000000000000 : BitVec 32) with
    | .next t => (t.core 5).cause
    | _ => 0) = 1 := by decide +kernel

/-- R276, R382: FAB_RETRY in a configuration record at and below the bound that Banker firmware keeps. -/
theorem test_retry_bound : configOk (6, BitVec.ofNat 256 (7 * 2 ^ 32 + 30175)) = true ∧ configOk (6, BitVec.ofNat 256 (7 * 2 ^ 32 + 30174)) = false := by decide +kernel
end Sys2Proof.Tests
end

section
/-!
SUPPORT. Loads and stores of a Dealer core: what bytes they move, and where the bytes stand (R4, R219, R236, R242, R243, R248).
-/
namespace Sys2Proof.Machine

open Sys2Proof

/-! ### Little-endian bytes (R4) -/

@[simp] theorem leBytes_length : ∀ n x : Nat, (leBytes n x).length = n
  | 0, _ => rfl
  | n + 1, x => congrArg (· + 1) (leBytes_length n (x / 256))

/-- Byte `i` of a number. -/
theorem leBytes_getElem : ∀ (n x i : Nat) (h : i < (leBytes n x).length), (leBytes n x)[i] = BitVec.ofNat 8 (x / 256 ^ i)
  | 0, _, _, h => absurd h (Nat.not_lt_zero _)
  | n + 1, x, 0, _ => by simp [leBytes]
  | n + 1, x, i + 1, h => by
    simp only [leBytes, List.getElem_cons_succ, leBytes_getElem n (x / 256) i, Nat.div_div_eq_div_mul, Nat.pow_succ']

@[simp] theorem State.readMem_length (s : State) (a n : Nat) : (s.readMem a n).length = n := by
  simp [State.readMem, upTo]

/-! ### A loaded number in its register (R219) -/

/-- The two's-complement reading of the low bits of a number is that of a word of as many bits. -/
theorem toSigned_eq_toInt (n x : Nat) : toSigned n x = (BitVec.ofNat n x).toInt := by
  rw [BitVec.toInt_eq_toNat_cond, BitVec.toNat_ofNat]
  unfold toSigned
  dsimp only
  split <;> rename_i h
  · rw [if_neg (by omega)]
    push_cast
    rfl
  · rw [if_pos (by omega)]

/-- A load that sign-extends gives its bytes as a word, sign-extended. -/
theorem loadValue_signed (n : Nat) (bs : List Byte) : loadValue n true bs = (BitVec.ofNat (8 * n) (leNat bs)).signExtend 64 :=
  congrArg (BitVec.ofInt 64) (toSigned_eq_toInt (8 * n) (leNat bs))

/-- A load that zero-extends gives the number that its bytes spell. -/
theorem loadValue_unsigned {n : Nat} {bs : List Byte} (h : bs.length = n) : loadValue n false bs = BitVec.ofNat 64 (leNat bs) := by
  subst h
  simp [loadValue]

/-- What a scalar load leaves in its register is the number in memory, extended as its row says. -/
theorem ScalarLoad.setLoaded_eq_put (l : ScalarLoad) (hl : l.toF = true → l.signed = false) (d : Fin 32) {bs : List Byte}
    (h : bs.length = l.size) : Core.setLoaded d.val l.toF (loadValue l.size l.signed bs) = l.put d (leNat bs) := by
  funext x
  have hd : Fin.ofNat 32 d.val = d := Fin.ext (Nat.mod_eq_of_lt d.isLt)
  unfold Core.setLoaded ScalarLoad.put
  rw [hd]
  cases hF : l.toF with
  | true => simp [hl hF, loadValue_unsigned h]
  | false =>
    cases hS : l.signed with
    | true => simp [loadValue_signed]
    | false => simp [loadValue_unsigned h]

/-! ### The rows of the scalar loads and stores (R219) -/

section Rows

variable {c : Fin 192} {d a : Fin 32} {imm : BitVec 16}

/-- Each scalar load is `loadRow` of its size and extension. -/
theorem exec_scalarLoad : ∀ l ∈ scalarLoads c d a imm, ∀ s, exec l.row s = loadRow c d a imm l.size l.signed l.toF s := by
  simp only [scalarLoads, List.forall_mem_cons]
  exact ⟨exec_ld64 c d a imm, exec_ld32 c d a imm, exec_ld16 c d a imm, exec_ld8 c d a imm, exec_ld32u c d a imm, exec_ld16u c d a imm,
    exec_ld8u c d a imm, exec_fld c d a imm, exec_fld32 c d a imm, by simp⟩

/-- A load into Fn does not sign-extend. -/
theorem scalarLoads_float_unsigned : ∀ l ∈ scalarLoads c d a imm, l.toF = true → l.signed = false := by
  simp [scalarLoads]

/-- Each scalar store is `storeRow` of its size and of some reading of the register it stores. -/
theorem exec_scalarStore (s : State) : ∀ r ∈ scalarStores c d a imm (s.core c),
    ∃ v : Core → BitVec 64, v (s.core c) = r.2.2 ∧ exec r.1 s = storeRow c a imm r.2.1 v s := by
  have g (i : Instr) (n : Nat) (h : exec i s = storeRow c a imm n (fun x => x.gr d) s) :
      ∃ v : Core → BitVec 64, v (s.core c) = (s.core c).gr d ∧ exec i s = storeRow c a imm n v s := ⟨_, rfl, h⟩
  have f (i : Instr) (n : Nat) (h : exec i s = storeRow c a imm n (fun x => x.fr d) s) :
      ∃ v : Core → BitVec 64, v (s.core c) = (s.core c).fr d ∧ exec i s = storeRow c a imm n v s := ⟨_, rfl, h⟩
  simp only [scalarStores, List.forall_mem_cons]
  exact ⟨g _ 8 (exec_st64 c d a imm s), g _ 4 (exec_st32 c d a imm s), g _ 2 (exec_st16 c d a imm s), g _ 1 (exec_st8 c d a imm s),
    f _ 8 (exec_fst c d a imm s), f _ 4 (exec_fst32 c d a imm s), by simp⟩

theorem scalarStores_size_le (x : Core) : ∀ r ∈ scalarStores c d a imm x, r.2.1 ≤ 8 := by
  simp [scalarStores]

end Rows

/-- The effective address is G[A] and the immediate, sign-extended. -/
theorem Core.ea_eq (x : Core) (a : Fin 32) (imm : BitVec 16) : x.ea a imm = (x.gr a + BitVec.ofInt 64 imm.toInt).toNat := rfl

/-! ### Retiring, but for the counts -/

/-- A change of a core that keeps its pc, and then its step to the next word, are what an instruction does to its core. -/
theorem coreRuns_onCore (c : Fin 192) {f : Core → Core} (hf : ∀ x, (f x).pc = x.pc) (s : State) :
    (s.onCore c f).coreRuns c id = s.coreRuns c f := by
  unfold State.coreRuns
  rw [onCore_onCore]
  simp only [id, hf]

/-- Retiring moves the core on to the next word. -/
theorem retire4_uncounted (c : Fin 192) (s : State) (detail : Nat) : (s.retire4 c detail).uncounted = (s.coreRuns c id).uncounted := by
  unfold State.retire4 State.coreRuns
  rw [retire_uncounted]
  exact congrArg State.uncounted (onCore_congr rfl)

theorem coreRuns_uncounted {s t : State} (h : s.uncounted = t.uncounted) (c : Fin 192) (f : Core → Core) :
    (s.coreRuns c f).uncounted = (t.coreRuns c f).uncounted := onCore_uncounted h c _

theorem Core.setF_pc (d : Fin 32) (v : BitVec 64) (x : Core) : (x.setF d v).pc = x.pc := rfl

theorem Core.setLoaded_pc (d : Nat) (toF : Bool) (v : BitVec 64) (x : Core) : (x.setLoaded d toF v).pc = x.pc := by
  unfold Core.setLoaded
  split
  · exact Core.setF_pc _ v x
  · exact setG_pc _ v x

/-- What a load that has its bytes leaves. -/
theorem loaded_uncounted (c : Fin 192) (d : Fin 32) (a size : Nat) (signed toF : Bool) (bs : List Byte) (s : State) :
    (s.loaded c d a size signed toF bs).uncounted = (s.coreRuns c (Core.setLoaded d.val toF (loadValue size signed bs))).uncounted := by
  unfold State.loaded
  exact (retire4_uncounted ..).trans (congrArg State.uncounted (coreRuns_onCore c (fun x => x.setLoaded_pc ..) s))

theorem uncounted_mem {s t : State} (h : s.uncounted = t.uncounted) : s.mem = t.mem := (congrArg State.mem h : s.uncounted.mem = t.uncounted.mem)

/-- A load or store brings lines into the P-die cache, and nothing else. -/
theorem pdcFill_eq (k : Store) (a n : Nat) (s : State) : ∃ p, s.pdcFill k a n = { s with pdc := p } := by
  unfold State.pdcFill
  split
  · exact ⟨_, rfl⟩
  · exact ⟨s.pdc, rfl⟩

theorem pdcFill_uncounted (k : Store) (a n : Nat) (s : State) : (s.pdcFill k a n).uncounted = s.uncounted := by
  obtain ⟨p, hp⟩ := pdcFill_eq k a n s
  rw [hp]
  rfl

/-! ### Where the bytes of an address stand (R236, R248) -/

/-- What decides where bytes stand, and which channels are fenced: the inventory, the window geometry, and of each controller its retired
pseudo-channels and its fenced channels. -/
def State.layout (s : State) : Inventory × Nat × Nat × (Nat → BitVec 64 × BitVec 32) :=
  (s.inv, s.liveBytes, s.splitBytes, fun k => ((s.ctl k).retired, (s.ctl k).fencedCh))

theorem State.layout_congr {s t : State} (hi : s.inv = t.inv) (hh : s.hbm = t.hbm) : s.layout = t.layout := by
  simp only [State.layout, State.liveBytes, State.splitBytes, State.ctl, hi, hh]

section Layout

variable {s t : State}

theorem State.outOf_of_layout (h : s.layout = t.layout) : s.outOf = t.outOf := by
  simp only [State.layout, Prod.mk.injEq] at h
  obtain ⟨hi, -, -, hc⟩ := h
  funext k
  simp only [State.outOf, hi, (Prod.mk.inj (congrFun hc k)).1]

theorem State.pchOut_of_layout (h : s.layout = t.layout) : s.pchOut = t.pchOut := by
  funext p
  simp only [State.pchOut, State.outOf_of_layout h]

theorem State.retiredIn_of_layout (h : s.layout = t.layout) : s.retiredIn = t.retiredIn := by
  funext d
  simp only [State.retiredIn, State.outCount, State.outOf_of_layout h]

theorem State.liveBytes_of_layout (h : s.layout = t.layout) : s.liveBytes = t.liveBytes := congrArg (fun l => l.2.1) h

theorem State.splitBytes_of_layout (h : s.layout = t.layout) : s.splitBytes = t.splitBytes := congrArg (fun l => l.2.2.1) h

theorem State.deckWinBase_of_layout (h : s.layout = t.layout) : s.deckWinBase = t.deckWinBase := by
  funext d
  induction d with
  | zero => rfl
  | succ d ih =>
    simp only [State.deckWinBase, State.deckWinSize, ih, State.retiredIn_of_layout h, State.liveBytes_of_layout h,
      State.splitBytes_of_layout h]

theorem State.place_of_layout (h : s.layout = t.layout) : s.place = t.place := by
  funext pkg lo n r g
  simp only [State.place, State.pchOut_of_layout h]

theorem State.retiredAll_of_layout (h : s.layout = t.layout) : s.retiredAll = t.retiredAll := by
  simp only [State.retiredAll, State.retiredIn_of_layout h]

/-- The layout decides the key of a byte. -/
theorem State.keyOf_of_layout (h : s.layout = t.layout) : s.keyOf = t.keyOf := by
  funext a
  unfold State.keyOf State.hbmKey
  rw [State.deckWinBase_of_layout h, State.place_of_layout h, State.retiredIn_of_layout h, State.retiredAll_of_layout h,
    State.liveBytes_of_layout h, State.splitBytes_of_layout h]

/-- The layout decides which store holds an address. -/
theorem State.storeOf_of_layout (h : s.layout = t.layout) : s.storeOf = t.storeOf := by
  have hi : s.inv = t.inv := congrArg (fun l => l.1) h
  funext a
  unfold State.storeOf State.hbmEnd State.pkgWinSize
  rw [hi, State.deckWinBase_of_layout h, State.retiredAll_of_layout h, State.splitBytes_of_layout h]

/-- The layout decides which keys lie in fenced channels. -/
theorem State.fencedKey_of_layout (h : s.layout = t.layout) : s.fencedKey = t.fencedKey := by
  have hc (k : Nat) : (s.ctl k).fencedCh = (t.ctl k).fencedCh := congrArg (fun l => (l.2.2.2 k).2) h
  funext key
  simp only [State.fencedKey, hc]

theorem State.storeCells_of_layout (h : s.layout = t.layout) (a : Nat) (bs : List Byte) : s.storeCells a bs = t.storeCells a bs := by
  simp only [State.storeCells, State.keyOf_of_layout h, State.fencedKey_of_layout h]

/-- Memory, the memory unit and the inventory decide where an extent meets poison. -/
theorem State.poisonedIn_congr (hm : s.mem = t.mem) (hh : s.hbm = t.hbm) (hi : s.inv = t.inv) : s.poisonedIn = t.poisonedIn := by
  have h := State.layout_congr hi hh
  have hl : s.lineOf = t.lineOf := by
    funext a
    rw [State.lineOf, State.lineOf, State.keyOf_of_layout h]
  funext a n
  unfold State.poisonedIn State.anyFenced
  rw [hm, hh, hl, State.keyOf_of_layout h, State.fencedKey_of_layout h]

/-- Memory, the memory unit, the inventory and the engines decide what an address reads as. -/
theorem State.readMem_congr (hm : s.mem = t.mem) (hh : s.hbm = t.hbm) (hi : s.inv = t.inv) (he : s.eng = t.eng) : s.readMem = t.readMem := by
  have h := State.layout_congr hi hh
  funext a n
  simp only [State.readMem, State.byteAt, State.engine, State.storeOf_of_layout h, State.keyOf_of_layout h, hm, hh, he]

end Layout

/-- The lines that the P-die cache holds do not decide where an extent meets poison. -/
theorem pdcFill_poisonedIn (k : Store) (b m : Nat) (s : State) : (s.pdcFill k b m).poisonedIn = s.poisonedIn := by
  obtain ⟨p, hp⟩ := pdcFill_eq k b m s
  rw [hp]
  exact State.poisonedIn_congr rfl rfl rfl

/-- A line that the P-die cache holds reads as memory does. -/
theorem pdcFill_readMem (k : Store) (b m : Nat) (s : State) : (s.pdcFill k b m).readMem = s.readMem := by
  obtain ⟨p, hp⟩ := pdcFill_eq k b m s
  rw [hp]
  exact State.readMem_congr rfl rfl rfl rfl

/-! ### What keeps the layout -/

theorem vget_vmod {α : Type} {n : Nat} (v : Vector α n) (i j : Nat) (f : α → α) (d : α) :
    vget (vmod v i f) j d = if i = j ∧ j < n then f (vget v j d) else vget v j d := by
  unfold vget
  by_cases hj : j < n
  · simp only [hj, dif_pos, and_true, vmod_getElem]
  · simp only [hj, dif_neg, and_false, if_false, not_false_eq_true]

/-- A controller after a change of one. -/
theorem State.ctl_onCtl (s : State) (k j : Nat) (f : HbmCtl → HbmCtl) :
    (s.onCtl k f).ctl j = if k = j ∧ j < 16 then f (s.ctl j) else s.ctl j := vget_vmod s.hbm.ctl k j f _

/-- A controller's counters, error bits and marks are no part of the layout. -/
theorem State.onCtl_layout (s : State) (k : Nat) {f : HbmCtl → HbmCtl} (hr : ∀ c, (f c).retired = c.retired)
    (hf : ∀ c, (f c).fencedCh = c.fencedCh) : (s.onCtl k f).layout = s.layout := by
  have hc (j : Nat) : (((s.onCtl k f).ctl j).retired, ((s.onCtl k f).ctl j).fencedCh) = ((s.ctl j).retired, (s.ctl j).fencedCh) := by
    rw [State.ctl_onCtl]
    split
    · rw [hr, hf]
    · rfl
  unfold State.layout
  rw [funext hc]
  rfl

@[simp] theorem State.onMem_layout (s : State) (f : Memory → Memory) : (s.onMem f).layout = s.layout := rfl

theorem State.raiseIrq_inv (v : Nat) (s : State) : (s.raiseIrq v).inv = s.inv := by
  unfold State.raiseIrq
  split <;> rfl

theorem State.record_inv (s : State) (r : ErrRec) : (s.record r).inv = s.inv := by
  unfold State.record
  extract_lets r p t
  split
  · rfl
  · split
    · exact State.raiseIrq_inv 16 t
    · rfl

@[simp] theorem State.record_layout (s : State) (r : ErrRec) : (s.record r).layout = s.layout :=
  State.layout_congr (State.record_inv s r) (State.record_hbm s r)

@[simp] theorem State.errRecords_layout (b : Block) (u old new : Nat) (s : State) : (s.errRecords b u old new).layout = s.layout :=
  foldl_same State.layout _ (fun s i => by split; rfl; exact State.record_layout ..) _ s

@[simp] theorem State.memErr_layout (k bits : Nat) (s : State) : (s.memErr k bits).layout = s.layout :=
  (State.errRecords_layout ..).trans (State.onCtl_layout s k (fun _ => rfl) (fun _ => rfl))

@[simp] theorem State.markFailing_layout (k pch : Nat) (s : State) : (s.markFailing k pch).layout = s.layout := by
  unfold State.markFailing
  split
  · rfl
  · exact (State.memErr_layout ..).trans (State.onCtl_layout s k (fun _ => rfl) (fun _ => rfl))

theorem HbmCtl.inPeriod_retired (c : HbmCtl) (cd : Count) : (c.inPeriod cd).retired = c.retired := by
  unfold HbmCtl.inPeriod
  dsimp only
  split <;> rfl

theorem HbmCtl.inPeriod_fencedCh (c : HbmCtl) (cd : Count) : (c.inPeriod cd).fencedCh = c.fencedCh := by
  unfold HbmCtl.inPeriod
  dsimp only
  split <;> rfl

@[simp] theorem State.noteCorrected_layout (key : Nat) (s : State) : (s.noteCorrected key).layout = s.layout := by
  unfold State.noteCorrected
  extract_lets k pch cd transfer s1 s2
  have h1 : s1.layout = s.layout := State.onCtl_layout s k (fun c => c.inPeriod_retired cd) (fun c => c.inPeriod_fencedCh cd)
  have h2 : s2.layout = s.layout := (State.record_layout ..).trans h1
  split
  · exact (State.markFailing_layout ..).trans h2
  · exact h2

@[simp] theorem State.noteUncorrectable_layout (key : Nat) (s : State) : (s.noteUncorrectable key).layout = s.layout := by
  unfold State.noteUncorrectable
  extract_lets k pch cd again s1 s2
  have h1 : s1.layout = s.layout := State.onCtl_layout s k (fun _ => rfl) (fun _ => rfl)
  have h2 : s2.layout = s.layout := (State.record_layout ..).trans h1
  split
  · exact (State.markFailing_layout ..).trans h2
  · exact h2

/-- A transfer that is decoded stays where it stands. -/
theorem State.decodeLine_layout (line : Nat) (s : State) : (s.decodeLine line).layout = s.layout := by
  unfold State.decodeLine
  split
  · rfl
  · split <;> simp

/-- The decoding that a store causes moves no byte. -/
theorem State.freshLines_layout (a n : Nat) (s : State) : (s.freshLines a n).layout = s.layout := by
  unfold State.freshLines
  split
  · rfl
  · refine foldl_same State.layout _ (fun s l => ?_) _ s
    dsimp only
    split
    · exact State.onMem_layout ..
    · exact State.decodeLine_layout ..

/-! ### Bytes of a granule have keys of their own (R236) -/

theorem State.liveBytes_sub_splitBytes_dvd (s : State) : 256 ∣ s.liveBytes - s.splitBytes := by
  unfold State.liveBytes State.splitBytes
  omega

/-- A window begins with a granule. -/
theorem State.deckWinBase_dvd (s : State) : ∀ d : Nat, 256 ∣ s.deckWinBase d
  | 0 => Nat.dvd_zero _
  | d + 1 => Nat.dvd_add (s.deckWinBase_dvd d) (Nat.dvd_mul_left_of_dvd s.liveBytes_sub_splitBytes_dvd _)

theorem pchKey_mod (p o : Nat) : pchKey p o % 256 = o % 256 := by
  unfold pchKey
  omega

/-- A byte keeps its place in its granule. -/
theorem State.hbmKey_mod (s : State) (a : Nat) : s.hbmKey a % 256 = a % 256 := by
  have hb := s.deckWinBase_dvd
  have h0 : s.deckWinBase 0 = 0 := rfl
  have hl := s.liveBytes_sub_splitBytes_dvd
  unfold State.hbmKey
  dsimp only
  split
  · rw [pchKey_mod]
    generalize hd : (if a < s.deckWinBase 1 then 0 else if a < s.deckWinBase 2 then 1 else if a < s.deckWinBase 3 then 2 else 3) = d
    have hle : s.deckWinBase d ≤ a := by
      subst hd
      split
      · omega
      · split
        · omega
        · split <;> omega
    have := hb d
    omega
  · rw [pchKey_mod]
    have := hb 4
    omega

theorem State.keyOf_mod (s : State) (a : Nat) : s.keyOf a % 256 = a % 256 := by
  unfold State.keyOf
  split
  · exact s.hbmKey_mod a
  · rfl

/-- Two bytes less than a granule apart have two keys. -/
theorem State.keyOf_inj_near (s : State) {a i j : Nat} (hi : i < 256) (hj : j < 256) (h : s.keyOf (a + i) = s.keyOf (a + j)) : i = j := by
  have h1 := s.keyOf_mod (a + i)
  have h2 := s.keyOf_mod (a + j)
  rw [h] at h1
  omega

/-! ### What memory holds after a store (R219, R243, R248) -/

/-- A key that is written with one byte alone holds it. -/
theorem Memory.get_putAll_unique (k : Nat) (b : Byte) : ∀ (kbs : List (Nat × Byte)) {m : Memory}, m.wf = true → (k, b) ∈ kbs →
    (∀ kb ∈ kbs, kb.1 = k → kb.2 = b) → (m.putAll kbs).get k = b
  | kb :: r, m, h, hm, hu => by
    have hu' : ∀ x ∈ r, x.1 = k → x.2 = b := fun x hx => hu x (List.mem_cons_of_mem _ hx)
    have hw := Memory.wf_put h kb.1 kb.2
    by_cases hr : (k, b) ∈ r
    · exact Memory.get_putAll_unique k b r hw hr hu'
    · have hkb : kb = (k, b) := ((List.mem_cons.mp hm).resolve_right hr).symm
      have hn : ∀ x ∈ r, x.1 ≠ k := fun x hx e => hr (by rwa [← e, ← hu' x hx e])
      refine (Memory.get_putAll_other r k hw hn).trans ?_
      rw [hkb, Memory.get_put h, if_pos rfl]

/-- The cells of a store: of each byte whose channel is not fenced, its key and the byte. -/
theorem State.mem_storeCells {s : State} {a : Nat} {bs : List Byte} {kb : Nat × Byte} : kb ∈ s.storeCells a bs ↔
    ∃ (i : Nat) (h : i < bs.length), s.fencedKey (s.keyOf (a + i)) = false ∧ kb = (s.keyOf (a + i), bs[i]) := by
  simp only [State.storeCells, upTo, List.mem_filter, List.mem_map, Bool.not_eq_true']
  constructor
  · rintro ⟨⟨ib, hib, rfl⟩, hf⟩
    obtain ⟨i, hi, rfl⟩ := List.getElem_of_mem hib
    simp only [List.length_zip, List.length_range, Nat.min_self] at hi
    simp only [List.getElem_zip, List.getElem_range] at hf ⊢
    exact ⟨i, hi, hf, rfl⟩
  · rintro ⟨i, hi, hf, rfl⟩
    refine ⟨⟨(i, bs[i]), ?_, rfl⟩, hf⟩
    exact List.mem_iff_getElem.mpr ⟨i, by simpa using hi, by simp⟩

/-- Memory after a store: the lines it meets decoded or cleared, then its bytes. -/
theorem State.writeMem_mem (s : State) (a : Nat) (bs : List Byte) :
    (s.writeMem a bs).mem = (s.freshLines a bs.length).mem.putAll (s.storeCells a bs) := by
  unfold State.writeMem
  rw [State.pdcDrop_mem, State.onMem_mem, State.storeCells_of_layout (s.freshLines_layout a bs.length)]

/-- A byte of a store, in no fenced channel, stands at its key. -/
theorem State.writeMem_get_byte {s : State} {a : Nat} {bs : List Byte} (h : s.mem.wf = true) (hn : bs.length ≤ 256) {i : Nat}
    (hi : i < bs.length) (hf : s.fencedKey (s.keyOf (a + i)) = false) : (s.writeMem a bs).mem.get (s.keyOf (a + i)) = bs[i] := by
  rw [State.writeMem_mem]
  refine Memory.get_putAll_unique _ _ _ (State.freshLines_wf _ _ s h) (State.mem_storeCells.mpr ⟨i, hi, hf, rfl⟩) (fun kb hkb hk => ?_)
  obtain ⟨j, hj, -, rfl⟩ := State.mem_storeCells.mp hkb
  have : j = i := s.keyOf_inj_near (by omega) (by omega) hk
  simp only [this]

/-- A key that is none of a store's holds what it holds once the store's lines are decoded or cleared. -/
theorem State.writeMem_get_outside {s : State} {a : Nat} {bs : List Byte} (h : s.mem.wf = true) {key : Nat}
    (hk : ∀ i, i < bs.length → key ≠ s.keyOf (a + i)) : (s.writeMem a bs).mem.get key = (s.freshLines a bs.length).mem.get key := by
  rw [State.writeMem_mem]
  refine Memory.get_putAll_other _ key (State.freshLines_wf _ _ s h) (fun kb hkb e => ?_)
  obtain ⟨j, hj, -, rfl⟩ := State.mem_storeCells.mp hkb
  exact hk j hj e.symm

/-! ### Loads and stores of local memory -/

/-- A load of local memory leaves the bytes that its decoded transfers hold in its register. -/
theorem loadAt_uncounted {s : State} {c : Fin 192} {a size : Nat} (h : ReadsMemory s c a size) (d : Fin 32) (signed toF : Bool) :
    (s.loadAt c d a size signed toF).uncounted = ((s.settle a size).coreRuns c
      (Core.setLoaded d.val toF (loadValue size signed ((s.settle a size).readMem a size)))).uncounted := by
  obtain ⟨⟨k, hk⟩, -, hp⟩ := h
  unfold State.loadAt
  rw [hk]
  dsimp only
  rw [pdcFill_poisonedIn, hp, pdcFill_readMem, if_neg Bool.false_ne_true, loaded_uncounted]
  exact coreRuns_uncounted (pdcFill_uncounted ..) c _

/-- A store of a core to plain memory is a store of its bytes. -/
theorem State.storeTo_plain {k : Store} (h : k.plain = true) (a : Nat) (bs : List Byte) (s : State) : s.storeTo k a bs = s.writeMem a bs := by
  cases k with
  | hbm | suit | organ => rfl
  | acc | tile | pip | sbuf => exact absurd h Bool.false_ne_true

/-- A store to plain local memory leaves its bytes, and its core moves on. -/
theorem storeAt_uncounted {s : State} {c : Fin 192} {a : Nat} {bs : List Byte} (h : WritesMemory s c a bs.length) :
    (s.storeAt_ c a bs).uncounted = ((s.writeMem a bs).coreRuns c id).uncounted := by
  obtain ⟨⟨k, hk, hplain⟩, -⟩ := h
  unfold State.storeAt_
  rw [hk]
  dsimp only
  rw [retire4_uncounted, State.storeTo_plain hplain]
  exact coreRuns_uncounted (pdcFill_uncounted ..) c id

/-- A scalar load that reads local memory now acts. -/
theorem loadRow_answers {s : State} {c : Fin 192} {a : Fin 32} {imm : BitVec 16} {size : Nat} (hs : Issues s c)
    (h : ReadsMemory s c ((s.core c).ea a imm) size) (d : Fin 32) (signed toF : Bool) :
    Answers (loadRow c d a imm size signed toF s) (s.loadAt c d ((s.core c).ea a imm) size signed toF) := by
  obtain ⟨-, hnow, -⟩ := h
  unfold Answers loadRow
  simp only [onIssue_next hs, onlyIf, hnow, if_true]

/-- A scalar store that writes local memory now acts. -/
theorem storeRow_answers {s : State} {c : Fin 192} {a : Fin 32} {imm : BitVec 16} {size : Nat} (hs : Issues s c)
    (h : WritesMemory s c ((s.core c).ea a imm) size) (v : Core → BitVec 64) :
    Answers (storeRow c a imm size v s) (s.storeAt_ c ((s.core c).ea a imm) (leBytes size (v (s.core c)).toNat)) := by
  obtain ⟨-, hnow⟩ := h
  unfold Answers storeRow
  simp only [onIssue_next hs, onlyIf, hnow, if_true]

/-- A scalar load of local memory puts the number that its decoded bytes spell in its register. -/
theorem scalarLoad_leaves {s : State} {c : Fin 192} {d a : Fin 32} {imm : BitVec 16} {ad : Nat} (hs : Issues s c)
    (had : (s.core c).ea a imm = ad) {l : ScalarLoad} (hl : l ∈ scalarLoads c d a imm) (h : ReadsMemory s c ad l.size) :
    Leaves l.row s ((s.settle ad l.size).coreRuns c (l.put d ((s.settle ad l.size).wordAt ad l.size))) := by
  subst had
  refine ⟨_, (exec_scalarLoad l hl s).trans (loadRow_answers hs h d l.signed l.toF), ?_⟩
  rw [loadAt_uncounted h, l.setLoaded_eq_put (scalarLoads_float_unsigned l hl) d (State.readMem_length ..)]
  rfl

/-- A scalar store to plain local memory answers a state that is, but for the counts, its bytes written and its core moved on. -/
theorem scalarStore_leaves {s : State} {c : Fin 192} {d a : Fin 32} {imm : BitVec 16} {ad : Nat} (hs : Issues s c)
    (had : (s.core c).ea a imm = ad) {r : Instr × Nat × BitVec 64} (hr : r ∈ scalarStores c d a imm (s.core c))
    (h : WritesMemory s c ad r.2.1) : Leaves r.1 s ((s.writeMem ad (leBytes r.2.1 r.2.2.toNat)).coreRuns c id) := by
  subst had
  obtain ⟨v, hv, hexec⟩ := exec_scalarStore s r hr
  refine ⟨_, hexec.trans (storeRow_answers hs h v), ?_⟩
  rw [hv]
  exact storeAt_uncounted (by rwa [leBytes_length])

/-- Settles O5. A load runs on the decoded memory and retires; a store decodes the lines it meets and then writes bytes whose keys differ,
since a byte keeps its place within its granule of 256 bytes. -/
theorem scalarLoadsAndStoresMoveTheirBytes : Obligations.ScalarLoadsAndStoresMoveTheirBytes := by
  unfold Obligations.ScalarLoadsAndStoresMoveTheirBytes
  constructor
  · intro s c d a imm hs ad l hl h
    exact scalarLoad_leaves hs (Core.ea_eq ..) hl h
  · intro s c d a imm hs hwf ad r hr h
    have hleaves := scalarStore_leaves hs (Core.ea_eq ..) hr h
    refine ⟨hleaves, ?_⟩
    obtain ⟨t, ht, he⟩ := hleaves
    have hm : t.mem = (s.writeMem ad (leBytes r.2.1 r.2.2.toNat)).mem := (uncounted_mem he).trans (State.onCore_mem ..)
    refine ⟨t, ht, fun i hi hf => ?_, fun key hk => ?_⟩
    · have hsize := scalarStores_size_le _ r hr
      rw [hm, State.writeMem_get_byte hwf (by rw [leBytes_length]; omega) (by rwa [leBytes_length]) hf, leBytes_getElem]
    · rw [hm, State.writeMem_get_outside hwf (by rwa [leBytes_length]), leBytes_length]

end Sys2Proof.Machine
end

section
/-!
SUPPORT. Records, and what stands beside the error log (R117, R369, R390-R392, R416); an engine after a change of one (R90-R94).
-/
namespace Sys2Proof.Machine

open Sys2Proof

/-! ### Records change the error log, its counts and the vectors it raises, and nothing else -/

/-- `t` is `s` but for the fault unit's log, the Banker's pending vectors and the vectors raised (R391, R416). -/
def State.LogsTo (s t : State) : Prop := ∃ f b q, t = { s with flt := f, bnk := b, irq := q }

theorem State.LogsTo.refl (s : State) : s.LogsTo s := ⟨s.flt, s.bnk, s.irq, rfl⟩

theorem State.LogsTo.trans {s t u : State} : s.LogsTo t → t.LogsTo u → s.LogsTo u := by
  rintro ⟨_, _, _, rfl⟩ ⟨f, b, q, rfl⟩
  exact ⟨f, b, q, rfl⟩

/-- The units of which a record changes nothing. -/
theorem State.LogsTo.fields {s t : State} : s.LogsTo t → t.cad = s.cad ∧ t.mem = s.mem ∧ t.cores = s.cores ∧ t.inv = s.inv ∧ t.eng = s.eng := by
  rintro ⟨_, _, _, rfl⟩
  exact ⟨rfl, rfl, rfl, rfl, rfl⟩

theorem State.raiseIrq_logs (v : Nat) (s : State) : s.LogsTo (s.raiseIrq v) := by
  unfold State.raiseIrq
  split
  · exact ⟨s.flt, _, s.irq, rfl⟩
  · exact ⟨s.flt, s.bnk, _, rfl⟩

theorem State.onFlt_logs (f : FaultUnit → FaultUnit) (s : State) : s.LogsTo (s.onFlt f) := ⟨_, s.bnk, s.irq, rfl⟩

theorem State.record_logs (r : ErrRec) (s : State) : s.LogsTo (s.record r) := by
  unfold State.record
  extract_lets r p t
  split
  · exact State.onFlt_logs _ s
  · split
    · exact (State.onFlt_logs _ s).trans (State.raiseIrq_logs 16 t)
    · exact State.onFlt_logs _ s

theorem State.foldl_logs {α : Type} (f : State → α → State) (hf : ∀ (s : State) a, s.LogsTo (f s a)) (l : List α) (s : State) : s.LogsTo (l.foldl f s) :=
  foldl_keeps (fun t => s.LogsTo t) f l s (State.LogsTo.refl s) (fun t a h => h.trans (hf t a))

theorem State.errRecords_logs (b : Block) (u old new : Nat) (s : State) : s.LogsTo (s.errRecords b u old new) :=
  State.foldl_logs _ (fun s i => by
    split
    · exact State.LogsTo.refl s
    · exact State.record_logs _ s) _ s

/-! ### An engine after a change of one -/

theorem State.onEngine_engine (k : EngKind) (i : Nat) (f : Engine → Engine) (s : State) (hi : i < k.count) :
    (s.onEngine k i f).engine k i = f (s.engine k i) := by
  cases k <;> exact (vget_vmod ..).trans (if_pos ⟨rfl, hi⟩)

/-- A change of an engine leaves those of another kind. -/
theorem State.onEngine_engine_ne {k m : EngKind} (h : k ≠ m) (i j : Nat) (f : Engine → Engine) (s : State) :
    (s.onEngine k i f).engine m j = s.engine m j := by
  cases k <;> cases m <;> simp_all [State.onEngine, State.engine]

/-- What a change of an engine keeps of every engine, it keeps of each. -/
theorem State.onEngine_engine_same {α : Type} (g : Engine → α) {f : Engine → Engine} (hf : ∀ e, g (f e) = g e) (k m : EngKind) (i j : Nat)
    (s : State) : g ((s.onEngine k i f).engine m j) = g (s.engine m j) := by
  have same {n : Nat} (v : Vector Engine n) : g (vget (vmod v i f) j Engine.reset) = g (vget v j Engine.reset) := by
    rw [vget_vmod]
    split
    · exact hf _
    · rfl
  by_cases h : k = m
  · subst h
    cases k <;> exact same _
  · rw [State.onEngine_engine_ne h]

/-- An engine that has a descriptor or a submission is one that its kind has. -/
theorem State.engine_in_range {s : State} {k : EngKind} {i : Nat} (h : (s.engine k i).fifo ≠ [] ∨ (s.engine k i).port ≠ []) : i < k.count := by
  refine Decidable.byContradiction fun hi => ?_
  have past {n : Nat} (v : Vector Engine n) (hn : ¬ i < n) : vget v i Engine.reset = Engine.reset := dif_neg hn
  have : s.engine k i = Engine.reset := by cases k <;> exact past _ hi
  rw [this] at h
  exact h.elim (fun h => h rfl) (fun h => h rfl)

theorem State.engine_congr {s t : State} (h : s.eng = t.eng) : s.engine = t.engine := by
  funext k i
  simp only [State.engine, h]

/-- An engine's error bits and their records change no descriptor, no memory and no core. -/
theorem State.engErr_logs (k : EngKind) (i bits : Nat) (s : State) :
    (s.onEngine k i (fun e => { e with err := e.err ||| BitVec.ofNat 6 bits })).LogsTo (s.engErr k i bits) := State.errRecords_logs ..

end Sys2Proof.Machine
end

section
/-!
SUPPORT. What reset leaves in each unit (R25, R34, R116, R216, R231, R258, R259, R286, R314, R393, R446, R473).
-/
namespace Sys2Proof.Machine

open Sys2Proof

theorem reset_core (c : Fin 192) : State.reset.core c = Core.reset := by
  simp [State.core, State.reset]

theorem reset_engine (k : EngKind) (i : Nat) : State.reset.engine k i = Engine.reset := by
  have all (n : Nat) : vget (Vector.replicate n Engine.reset) i Engine.reset = Engine.reset := by
    unfold vget
    split
    · exact Vector.getElem_replicate _
    · rfl
  cases k
  · exact all 64
  · exact all 64
  · exact all 16
  · exact all 16

theorem reset_port (p : Fin 32) : State.reset.fab.ports[p] = Port.reset p := by
  simp [State.reset, Fabric.reset]

theorem reset_ctl (k : Fin 16) : State.reset.ctl k = HbmCtl.reset := by
  simp [State.ctl, vget, State.reset, MemUnit.reset]

/-- Settles O57: each unit's registers at reset are read off its reset value. -/
theorem resetLeavesTheStatedValues : Obligations.ResetLeavesTheStatedValues := by
  unfold Obligations.ResetLeavesTheStatedValues
  refine ⟨fun c => ?_, ⟨rfl, rfl, rfl, rfl, rfl⟩, fun k i _ => ?_, ⟨rfl, rfl, rfl, rfl, rfl, rfl, rfl, rfl, rfl, rfl, rfl⟩, fun p => ?_,
    fun k => ?_, ⟨rfl, rfl, rfl, rfl⟩, ⟨rfl, rfl, rfl, rfl, rfl, rfl⟩, ⟨rfl, rfl, rfl, rfl, rfl⟩,
    ⟨rfl, rfl, rfl, rfl, rfl, rfl, rfl⟩⟩
  · rw [reset_core]
    exact ⟨rfl, rfl, rfl, rfl, rfl, rfl, rfl, rfl⟩
  · rw [reset_engine]
    exact ⟨rfl, rfl, rfl⟩
  · rw [reset_port]
    exact ⟨rfl, rfl, rfl, rfl, rfl⟩
  · rw [reset_ctl]
    exact ⟨rfl, rfl, rfl, rfl, rfl⟩

end Sys2Proof.Machine
end

section
/-!
SUPPORT. Submissions: ports, acceptance and the head of the FIFO (R33, R35, R91-R94, R228).
-/
namespace Sys2Proof.Machine

open Sys2Proof

/-! ### The descriptor that SUBMIT leaves at a port (R228) -/

theorem Core.wide_succ (x : Core) (a : Fin 32) (n : Nat) :
    x.wide a (n + 1) = x.wide a n + (x.vr (Fin.ofNat 32 (a.val + n))).toNat * 2 ^ (128 * n) := by
  simp [Core.wide, upTo, List.range_succ]

theorem Core.wide_lt (x : Core) (a : Fin 32) : ∀ n : Nat, x.wide a n < 2 ^ (128 * n)
  | 0 => by simp [Core.wide, upTo]
  | n + 1 => by
    have ih := Core.wide_lt x a n
    have hv := (x.vr (Fin.ofNat 32 (a.val + n))).isLt
    rw [Core.wide_succ, Nat.mul_succ, Nat.pow_add]
    calc x.wide a n + (x.vr (Fin.ofNat 32 (a.val + n))).toNat * 2 ^ (128 * n)
        < 2 ^ (128 * n) * ((x.vr (Fin.ofNat 32 (a.val + n))).toNat + 1) := by rw [Nat.mul_succ, Nat.mul_comm]; omega
      _ ≤ 2 ^ (128 * n) * 2 ^ 128 := Nat.mul_le_mul_left _ hv

/-- Consecutive vector registers read as one number hold each register in its place. -/
theorem Core.wide_reg (x : Core) (a : Fin 32) {j : Nat} : ∀ n, j < n →
    x.wide a n / 2 ^ (128 * j) % 2 ^ 128 = (x.vr (Fin.ofNat 32 (a.val + j))).toNat
  | n + 1, hj => by
    rw [Core.wide_succ]
    rcases Nat.lt_succ_iff_lt_or_eq.mp hj with hj | rfl
    · have hpow : 2 ^ (128 * n) = 2 ^ (128 * (n - j - 1)) * 2 ^ 128 * 2 ^ (128 * j) := by
        rw [← Nat.pow_add, ← Nat.pow_add]
        congr 1
        omega
      rw [hpow, ← Nat.mul_assoc, Nat.add_mul_div_right _ _ (Nat.two_pow_pos _), ← Nat.mul_assoc, Nat.add_mul_mod_self_right,
        Core.wide_reg x a n hj]
    · rw [Nat.add_mul_div_right _ _ (Nat.two_pow_pos _), Nat.div_eq_of_lt (Core.wide_lt x a _), Nat.zero_add,
        Nat.mod_eq_of_lt (BitVec.isLt _)]

/-- Each register is a word of the registers read as one bit vector. -/
theorem Core.wide_word (x : Core) (a : Fin 32) (n : Nat) {j : Nat} (hj : j < n) :
    (BitVec.ofNat (128 * n) (x.wide a n)).extractLsb' (128 * j) 128 = x.vr (Fin.ofNat 32 (a.val + j)) := by
  apply BitVec.eq_of_toNat_eq
  rw [BitVec.extractLsb'_toNat, BitVec.toNat_ofNat, Nat.mod_eq_of_lt (x.wide_lt a n), Nat.shiftRight_eq_div_pow]
  exact x.wide_reg a n hj

/-- V[B+j] is word `j` of the descriptor. -/
theorem Core.descriptor_word (x : Core) (b : Fin 32) (j : Fin 8) :
    (x.descriptor b).extractLsb' (128 * j) 128 = x.vr (Fin.ofNat 32 (b.val + j)) := x.wide_word b 8 j.isLt

/-! ### SUBMIT (R93, R228) -/

section Submit

variable {s : State} {c : Fin 192} {a b : Fin 32} {k : EngKind}

/-- SUBMIT of a core that issues acts at the address in G[A]. -/
theorem submit_answers (hs : Issues s c) : Answers (exec (.submit c a b) s) (s.submitTo c b ((s.core c).gr a).toNat) := onIssue_next hs _

theorem submitTo_unaligned {n : Nat} (hb : b.val % 8 ≠ 0) : s.submitTo c b n = s.trap c 6 := by
  unfold State.submitTo
  split
  · rw [if_pos hb]; rfl
  · rfl

theorem submitTo_noPort {n : Nat} (h : ∀ k w, regAddr n ≠ some (.eng k, w, 0)) : s.submitTo c b n = s.trap c 6 := by
  unfold State.submitTo
  split
  · exact absurd ‹_› (h _ _)
  · rfl

/-- A descriptor waits last at the port of one engine's window, and its core waits. -/
theorem submitTo_port {n i : Nat} (hb : b.val % 8 = 0) (ha : regAddr n = some (.eng k, .inst i, 0)) (hp : s.engPresent k i = true)
    (hst : s.dealerStores (.eng k) (.inst i) 0 = true) : s.submitTo c b n =
    ((s.stalled c 5).onEngine k i (fun e => { e with port := e.port ++ [⟨some c, (s.core c).flush, (s.core c).descriptor b⟩] })).onCore c
      (fun y => { y with stall := some .submit }) := by
  unfold State.submitTo
  simp [ha, hb, hp, hst]

/-- SUBMIT to a group or all window sets SUBMIT_WIN at the engines of the job, and its core goes on. -/
theorem submitTo_window {n : Nat} (hb : b.val % 8 = 0) (ha : regAddr n = some (.eng k, .group, 0) ∨ regAddr n = some (.eng k, .all, 0))
    (hj : s.job.attached = true) : ∃ is : List Nat, s.submitTo c b n = (is.foldl (fun s i => s.engErr k i 8) s).retire4 c := by
  unfold State.submitTo
  rcases ha with ha | ha
  · exact ⟨(s.selected (.eng k) .group).filter (s.job.uses.namesReg (.eng k)), by simp [ha, hb, hj]⟩
  · exact ⟨(s.selected (.eng k) .all).filter (s.job.uses.namesReg (.eng k)), by simp [ha, hb, hj]⟩

end Submit

/-! ### What a core that goes on leaves alone -/

theorem uncounted_cores {s t : State} (h : s.uncounted = t.uncounted) : s.cores = t.cores :=
  (congrArg State.cores h : s.uncounted.cores = t.uncounted.cores)

theorem uncounted_eng {s t : State} (h : s.uncounted = t.uncounted) : s.eng = t.eng :=
  (congrArg State.eng h : s.uncounted.eng = t.uncounted.eng)

theorem coreRuns_cores {s t : State} (h : s.cores = t.cores) (c : Fin 192) (f : Core → Core) :
    (s.coreRuns c f).cores = (t.coreRuns c f).cores := by
  unfold State.coreRuns State.onCore
  rw [h]

/-- The SUBMIT that a core waits on completes: the core goes on, and memory and the engines stay (R228). -/
theorem submitDone_fields (o : Option (Fin 192)) (s : State) :
    (∀ c, o = some c → (s.submitDone o).cores = (s.coreRuns c (fun x => { x with stall := none })).cores) ∧
    (o = none → (s.submitDone o).cores = s.cores) ∧ (s.submitDone o).mem = s.mem ∧ (s.submitDone o).eng = s.eng := by
  cases o with
  | none => exact ⟨fun _ h => absurd h (by simp), fun _ => rfl, rfl, rfl⟩
  | some c =>
    have h : (s.submitDone (some c)).uncounted = (s.coreRuns c (fun x => { x with stall := none })).uncounted :=
      (retire4_uncounted c _ 0).trans (congrArg State.uncounted (coreRuns_onCore c (by intro _; rfl) s))
    refine ⟨fun d hd => ?_, fun h => absurd h (by simp), (uncounted_mem h).trans rfl, (uncounted_eng h).trans rfl⟩
    obtain rfl := Option.some.inj hd
    exact uncounted_cores h

/-- Error bits of engines leave cores, memory, FIFOs and ports. -/
theorem engErrs_fields (k : EngKind) (bits : Nat) (is : List Nat) (s : State) :
    let t := is.foldl (fun s i => s.engErr k i bits) s
    t.cores = s.cores ∧ t.mem = s.mem ∧ ∀ m j, (t.engine m j).fifo = (s.engine m j).fifo ∧ (t.engine m j).port = (s.engine m j).port := by
  refine foldl_keeps (fun t : State => t.cores = s.cores ∧ t.mem = s.mem ∧
    ∀ m j, (t.engine m j).fifo = (s.engine m j).fifo ∧ (t.engine m j).port = (s.engine m j).port) _ is s
    ⟨rfl, rfl, fun _ _ => ⟨rfl, rfl⟩⟩ (fun t i ⟨hc, hm, he⟩ => ?_)
  obtain ⟨-, hmem, hcores, -, heng⟩ := (State.engErr_logs k i bits t).fields
  refine ⟨hcores.trans hc, hmem.trans hm, fun m j => ?_⟩
  rw [State.engine_congr heng]
  exact ⟨(State.onEngine_engine_same Engine.fifo (by intro _; rfl) k m i j t).trans (he m j).1,
    (State.onEngine_engine_same Engine.port (by intro _; rfl) k m i j t).trans (he m j).2⟩

/-- SUBMIT to a group or all window leaves cores but its own, memory, FIFOs and ports. -/
theorem submit_window_completes {s : State} {c : Fin 192} {a b : Fin 32} {k : EngKind} (hs : Issues s c) (hb : b.val % 8 = 0)
    (ha : regAddr ((s.core c).gr a).toNat = some (.eng k, .group, 0) ∨ regAddr ((s.core c).gr a).toNat = some (.eng k, .all, 0))
    (hj : s.job.attached = true) : Completes (.submit c a b) s (fun t => t.cores = (s.coreRuns c id).cores ∧ t.mem = s.mem ∧
      ∀ j, (t.engine k j).fifo = (s.engine k j).fifo ∧ (t.engine k j).port = (s.engine k j).port) := by
  obtain ⟨is, his⟩ := submitTo_window hb ha hj
  obtain ⟨hc, hm, he⟩ := engErrs_fields k 8 is s
  have hr := retire4_uncounted c (is.foldl (fun s i => s.engErr k i 8) s) 0
  refine ⟨_, submit_answers hs, ?_⟩
  rw [his]
  refine ⟨(uncounted_cores hr).trans (coreRuns_cores hc c id), (uncounted_mem hr).trans hm, fun j => ?_⟩
  rw [State.engine_congr (uncounted_eng hr)]
  exact he k j

/-! ### Acceptance (R91-R94) -/

/-- The engine after it has taken the submission in front. -/
def Engine.taking (sub : Submission) (rest : List Submission) (r : Accepted) (now : Nat) (e : Engine) : Engine := { e with
  port := rest, seq := e.seq + 1, err := if r.status = 0x12 then e.err ||| 1 else e.err
  fifo := e.fifo ++ [{ sub := sub, image := r.image, stab := r.stab, status := BitVec.ofNat 16 r.status, seq := e.seq, at_ := now }] }

section Accept

variable {s : State} {k : EngKind} {n : Nat} {check : State → Submission → Accepted} {sub : Submission} {rest : List Submission}

theorem accept_full (hf : 64 ≤ (s.engine k n).fifo.length) : s.accept k n check = s := by
  unfold State.accept
  dsimp only
  split
  · rfl
  · rw [if_pos (Or.inl hf)]

/-- What acceptance does before the submitting core goes on: the FIFO takes the descriptor, and a poisoned block is an error. -/
def State.takes (s : State) (k : EngKind) (n : Nat) (sub : Submission) (rest : List Submission) (r : Accepted) : State :=
  let t := s.onEngine k n (fun e => { e with
    port := rest, seq := e.seq + 1
    fifo := e.fifo ++ [{ sub := sub, image := r.image, stab := r.stab, status := BitVec.ofNat 16 r.status, seq := e.seq, at_ := s.now }] })
  if r.status = stPoison then t.engErr k n 1 else t

theorem takes_fields (r : Accepted) (hn : n < k.count) :
    (s.takes k n sub rest r).engine k n = (s.engine k n).taking sub rest r s.now ∧
    (s.takes k n sub rest r).cores = s.cores ∧ (s.takes k n sub rest r).mem = s.mem := by
  unfold State.takes Engine.taking
  by_cases hp : r.status = stPoison
  · simp only [if_pos hp, if_pos (show r.status = 0x12 from hp)]
    generalize ht : s.onEngine k n _ = t
    obtain ⟨-, hmem, hcores, -, heng⟩ := (State.engErr_logs k n 1 t).fields
    subst ht
    refine ⟨?_, hcores, hmem⟩
    rw [State.engine_congr heng, State.onEngine_engine _ _ _ _ hn, State.onEngine_engine _ _ _ _ hn]
    rfl
  · simp only [if_neg hp, if_neg (show ¬ r.status = 0x12 from hp)]
    exact ⟨State.onEngine_engine _ _ _ _ hn, rfl, rfl⟩

/-- An engine with room takes the submission that has waited longest, whose core goes on. -/
theorem accept_takes (hp : (s.engine k n).port = sub :: rest) (hr : s.engInReset k n = false) (hf : (s.engine k n).fifo.length < 64) :
    let t := s.accept k n check
    t.engine k n = (s.engine k n).taking sub rest (check s sub) s.now ∧
    (∀ c, sub.core = some c → t.cores = (s.coreRuns c (fun x => { x with stall := none })).cores) ∧
    (sub.core = none → t.cores = s.cores) ∧ t.mem = s.mem := by
  have hn : n < k.count := State.engine_in_range (Or.inr (by rw [hp]; exact List.cons_ne_nil _ _))
  have ht : s.accept k n check = (s.takes k n sub rest (check s sub)).submitDone sub.core := by
    unfold State.accept
    have hnot : ¬ ((s.engine k n).fifo.length ≥ 64 ∨ s.engInReset k n = true) := by simp [hr, hf]
    simp only [hp, if_neg hnot]
    rfl
  obtain ⟨heng, hcores, hmem⟩ := takes_fields (s := s) (sub := sub) (rest := rest) (check s sub) hn
  obtain ⟨hsome, hnone, hm, he⟩ := submitDone_fields sub.core (s.takes k n sub rest (check s sub))
  rw [ht]
  exact ⟨by rw [State.engine_congr he, heng], fun c hc => (hsome c hc).trans (coreRuns_cores hcores c _),
    fun hc => (hnone hc).trans hcores, hm.trans hmem⟩

/-- The row of acceptance at an engine: it takes the submission in front where the FIFO has room, and leaves the state where it has none. -/
theorem accept_row {row : Instr} (hrow : exec row s = inService s (State.accept k n check)) (hs : s.serves = true)
    (hp : (s.engine k n).port = sub :: rest) (hr : s.engInReset k n = false) :
    ((s.engine k n).fifo.length < 64 → Completes row s (fun t =>
      t.engine k n = (s.engine k n).taking sub rest (check s sub) s.now ∧
      (∀ c, sub.core = some c → t.cores = (s.coreRuns c (fun x => { x with stall := none })).cores) ∧
      (sub.core = none → t.cores = s.cores) ∧ t.mem = s.mem)) ∧
    (64 ≤ (s.engine k n).fifo.length → Answers (exec row s) s) := by
  have h : exec row s = .next (s.accept k n check) := hrow.trans (inService_next hs _)
  exact ⟨fun hf => ⟨_, h, accept_takes hp hr hf⟩, fun hf => h.trans (congrArg _ (accept_full hf))⟩

end Accept

/-! ### The head of the FIFO (R33, R35, R91) -/

section Timed

variable {s : State} {rel : Nat} (h : rel ≠ relOnArrival)
include h

theorem relReached_timed : relReached s rel = decide (relTime rel ≤ s.now) := by
  simp only [relReached, beq_eq_false_iff_ne.mpr h, Bool.false_or]

theorem relLate_timed : relLate s rel = decide (relTime rel < s.now) := by
  simp only [relLate, bne_iff_ne.mpr h, Bool.true_and]

theorem firstEffect_timed (lag : Nat) : firstEffect s rel lag = if relTime rel < s.now then s.now + lag else relTime rel + lag := by
  simp only [firstEffect, h, false_or]

end Timed

/-- The head of a descriptor that has passed its checks and comes to the front now. -/
def State.newHead (s : State) (k : EngKind) (i : Nat) (x : Entry) : Head :=
  let rel := descRelease k x.sub.desc
  { Head.idle with
    since := s.now
    seen := if relReached s rel then (waitSet k x.sub.desc).filter (s.pipUp (engineSuit k i)) else []
    phase := if relReached s rel then .waitPips else .waitRelease
    late := relLate s rel
    firstEffect := firstEffect s rel 4 }

section Head

variable {s : State} {k : EngKind} {i : Fin 64} {x : Entry} {rest : List Entry}

/-- A descriptor comes to the front of an idle engine that runs. -/
theorem descriptorHead_answers (hs : s.serves = true) (hf : (s.engine k i).fifo = x :: rest) (hi : (s.engine k i).head.phase = .idle)
    (hrun : (s.engine k i).runBit = true) (hr : s.engInReset k i = false) : Answers (exec (.descriptorHead k i) s)
    (if x.status ≠ 0 then s.finish k i x.status.toNat else s.onHead k i (fun _ => s.newHead k i x)) := by
  unfold Answers
  rw [exec_descriptorHead, execDescriptorHead, inService_next hs]
  simp [hf, hi, hrun, hr, State.newHead]

/-- With release on arrival the first effect comes 4 ac after now. -/
theorem newHead_onArrival (h : descRelease k x.sub.desc = 2 ^ 64 - 1) :
    (s.newHead k i x).phase = .waitPips ∧ (s.newHead k i x).firstEffect = s.now + 4 ∧ (s.newHead k i x).late = false := by
  simp [State.newHead, h, relReached, relLate, firstEffect, relOnArrival]

/-- A release that has passed makes the descriptor late; one to come is waited for. -/
theorem newHead_timed (h : descRelease k x.sub.desc ≠ 2 ^ 64 - 1) :
    let T := relTime (descRelease k x.sub.desc)
    let h := s.newHead k i x
    (T < s.now → h.phase = .waitPips ∧ h.firstEffect = s.now + 4 ∧ h.late = true) ∧
    (T = s.now → h.phase = .waitPips ∧ h.firstEffect = T + 4 ∧ h.late = false) ∧
    (s.now < T → h.phase = .waitRelease ∧ h.firstEffect = T + 4 ∧ h.late = false) := by
  intro T h'
  have hrel : descRelease k x.sub.desc ≠ relOnArrival := h
  have hphase : h'.phase = if T ≤ s.now then .waitPips else .waitRelease := by
    simp only [h', State.newHead, relReached_timed hrel, decide_eq_true_eq, T]
  have heffect : h'.firstEffect = if T < s.now then s.now + 4 else T + 4 := firstEffect_timed hrel 4
  have hlate : h'.late = decide (T < s.now) := relLate_timed hrel
  rw [hphase, heffect, hlate]
  refine ⟨fun hT => ⟨if_pos (Nat.le_of_lt hT), if_pos hT, decide_eq_true hT⟩, fun hT => ?_, fun hT => ?_⟩
  · have hnot : ¬ T < s.now := Nat.not_lt_of_le (Nat.le_of_eq hT.symm)
    exact ⟨if_pos (Nat.le_of_eq hT), if_neg hnot, decide_eq_false hnot⟩
  · have hnot : ¬ T < s.now := Nat.not_lt_of_le (Nat.le_of_lt hT)
    exact ⟨if_neg (Nat.not_le_of_lt hT), if_neg hnot, decide_eq_false hnot⟩

end Head

/-- Settles O23: SUBMIT by the kind of its address, acceptance by the room in the FIFO, and the head by its status and its release. -/
theorem submissionsAreAcceptedAndHeadsWait : Obligations.SubmissionsAreAcceptedAndHeadsWait := by
  unfold Obligations.SubmissionsAreAcceptedAndHeadsWait
  refine ⟨fun s c a b k i hs => ?_, fun s i j sub rest hs => ?_, fun s k i x rest hs hf hi hrun hr => ?_⟩
  · extract_lets y at_
    have ht : Answers (exec (.submit c a b) s) (s.submitTo c b (y.gr a).toNat) := submit_answers hs
    refine ⟨fun hb => ?_, fun ha => ?_, fun hb ha hp hst => ?_, fun hb ha hj => submit_window_completes hs hb ha hj⟩
    · rwa [submitTo_unaligned hb] at ht
    · rwa [submitTo_noPort ha] at ht
    · rw [submitTo_port hb ha hp hst] at ht
      exact ⟨y.descriptor b, fun j => y.descriptor_word b j, _, ht, rfl⟩
  · exact ⟨accept_row (exec_tblAccept i s) hs, accept_row (exec_atmAccept i s) hs, accept_row (exec_solAccept j s) hs,
      accept_row (exec_shfAccept j s) hs⟩
  · have ht := descriptorHead_answers hs hf hi hrun hr
    refine ⟨fun hx => by rwa [if_pos hx] at ht, fun hx => ?_⟩
    rw [if_neg (not_not_intro hx)] at ht
    have hn : i.val < k.count := State.engine_in_range (Or.inl (by rw [hf]; exact List.cons_ne_nil _ _))
    have hh : ((s.onHead k i (fun _ => s.newHead k i x)).engine k i).head = s.newHead k i x :=
      congrArg Engine.head (State.onEngine_engine k i _ s hn)
    refine ⟨_, ht, ?_⟩
    dsimp only
    rw [hh]
    exact ⟨rfl, newHead_onArrival, newHead_timed⟩

end Sys2Proof.Machine
end

section
/-!
SUPPORT. The cadence unit: what events, locks and losses of a source leave alone (R24, R25, R28, R44), and what a marker does (R24-R29).
-/
namespace Sys2Proof.Machine

open Sys2Proof

/-! ### Events and free-run (R25, R28, R44) -/

@[simp] theorem State.record_cad (s : State) (r : ErrRec) : (s.record r).cad = s.cad := (State.record_logs r s).fields.1

/-- An event sets its bits, and what it raises is no more than a record's. -/
theorem State.cadEvent_logs (bits : Nat) (s : State) :
    (s.onCad (fun c => { c with events := c.events ||| BitVec.ofNat 6 bits })).LogsTo (s.cadEvent bits) :=
  State.foldl_logs _ (fun s _ => State.raiseIrq_logs 16 s) _ _

@[simp] theorem State.cadEvent_cad (bits : Nat) (s : State) :
    (s.cadEvent bits).cad = { s.cad with events := s.cad.events ||| BitVec.ofNat 6 bits } := (State.cadEvent_logs bits s).fields.1

@[simp] theorem State.enterFreeRun_cad (s : State) :
    s.enterFreeRun.cad = { s.cad with st := .freeRun, jumpFrom := none, events := s.cad.events ||| 4 } := by
  simp [State.enterFreeRun]

/-- The locked node that loses its source keeps its state where it can fail over, and else enters FREE_RUN (R25). -/
theorem State.activeLost_cad (s : State) : s.activeLost.cad =
    if s.cad.canFailover then { s.cad with events := s.cad.events ||| 1 }
    else { s.cad with st := .freeRun, jumpFrom := none, events := s.cad.events ||| 1 ||| 4 } := by
  have hsame : ∀ e : BitVec 6, ({ s.cad with events := e } : Cadence).canFailover = s.cad.canFailover := fun _ => rfl
  unfold State.activeLost
  simp only [State.cadEvent_cad, hsame]
  split <;> simp

theorem State.activeLost_count (s : State) : s.activeLost.cad.count = s.cad.count ∧ s.activeLost.cad.phase = s.cad.phase ∧
    s.activeLost.cad.aligned = s.cad.aligned ∧ s.activeLost.cad.events.getLsbD 0 = true := by
  rw [State.activeLost_cad]
  split <;> simp

/-! ### What following a source leaves alone -/

/-- What events, locks and losses leave alone: the sources' trackers, memory, cores and the inventory; event bits only rise. -/
structure State.Follows (s t : State) : Prop where
  sources : t.cad.sources = s.cad.sources
  mem : t.mem = s.mem
  cores : t.cores = s.cores
  inv : t.inv = s.inv
  events : ∀ i, s.cad.events.getLsbD i = true → t.cad.events.getLsbD i = true

namespace State.Follows

theorem refl (s : State) : s.Follows s := ⟨rfl, rfl, rfl, rfl, fun _ h => h⟩

theorem trans {s t u : State} (h : s.Follows t) (k : t.Follows u) : s.Follows u :=
  ⟨k.sources.trans h.sources, k.mem.trans h.mem, k.cores.trans h.cores, k.inv.trans h.inv, fun i hi => k.events i (h.events i hi)⟩

theorem ofLogs {s t : State} : s.LogsTo t → s.Follows t := by
  rintro ⟨_, _, _, rfl⟩
  exact ⟨rfl, rfl, rfl, rfl, fun _ h => h⟩

end State.Follows

theorem State.onCad_follows {s : State} {f : Cadence → Cadence} (hs : (f s.cad).sources = s.cad.sources)
    (he : (f s.cad).events = s.cad.events) : s.Follows (s.onCad f) := ⟨hs, rfl, rfl, rfl, fun i hi => (congrArg (·.getLsbD i) he).trans hi⟩

theorem State.cadEvent_follows (bits : Nat) (s : State) : s.Follows (s.cadEvent bits) :=
  have h : s.Follows (s.onCad (fun c => { c with events := c.events ||| BitVec.ofNat 6 bits })) :=
    ⟨rfl, rfl, rfl, rfl, fun i hi => by simp [hi]⟩
  h.trans (.ofLogs (State.cadEvent_logs bits s))

theorem State.enterFreeRun_follows (s : State) : s.Follows s.enterFreeRun :=
  ((State.onCad_follows rfl rfl).trans (State.cadEvent_follows 4 _)).trans (.ofLogs (State.record_logs ..))

theorem State.activeLost_follows (s : State) : s.Follows s.activeLost := by
  have h := State.cadEvent_follows 1 s
  unfold State.activeLost
  dsimp only
  split
  · exact h
  · exact h.trans (State.enterFreeRun_follows _)

theorem State.sourceLost_follows (src : Fin 33) (s : State) : s.Follows (s.sourceLost src) := by
  unfold State.sourceLost
  split
  · split
    · exact State.activeLost_follows s
    · split
      · exact State.enterFreeRun_follows s
      · exact .refl s
  · split <;> exact State.onCad_follows rfl rfl

theorem State.lockTo_follows (src : Fin 33) (s : State) : s.Follows (s.lockTo src) := State.onCad_follows rfl rfl

theorem State.loadFrom_follows (src : Fin 33) (count : Count) (s : State) : s.Follows (s.loadFrom src count) := ⟨rfl, rfl, rfl, rfl, fun _ h => h⟩

theorem State.markerArrives_follows (src : Fin 33) (count : Count) (s : State) : s.Follows (s.markerArrives src count) :=
  ⟨rfl, rfl, rfl, rfl, fun _ h => h⟩

theorem State.relock_follows (src : Fin 33) (count : Count) {s : State} (h : s.cad.jumpFrom ≠ some src) : s.Follows (s.relock src count) := by
  unfold State.relock
  simp only [if_neg h]
  split
  · exact ((State.onCad_follows rfl rfl).trans (State.lockTo_follows src _)).trans (State.cadEvent_follows 8 _)
  · split
    · exact .refl s
    · exact State.onCad_follows rfl rfl

/-- An accepted marker that brings no jump leaves trackers, memory, cores and inventory. -/
theorem State.markerEffect_follows (src : Fin 33) (count : Count) {s : State} (h : s.cad.st = .freeRun → s.cad.jumpFrom ≠ some src) :
    s.Follows (s.markerEffect src count) := by
  unfold State.markerEffect
  extract_lets c
  split
  · exact .refl s
  · split
    · split
      · exact State.loadFrom_follows src count s
      · exact .refl s
    · split
      · split
        · exact State.lockTo_follows src s
        · split
          · exact (State.lockTo_follows src s).trans (State.cadEvent_follows 2 _)
          · exact .refl s
      · split
        · exact State.relock_follows src count (h (by assumption : _ ∧ _).1)
        · split
          · exact State.markerArrives_follows src count s
          · exact .refl s

/-! ### A source's tracker (R24) -/

section Tracker

variable {x : CadSource} {count own : Count} {t : Nat}

/-- The 16th marker in a row on time makes a source valid. -/
theorem CadSource.accept_onTime (hseen : x.seen = true) (hc : count = x.lastCount + 1) (hlo : x.lastAt + 59998 ≤ t) (hhi : t ≤ x.lastAt + 60002)
    (hrun : 15 ≤ x.run) : (x.accept count t false own).valid = true := by
  have hlo' : x.lastAt + 60000 ≤ t + 2 := by omega
  simp [CadSource.accept, hseen, hc, hlo', hhi, hrun]

/-- The third marker in a row that differs from the node's count ends a source's validity. -/
theorem CadSource.accept_third {count own : Count} (hv : x.valid = true) (hd : x.differ = 2) (hne : count ≠ own) :
    (x.accept count t true own).valid = false := by
  simp [CadSource.accept, hv, hd, hne]

/-- A valid source stays valid with a marker that is not held against the node's count, or agrees with it. -/
theorem CadSource.accept_keeps {watch : Bool} (hv : x.valid = true) (h : watch = true → count = own) : (x.accept count t watch own).valid = true := by
  cases watch
  · simp [CadSource.accept, hv]
  · simp [CadSource.accept, hv, h rfl]

end Tracker

/-! ### An accepted marker (R24, R25) -/

/-- Are a source's markers held against the node's own count: those of the active source and of the secondary, while LOCKED (R24)? -/
def Cadence.watches (c : Cadence) (src : Fin 33) : Bool := c.st.locked && (src == c.active || src == c.secondarySrc)

/-- Does a marker of the active source differ from the node's own count (R24)? -/
def State.offCount (s : State) (src : Fin 33) (count : Count) : Bool := s.cad.st.locked && src == s.cad.active && count != (s.expected src).1

/-- The tracker of a marker's source once the marker is accepted. -/
def State.heard (s : State) (src : Fin 33) (count : Count) : CadSource :=
  s.cad.sources[src].accept count s.cad.refAc (s.cad.watches src) (s.expected src).1

/-- The cadence unit once a marker is accepted, before it follows the marker: the source's tracker, the marker's event, and a phase error. -/
def State.heardCad (s : State) (src : Fin 33) (count : Count) (err : Int) (c : Cadence) : Cadence := { c with
  sources := vmod c.sources src (fun x => x.accept count c.refAc (s.cad.watches src) (s.expected src).1)
  events := if s.offCount src count then c.events ||| BitVec.ofNat 6 32 else c.events
  phaseErr := err }

theorem State.heardCad_valid (s : State) (src : Fin 33) (count : Count) (err : Int) :
    (s.heardCad src count err s.cad).valid src = (s.heard src count).valid := by
  simp [Cadence.valid, State.heardCad, State.heard, vmod_getElem]

theorem State.LogsTo.onCad {s t : State} (f : Cadence → Cadence) : s.LogsTo t → (s.onCad f).LogsTo (t.onCad f) := by
  rintro ⟨f, b, q, rfl⟩
  exact ⟨f, b, q, rfl⟩

/-- What a marker whose tracker is up to date in `u` leaves: its source has lost its validity, or the node follows it. -/
def State.marked (s u : State) (src : Fin 33) (count : Count) : State :=
  if s.cad.valid src && !(s.heard src count).valid then u.sourceLost src else u.markerEffect src count

/-- A marker whose CRC checks brings its source's tracker up to date, and then either ends the source's validity or is followed. -/
theorem marker_answers {s : State} {src : Fin 33} {count : Count} {crc : Byte} (hs : s.serves = true) (hcrc : crc.toNat = cadenceCrc count.toNat) :
    ∃ (err : Int) (u : State), (s.onCad (s.heardCad src count err)).LogsTo u ∧
      Answers (exec (.marker src count crc) s) (s.marked u src count) := by
  have hv {err : Int} {u : State} (h : (s.onCad (s.heardCad src count err)).LogsTo u) : u.cad.valid src = (s.heard src count).valid := by
    rw [h.fields.1]
    exact s.heardCad_valid src count err
  have hexec := (exec_marker src count crc s).trans (inService_next hs _)
  rw [if_neg (not_not_intro hcrc)] at hexec
  extract_lets own locked isActive watch was s1 s2 err s3 at hexec
  have h1 : (s.onCad (fun c => { c with events := if s.offCount src count then c.events ||| BitVec.ofNat 6 32 else c.events })).LogsTo s1 := by
    by_cases hoff : s.offCount src count = true
    · rw [show s1 = s.cadEvent 32 from if_pos hoff]
      simp only [hoff, if_true]
      exact State.cadEvent_logs 32 s
    · rw [show s1 = s from if_neg hoff]
      simp only [hoff]
      exact .refl s
  have h2 := h1.onCad (fun c => { c with sources := vmod c.sources src (fun x => x.accept count c.refAc watch own.1) })
  have h3 : ∃ err, (s.onCad (s.heardCad src count err)).LogsTo s3 := by
    by_cases herr : (err && (was || s2.cad.valid src)) = true
    · rw [show s3 = _ from if_pos herr]
      exact ⟨satPhase own.2, h2.onCad (fun c => { c with phaseErr := satPhase own.2 })⟩
    · rw [show s3 = s2 from if_neg herr]
      exact ⟨s.cad.phaseErr, h2⟩
  obtain ⟨e, h3⟩ := h3
  refine ⟨e, s3, h3, ?_⟩
  unfold State.marked
  rw [← hv h3]
  exact hexec

/-! ### What the node does with a marker, by its state -/

theorem Cadence.canFailover_iff {c : Cadence} : c.canFailover = true ↔
    (c.st = .lockedPrimary ∨ c.st = .lockedElectrical) ∧ c.secEnable = true ∧ c.valid c.secondarySrc = true ∧ c.secondarySrc ≠ c.active := by
  simp [Cadence.canFailover, and_assoc]

theorem Cadence.canFailover_locked {c : Cadence} (h : c.canFailover = true) : c.st.locked = true ∧ c.st ≠ .acquiring := by
  rcases (Cadence.canFailover_iff.mp h).1 with h | h <;> simp [h, CadState.locked]

theorem Cadence.awaitsM_aligning {c : Cadence} (h : c.awaitsM = true) : c.st = .aligning := by
  simp only [Cadence.awaitsM, Bool.and_eq_true, beq_iff_eq] at h
  exact h.1.1

section Effect

variable {u : State} {src : Fin 33} {count : Count}

theorem markerEffect_acquiring (hv : u.cad.valid src = true) (hst : u.cad.st = .acquiring) (hsel : u.cad.selected = some src) :
    u.markerEffect src count = u.loadFrom src count := by
  simp [State.markerEffect, hv, hst, hsel]

theorem markerEffect_awaitsM (hv : u.cad.valid src = true) (hm : u.cad.awaitsM = true) (ha : src = u.cad.active) :
    u.markerEffect src count = u.markerArrives src count := by
  simp [State.markerEffect, hv, Cadence.awaitsM_aligning hm, hm, ← ha, CadState.locked]

theorem markerEffect_failover (hc : u.cad.canFailover = true) (hp : u.cad.selPending = false) (hs : src = u.cad.secondarySrc)
    (hlost : u.cad.valid u.cad.active = false) : u.markerEffect src count = (u.lockTo src).cadEvent 2 := by
  obtain ⟨-, -, hv, -⟩ := Cadence.canFailover_iff.mp hc
  obtain ⟨hl, ha⟩ := Cadence.canFailover_locked hc
  subst hs
  simp [State.markerEffect, hv, hl, ha, hp, hlost, hc]

theorem markerEffect_jump (hv : u.cad.valid src = true) (hst : u.cad.st = .freeRun) (he : u.cad.eligible src = true)
    (hj : u.cad.jumpFrom = some src) : u.markerEffect src count = u.jump src count := by
  simp [State.markerEffect, State.relock, hv, hst, he, hj, CadState.locked]

end Effect

/-! ### The marker in the state as it was -/

theorem State.LogsTo.srcDelay {s t : State} : s.LogsTo t → t.srcDelay = s.srcDelay := by
  rintro ⟨_, _, _, rfl⟩
  rfl

theorem State.LogsTo.now {s t : State} : s.LogsTo t → t.now = s.now := by
  rintro ⟨_, _, _, rfl⟩
  rfl

section Marked

variable {s u : State} {src : Fin 33} {count : Count} {err : Int} (hu : (s.onCad (s.heardCad src count err)).LogsTo u)

theorem heard_keeps (hv : s.cad.sources[src].valid = true) (h : s.cad.watches src = true → count = (s.expected src).1) :
    (s.heard src count).valid = true := CadSource.accept_keeps hv h

theorem watches_unlocked (h : s.cad.st.locked = false) : s.cad.watches src = true → count = (s.expected src).1 := by
  simp [Cadence.watches, h]

theorem marked_of_valid (hv : (s.heard src count).valid = true) : s.marked u src count = u.markerEffect src count := by
  simp [State.marked, hv]

include hu

theorem heard_cad : u.cad = s.heardCad src count err s.cad := hu.fields.1

theorem heard_valid : u.cad.valid src = (s.heard src count).valid := by
  rw [heard_cad hu]
  exact s.heardCad_valid src count err

theorem marked_follows (hj : s.cad.st = .freeRun → s.cad.jumpFrom ≠ some src) : u.Follows (s.marked u src count) := by
  unfold State.marked
  split
  · exact State.sourceLost_follows src u
  · refine State.markerEffect_follows src count ?_
    rw [heard_cad hu]
    exact hj

theorem marked_source (h : u.Follows (s.marked u src count)) : (s.marked u src count).cad.sources[src] = s.heard src count := by
  rw [h.sources, heard_cad hu]
  exact (vmod_getElem ..).trans (if_pos rfl)

/-- A marker of the active source that differs from the node's count is an event. -/
theorem marked_offCount (h : u.Follows (s.marked u src count)) (hoff : s.offCount src count = true) :
    (s.marked u src count).cad.events.getLsbD 5 = true := by
  refine h.events 5 ?_
  simp [heard_cad hu, State.heardCad, hoff]

/-- In ACQUIRING, a marker of the selected source, valid already, loads the count. -/
theorem marked_acquiring (hst : s.cad.st = .acquiring) (hsel : s.cad.selected = some src) (hv : s.cad.sources[src].valid = true) :
    let t := s.marked u src count
    let at_ := count.toNat * 60000 + s.srcDelay src
    t.cad.st = .aligning ∧ t.cad.active = src ∧ t.cad.awaitsM = true ∧ t.cad.count = BitVec.ofNat 48 (at_ / 60000) ∧ t.cad.phase = at_ % 60000 := by
  have hheard : (s.heard src count).valid = true := heard_keeps hv (watches_unlocked (by rw [hst]; rfl))
  have hcad := heard_cad hu
  rw [marked_of_valid hheard, markerEffect_acquiring ((heard_valid hu).trans hheard) (by rw [hcad]; exact hst) (by rw [hcad]; exact hsel),
    ← (show u.srcDelay = s.srcDelay from hu.srcDelay)]
  exact ⟨rfl, rfl, rfl, rfl, rfl⟩

/-- Marker M loads the count again. -/
theorem marked_awaitsM (hm : s.cad.awaitsM = true) (ha : src = s.cad.active) (hv : s.cad.sources[src].valid = true) :
    let t := s.marked u src count
    let at_ := count.toNat * 60000 + s.srcDelay src
    t.cad.st = .aligning ∧ t.cad.markerM = some count ∧ t.cad.count = BitVec.ofNat 48 (at_ / 60000) ∧ t.cad.phase = at_ % 60000 := by
  have hst := Cadence.awaitsM_aligning hm
  have hheard : (s.heard src count).valid = true := heard_keeps hv (watches_unlocked (by rw [hst]; rfl))
  have hcad := heard_cad hu
  rw [marked_of_valid hheard, markerEffect_awaitsM ((heard_valid hu).trans hheard) (by rw [hcad]; exact hm) (by rw [hcad]; exact ha),
    ← (show u.srcDelay = s.srcDelay from hu.srcDelay)]
  exact ⟨(congrArg Cadence.st hcad).trans hst, rfl, rfl, rfl⟩

/-- The secondary's next marker after the active source is lost is a failover, with the node's own count. -/
theorem marked_failover (hc : s.cad.canFailover = true) (hp : s.cad.selPending = false) (hsrc : src = s.cad.secondarySrc)
    (hsel : s.cad.selected ≠ some src) (hlost : s.cad.valid s.cad.active = false) (hown : count = (s.expected src).1) :
    let t := s.marked u src count
    t.cad.st = .lockedSecondary ∧ t.cad.active = src ∧ t.cad.events.getLsbD 1 = true ∧ t.cad.count = s.cad.count ∧ t.cad.phase = s.cad.phase := by
  obtain ⟨hst, hen, hv, hne⟩ := Cadence.canFailover_iff.mp hc
  have hheard : (s.heard src count).valid = true := heard_keeps (hsrc ▸ hv) (fun _ => hown)
  have hcad := heard_cad hu
  have hvalid : u.cad.valid u.cad.active = false := by
    have hne' : src.val ≠ s.cad.active.val := fun h => hne (hsrc ▸ Fin.ext h)
    rw [hcad]
    exact (congrArg CadSource.valid ((vmod_getElem ..).trans (if_neg hne'))).trans hlost
  have hcan : u.cad.canFailover = true := by
    refine Cadence.canFailover_iff.mpr ⟨by rw [hcad]; exact hst, by rw [hcad]; exact hen, ?_, by rw [hcad]; exact hne⟩
    rw [show u.cad.secondarySrc = src from (congrArg Cadence.secondarySrc hcad).trans hsrc.symm]
    exact (heard_valid hu).trans hheard
  rw [marked_of_valid hheard, markerEffect_failover hcan (by rw [hcad]; exact hp) (by rw [hcad]; exact hsrc) hvalid]
  obtain ⟨hcount, hphase⟩ : u.cad.count = s.cad.count ∧ u.cad.phase = s.cad.phase := by rw [hcad]; exact ⟨rfl, rfl⟩
  intro t
  rw [show t.cad = _ from State.cadEvent_cad 2 _]
  exact ⟨(congrArg (Cadence.lockOn · src) hcad).trans (if_neg hsel), rfl, by simp, hcount, hphase⟩

end Marked

/-! ### A jump of the count (R27) -/

/-- The state after a jump, before it releases what it passed over. -/
def State.relocated (src : Fin 33) (count : Count) (s : State) : State :=
  let t := count.toNat * 60000 + s.srcDelay src
  (((s.onCad (fun c => { c with
    count := BitVec.ofNat 48 (t / 60000), phase := t % 60000, slew := 0
    jumpDelta := BitVec.ofInt 48 ((t : Int) - s.now) })).lockTo src).dutyStep.cadEvent 24).record { cls := .corrected, block := .cad, code := 4 }

theorem State.jump_eq (src : Fin 33) (count : Count) (s : State) : s.jump src count =
    if s.now < count.toNat * 60000 + s.srcDelay src then (s.relocated src count).passOverAll s.now else s.relocated src count := rfl

theorem State.relocated_cad (src : Fin 33) (count : Count) (s : State) :
    let t := count.toNat * 60000 + s.srcDelay src
    let c := (s.relocated src count).cad
    c.count = BitVec.ofNat 48 (t / 60000) ∧ c.phase = t % 60000 ∧ c.jumpDelta = BitVec.ofInt 48 ((t : Int) - s.now) ∧
    c.st = s.cad.lockOn src ∧ c.active = src ∧ c.events.getLsbD 3 = true ∧ c.events.getLsbD 4 = true := by
  intro t c
  have hc : c = _ := (State.record_cad _ _).trans (State.cadEvent_cad 24 _)
  rw [hc]
  exact ⟨rfl, rfl, rfl, rfl, rfl, by simp, by simp⟩

theorem State.relocated_follows (src : Fin 33) (count : Count) (s : State) : s.Follows (s.relocated src count) := by
  unfold State.relocated
  refine .trans ?_ (.ofLogs (State.record_logs _ _))
  refine .trans ?_ (State.cadEvent_follows 24 _)
  exact ⟨rfl, rfl, rfl, rfl, fun _ h => h⟩

end Sys2Proof.Machine
end

section
/-!
SUPPORT. The cadence unit: the clocks, and the rest of an interval (R5, R21, R26).
-/
namespace Sys2Proof.Machine

open Sys2Proof

/-! ### What the Scorecard, the register bus and the waits leave of the clocks -/

/-- The clocks: the cadence unit, and the Dealer cores with their cycle counters (R5, R21). -/
def State.clocks (s : State) : Cadence × Vector Core 192 := (s.cad, s.cores)

theorem State.LogsTo.clocks {s t : State} : s.LogsTo t → t.clocks = s.clocks := by
  rintro ⟨_, _, _, rfl⟩
  rfl

theorem State.onMem_clocks (f : Memory → Memory) (s : State) : (s.onMem f).clocks = s.clocks := rfl

theorem State.onEng_clocks (f : Engines → Engines) (s : State) : (s.onEng f).clocks = s.clocks := rfl

theorem State.onSco_clocks (f : Score → Score) (s : State) : (s.onSco f).clocks = s.clocks := rfl

theorem State.record_clocks (r : ErrRec) (s : State) : (s.record r).clocks = s.clocks := (State.record_logs r s).clocks

theorem State.markFailing_clocks (k pch : Nat) (s : State) : (s.markFailing k pch).clocks = s.clocks := by
  unfold State.markFailing State.memErr
  split
  · rfl
  · exact (State.errRecords_logs ..).clocks

theorem State.noteCorrected_clocks (key : Nat) (s : State) : (s.noteCorrected key).clocks = s.clocks := by
  unfold State.noteCorrected
  extract_lets k pch cd transfer s1 s2
  have h : s2.clocks = s.clocks := State.record_clocks _ s1
  split
  · exact (State.markFailing_clocks ..).trans h
  · exact h

theorem State.noteUncorrectable_clocks (key : Nat) (s : State) : (s.noteUncorrectable key).clocks = s.clocks := by
  unfold State.noteUncorrectable
  extract_lets k pch cd again s1 s2
  have h : s2.clocks = s.clocks := State.record_clocks _ s1
  split
  · exact (State.markFailing_clocks ..).trans h
  · exact h

theorem State.decodeLine_clocks (line : Nat) (s : State) : (s.decodeLine line).clocks = s.clocks := by
  unfold State.decodeLine
  split
  · rfl
  · rename_i e _
    generalize decodePattern (s.mem.isPoison line) e = r
    cases r with
    | clean p => exact State.onMem_clocks ..
    | poisoned p => exact State.onMem_clocks ..
    | corrected p => exact (State.noteCorrected_clocks ..).trans (State.onMem_clocks ..)
    | uncorrectable p => exact (State.noteUncorrectable_clocks ..).trans (State.onMem_clocks ..)

theorem State.writeMem_clocks (a : Nat) (bs : List Byte) (s : State) : (s.writeMem a bs).clocks = s.clocks := by
  have hfresh : (s.freshLines a bs.length).clocks = s.clocks := by
    unfold State.freshLines
    split
    · rfl
    · refine foldl_same State.clocks _ (fun s l => ?_) _ s
      dsimp only
      split
      · rfl
      · exact State.decodeLine_clocks ..
  unfold State.writeMem State.pdcDrop
  dsimp only
  split <;> exact hfresh

theorem State.flushSamples_clocks (s : State) : s.flushSamples.clocks = s.clocks := by
  unfold State.flushSamples
  extract_lets rs
  split
  · rfl
  · refine (foldl_same State.clocks _ (fun s r => ?_) rs _).trans rfl
    unfold State.writeSample
    dsimp only
    split
    · rfl
    · exact State.writeMem_clocks ..

theorem State.scoreCycle_clocks (s : State) : s.scoreCycle.clocks = s.clocks := by
  unfold State.scoreCycle
  extract_lets s1 ps t s2
  have h1 : s1.clocks = s.clocks := State.flushSamples_clocks s
  have h2 : s2.clocks = s1.clocks := by
    refine foldl_same State.clocks _ (fun s u => ?_) _ s1
    exact foldl_same State.clocks _ (fun s i => State.onSco_clocks _ s) _ s
  split
  · exact h1
  · exact h2.trans h1

theorem State.writeMask_clocks (b : RegBlk) (n v : Nat) (s : State) : (s.writeMask b n v).clocks = s.clocks := by
  unfold State.writeMask
  split <;> rfl

theorem State.endBus_clocks (s : State) : s.endBus.clocks = s.clocks :=
  foldl_same State.clocks (fun (s : State) (m : RegBlk × Nat × Nat) => s.writeMask m.1 m.2.1 m.2.2)
    (fun s m => State.writeMask_clocks m.1 m.2.1 m.2.2 s) s.bus.masks s

theorem State.countWaits_clocks (n : Nat) (s : State) : (s.countWaits n).clocks = s.clocks := by
  unfold State.countWaits
  extract_lets busy one
  split
  · rfl
  · exact State.onEng_clocks _ s

/-! ### Time within an interval (R26) -/

/-- From `s` to `t`, `n` cycles of an interval have passed on the clocks. -/
def State.Advances (s t : State) (n : Nat) : Prop :=
  t.cad = { s.cad with refAc := s.cad.refAc + n, phase := s.cad.phase + n } ∧
  ∀ c : Fin 192, (t.core c).cycle = (s.core c).cycle + BitVec.ofNat 64 (3 * n)

/-- What a tick leaves on the clocks. -/
theorem State.tick_clocks (s : State) : s.tick.cad = s.cad.tick ∧ ∀ c : Fin 192, (s.tick.core c).cycle = (s.core c).cycle + 3 := by
  obtain ⟨hcad, hcores⟩ := Prod.mk.inj (State.scoreCycle_clocks s)
  refine ⟨congrArg Cadence.tick hcad, fun c => ?_⟩
  simp [State.tick, State.core, hcores]

/-- A tick within an interval advances the clocks by one cycle. -/
theorem State.tick_advances {s : State} (hst : s.cad.st ≠ .acquiring) (h : s.cad.phase + 1 < 60000) : s.Advances s.tick 1 := by
  obtain ⟨hcad, hcyc⟩ := s.tick_clocks
  refine ⟨?_, hcyc⟩
  rw [hcad]
  simp [Cadence.tick, hst, h]

theorem State.Advances.trans {s t u : State} {m n : Nat} (h : s.Advances t m) (k : t.Advances u n) : s.Advances u (m + n) := by
  obtain ⟨hcad, hcyc⟩ := h
  obtain ⟨kcad, kcyc⟩ := k
  refine ⟨?_, fun c => ?_⟩
  · rw [kcad, hcad]
    simp only [Nat.add_assoc]
  · rw [kcyc, hcyc, Nat.mul_add, BitVec.ofNat_add, BitVec.add_assoc]

theorem State.iter_tick_advances : ∀ (n : Nat) {s : State}, s.cad.st ≠ .acquiring → s.cad.phase + n < 60000 → s.Advances (iter State.tick n s) n
  | 0, s, _, _ => ⟨rfl, fun _ => (BitVec.add_zero _).symm⟩
  | n + 1, s, hst, h => by
    have h1 : s.Advances s.tick 1 := State.tick_advances hst (by omega)
    have hn : s.tick.Advances (iter State.tick n s.tick) n :=
      State.iter_tick_advances n (by rw [h1.1]; exact hst) (by rw [h1.1]; show s.cad.phase + 1 + n < 60000; omega)
    have h := h1.trans hn
    rwa [Nat.add_comm 1 n] at h

theorem State.skip_advances (n : Nat) (s : State) : s.Advances (s.skip n) n := by
  obtain ⟨hcad, hcores⟩ := Prod.mk.inj (State.flushSamples_clocks s)
  refine ⟨?_, fun c => ?_⟩
  · simp [State.skip, hcad]
  · simp [State.skip, State.core, hcores]

theorem iter_succ {α : Type} (f : α → α) : ∀ (n : Nat) (x : α), iter f (n + 1) x = f (iter f n x)
  | 0, _ => rfl
  | n + 1, x => iter_succ f n (f x)

/-- The interval ends at the tick that follows its cycle 59,999. -/
theorem State.Advances.interval_ends {s t : State} {n : Nat} (h : s.Advances t n) (hst : s.cad.st ≠ .acquiring) (hn : s.cad.phase + n = 59999) :
    t.tick.cad.phase = 0 ∧ t.tick.cad.count = s.cad.count + 1 ∧ t.tick.cad.refAc = s.cad.refAc + (n + 1) ∧
    ∀ c : Fin 192, (t.tick.core c).cycle = (s.core c).cycle + BitVec.ofNat 64 (3 * (n + 1)) := by
  obtain ⟨hcad, hcyc⟩ := h
  obtain ⟨kcad, kcyc⟩ := t.tick_clocks
  rw [kcad, hcad]
  refine ⟨?_, ?_, ?_, fun c => ?_⟩
  · simp [Cadence.tick, hst, hn, Cadence.interval]
  · simp [Cadence.tick, hst, hn, Cadence.interval]
  · simp [Cadence.tick, hst, hn, Cadence.interval, Nat.add_assoc]
  · rw [kcyc, hcyc, Nat.mul_succ, BitVec.ofNat_add, BitVec.add_assoc]
    rfl

/-- The rest of an interval passes, up to the next phase 0. -/
theorem State.toPhase0_clocks {s : State} (hst : s.cad.st ≠ .acquiring) (h : s.cad.phase < 60000) :
    let t := s.toPhase0
    t.cad.phase = 0 ∧ t.cad.count = s.cad.count + 1 ∧ t.cad.refAc = s.cad.refAc + (60000 - s.cad.phase) ∧
    ∀ c : Fin 192, (t.core c).cycle = (s.core c).cycle + BitVec.ofNat 64 (3 * (60000 - s.cad.phase)) := by
  obtain ⟨n, hn⟩ : ∃ n, 60000 - s.cad.phase = n + 1 := ⟨59999 - s.cad.phase, by omega⟩
  have hphase : s.cad.phase + n = 59999 := by omega
  unfold State.toPhase0
  simp only [hn, Nat.add_sub_cancel]
  split
  · exact (State.skip_advances n s).interval_ends hst hphase
  · rw [iter_succ]
    exact (State.iter_tick_advances n hst (by omega)).interval_ends hst hphase

/-- CADENCE_INTERVAL_TICK: the interval ends, and the work of a tick is done. -/
theorem cadenceIntervalTick_answers {s : State} (hs : s.serves = true) (hst : s.cad.st ≠ .acquiring) (h : s.cad.phase < 60000) :
    ∃ u : State, Answers (exec .cadenceIntervalTick s) u.cycleDone ∧
      u.cad.phase = 0 ∧ u.cad.count = s.cad.count + 1 ∧ u.cad.refAc = s.cad.refAc + (60000 - s.cad.phase) ∧
      ∀ c : Fin 192, (u.core c).cycle = (s.core c).cycle + BitVec.ofNat 64 (3 * (60000 - s.cad.phase)) := by
  have hclocks : (s.endBus.countWaits (60000 - s.cad.phase)).clocks = s.clocks := (State.countWaits_clocks ..).trans (State.endBus_clocks s)
  generalize hw : s.endBus.countWaits (60000 - s.cad.phase) = w at hclocks
  obtain ⟨hcad, hcores⟩ := Prod.mk.inj hclocks
  have hcore (c : Fin 192) : w.core c = s.core c := congrArg (fun v : Vector Core 192 => v[c]) hcores
  refine ⟨w.toPhase0, ?_, ?_⟩
  · unfold Answers
    rw [exec_cadenceIntervalTick, execCadenceIntervalTick, live_next (State.serves.awake hs), onlyIf, if_pos (by simpa using hst), hw]
  · have ht := State.toPhase0_clocks (s := w) (by rwa [hcad]) (by rwa [hcad])
    simpa only [hcad, hcore] using ht

end Sys2Proof.Machine
end

section
/-!
SUPPORT. The cadence unit: lost sources and free-run (R24, R25, R44), the handshake (R29, R30, R405), CAD_CTRL (R44), releases (R33, R35), and
the statement that follows the markers through them.
-/
namespace Sys2Proof.Machine

open Sys2Proof

/-! ### A source without markers (R24, R25) -/

/-- A source that stops being valid has its tracker started again. -/
def Cadence.silence (src : Fin 33) (c : Cadence) : Cadence :=
  { c with sources := vmod c.sources src (fun x => { x with valid := false, run := 0, differ := 0 }) }

theorem silence_canFailover (c : Cadence) : (c.silence c.active).canFailover = c.canFailover := by
  rw [Bool.eq_iff_iff, Cadence.canFailover_iff, Cadence.canFailover_iff]
  refine and_congr_right fun _ => and_congr_right fun _ => and_congr_left fun hne => ?_
  have hne' : c.active.val ≠ c.secondarySrc.val := fun h => hne (Fin.ext h.symm)
  have h : (c.silence c.active).valid c.secondarySrc = c.valid c.secondarySrc :=
    congrArg CadSource.valid ((vmod_getElem ..).trans (if_neg hne'))
  exact iff_of_eq (congrArg (· = true) h)

/-- A node that loses the source on which it is locked. -/
theorem sourceLost_active {s : State} (hl : s.cad.st.locked = true) : s.sourceLost s.cad.active = s.activeLost := by
  simp [State.sourceLost, hl]

theorem sourceInvalid_completes {s : State} {src : Fin 33} (hs : s.serves = true) (hv : s.cad.sources[src].valid = true)
    (ht : s.cad.sources[src].lastAt + 180000 ≤ s.cad.refAc) : Completes (.sourceInvalid src) s (fun t =>
      t.cad.sources[src] = { s.cad.sources[src] with valid := false, run := 0, differ := 0 } ∧
      (s.cad.st.locked = true → src = s.cad.active → t.cad.events.getLsbD 0 = true ∧
        t.cad.st = (if s.cad.canFailover then s.cad.st else .freeRun) ∧ t.cad.count = s.cad.count ∧ t.cad.phase = s.cad.phase)) := by
  refine ⟨(s.onCad (Cadence.silence src)).sourceLost src, ?_, ?_, fun hl ha => ?_⟩
  · unfold Answers
    rw [exec_sourceInvalid, execSourceInvalid, inService_next hs, onlyIf, if_pos (by simpa using ⟨hv, ht⟩)]
    rfl
  · rw [(State.sourceLost_follows ..).sources]
    exact (vmod_getElem ..).trans (if_pos rfl)
  · subst ha
    have hlost : (s.onCad (Cadence.silence s.cad.active)).sourceLost s.cad.active = (s.onCad (Cadence.silence s.cad.active)).activeLost :=
      sourceLost_active hl
    rw [hlost]
    obtain ⟨hcount, hphase, -, hev⟩ := State.activeLost_count (s.onCad (Cadence.silence s.cad.active))
    refine ⟨hev, ?_, hcount, hphase⟩
    rw [State.activeLost_cad, State.onCad_cad, silence_canFailover]
    split <;> rfl

/-! ### Free-run by time and by order (R25, R44) -/

theorem acquireTimeout_answers {s : State} (hs : s.serves = true) (hst : s.cad.st = .acquiring) (hv : ∀ i : Fin 33, s.cad.sources[i].valid = false)
    (ht : 1200000000 ≤ s.cad.refAc) : Answers (exec .acquireTimeout s) ((s.onCad (fun c => { c with
      st := .aligning, count := 0, phase := 0, alignFree := true, attempts := 0, markerM := some 0 })).dutyStep.onBoot (fun b => { b with
        stage := if b.stage = 4 then 6 else b.stage })) := by
  have hall : s.cad.sources.toList.all (fun x => !x.valid) = true := by
    rw [List.all_eq_true]
    intro x hx
    obtain ⟨i, hi, rfl⟩ := List.getElem_of_mem hx
    simpa using hv ⟨i, by simpa using hi⟩
  unfold Answers
  rw [exec_acquireTimeout, execAcquireTimeout, inService_next hs, onlyIf, hall, if_pos (by simpa using ⟨hst, ht⟩)]
  rfl

theorem forcedFreeRun_completes {s : State} (hs : s.serves = true) (hl : s.cad.st.locked = true) (hsrc : s.cad.src = 2) (hp : s.cad.phase = 0) :
    Completes .forcedFreeRun s (fun t =>
      t.cad.st = .freeRun ∧ t.cad.events.getLsbD 2 = true ∧ t.cad.count = s.cad.count ∧ t.cad.phase = 0) := by
  refine ⟨s.enterFreeRun, ?_, ?_⟩
  · unfold Answers
    rw [exec_forcedFreeRun, execForcedFreeRun, inService_next hs, onlyIf, if_pos (by simp [hl, hsrc, hp])]
  · dsimp only
    rw [State.enterFreeRun_cad]
    exact ⟨rfl, by simp, rfl, hp⟩

/-! ### The handshake (R29, R30, R405) -/

/-- Bring-up that goes on leaves the cadence unit and the inventory. -/
theorem State.bootAdvance_fields (s : State) : s.bootAdvance.cad = s.cad ∧ s.bootAdvance.inv = s.inv := by
  unfold State.bootAdvance State.trainingDone
  split
  · split <;> exact ⟨rfl, rfl⟩
  · exact ⟨rfl, rfl⟩

/-- The cadence unit at the end of a handshake, locked on its source or still aligning on its own count. -/
def Cadence.alignedOn (c : Cadence) : Cadence := { c with
  aligned := true, markerM := none, st := if c.alignFree then c.st else if c.active = 32 then .lockedElectrical else .lockedPrimary }

/-- How the node runs once its handshake is complete. -/
def State.runsAligned (s : State) : State :=
  let t := s.onCad Cadence.alignedOn
  if s.cad.alignFree then t.enterFreeRun else if t.cad.valid t.cad.active then t else t.activeLost

theorem State.aligned_eq (s : State) : s.aligned = s.runsAligned.bootAdvance := rfl

theorem State.runsAligned_follows (s : State) : s.Follows s.runsAligned := by
  have h : s.Follows (s.onCad Cadence.alignedOn) := State.onCad_follows rfl rfl
  unfold State.runsAligned
  dsimp only
  split
  · exact h.trans (State.enterFreeRun_follows _)
  · split
    · exact h
    · exact h.trans (State.activeLost_follows _)

theorem State.aligned_inv (s : State) : s.aligned.inv = s.inv := (State.bootAdvance_fields _).2.trans (State.runsAligned_follows s).inv

theorem State.aligned_aligned (s : State) : s.aligned.cad.aligned = true := by
  rw [State.aligned_eq, (State.bootAdvance_fields _).1]
  unfold State.runsAligned
  dsimp only
  split
  · rw [State.enterFreeRun_cad]; rfl
  · split
    · rfl
    · exact (State.activeLost_count _).2.2.1

/-- The state that a completed handshake leaves: LOCKED on a source that is valid or can be failed over from, else FREE_RUN. -/
theorem State.aligned_st (s : State) :
    let locks : Cadence := { s.cad with st := if s.cad.active = 32 then .lockedElectrical else .lockedPrimary }
    s.aligned.cad.st = if s.cad.alignFree = false ∧ (s.cad.valid s.cad.active = true ∨ locks.canFailover = true) then locks.st else .freeRun := by
  intro locks
  rw [State.aligned_eq, (State.bootAdvance_fields _).1]
  unfold State.runsAligned
  cases hfree : s.cad.alignFree with
  | true => simp
  | false =>
    have hst : (s.onCad Cadence.alignedOn).cad.st = locks.st := by simp [Cadence.alignedOn, hfree, locks]
    have hcan : (s.onCad Cadence.alignedOn).cad.canFailover = locks.canFailover := by
      unfold Cadence.canFailover
      rw [hst]
      rfl
    have hvalid : (s.onCad Cadence.alignedOn).cad.valid (s.onCad Cadence.alignedOn).cad.active = s.cad.valid s.cad.active := rfl
    simp only [hvalid]
    cases hv : s.cad.valid s.cad.active with
    | true => simpa using hst
    | false =>
      simp only [Bool.false_eq_true, if_false, State.activeLost_cad, hcan]
      cases locks.canFailover with
      | true => simpa using hst
      | false => simp

/-- The samples of a mismatch at the third failure: the dies are reported, and their Decks are absent. -/
def State.dropsDies (bad : BitVec 6) (s : State) : State :=
  (s.reportDies bad).onInv (fun v => { v with deckAbsent := Vector.ofFn (fun d => v.deckAbsent[d] || bad.getLsbD d) }.dropAbsent)

section Handshake

variable {s : State} {bad : BitVec 6} {m : Count}

/-- What the handshake answers while no scope re-enters. -/
theorem alignmentHandshake_answers (hs : s.serves = true) (hst : s.cad.st = .aligning) (hm : s.cad.markerM = some m)
    (hnow : (m.toNat + 4) * 60000 + 1024 ≤ s.now) (hr : ∀ r ∈ s.resets, r.step ≠ 4) : Answers (exec (.alignmentHandshake bad) s)
    (if bad = 0 then s.aligned
     else if s.cad.attempts < 2 then
       s.onCad (fun c => { c with attempts := c.attempts + 1, markerM := if c.alignFree then some (c.count + 1) else none })
     else if bad.getLsbD 4 || bad.getLsbD 5 then
       ((s.dropsDies bad).onCad (fun c => { c with attempts := 3, markerM := none })).bootFail 1
     else (s.dropsDies bad).aligned) := by
  have hnone : s.resets.filter (fun r => r.step = 4) = [] := by
    rw [List.filter_eq_nil_iff]
    simpa using hr
  have hnot : ¬ (s.cad.st ≠ .aligning ∨ s.now < (m.toNat + 4) * 60000 + 1024) := by simp [hst, hnow]
  unfold Answers
  rw [exec_alignmentHandshake, execAlignmentHandshake, inService_next hs, hnone, List.foldl_nil, State.bootSamples]
  simp only [hm, if_neg hnot]
  rfl

theorem dropsDies_deck (d : Fin 4) (h : bad.getLsbD d = true) : (s.dropsDies bad).inv.deckAbsent[d] = true := by
  simp [State.dropsDies, State.onInv, Inventory.dropAbsent, h]

theorem dropsDies_failed : (s.dropsDies bad).inv.failedDies = s.inv.failedDies ||| bad := rfl

/-- Bring-up that fails keeps the cadence unit and the inventory. -/
theorem bootFail_fields (code : Nat) (s : State) : (s.bootFail code).boot.stage = 0xF ∧ (s.bootFail code).boot.failCode = BitVec.ofNat 16 code ∧
    (s.bootFail code).cad = s.cad ∧ (s.bootFail code).inv = s.inv := by
  have hfail : s.LogsTo s.packageFailed := by
    unfold State.packageFailed
    split
    · exact .refl s
    · exact (State.record_logs _ s).trans (State.onFlt_logs _ _)
  obtain ⟨hcad, -, -, hinv, -⟩ := hfail.fields
  exact ⟨rfl, rfl, hcad, hinv⟩

end Handshake

/-! ### CAD_CTRL (R44) -/

theorem field_lt (x hi lo : Nat) : field x hi lo < 2 ^ (hi + 1 - lo) := Nat.mod_lt _ (Nat.two_pow_pos _)

theorem setCtrl_src (c : Cadence) (v : W64) : (c.setCtrl v).src.toNat = if field v.toNat 5 4 = 3 then c.src.toNat else field v.toNat 5 4 := by
  have hlt : field v.toNat 5 4 < 4 := field_lt _ _ _
  have hiff : BitVec.ofNat 2 (field v.toNat 5 4) = 3 ↔ field v.toNat 5 4 = 3 := by
    rw [← BitVec.toNat_inj, BitVec.toNat_ofNat, Nat.mod_eq_of_lt hlt]
    rfl
  show (if BitVec.ofNat 2 (field v.toNat 5 4) = 3 then c.src else BitVec.ofNat 2 (field v.toNat 5 4)).toNat = _
  simp only [hiff]
  split
  · rfl
  · exact (BitVec.toNat_ofNat ..).trans (Nat.mod_eq_of_lt hlt)

theorem cadCtrlWrite_completes {s : State} (v : W64) (hs : s.serves = true) : Completes (.cadCtrlWrite v) s (fun t =>
    t.cad.secondary.toNat = field v.toNat 20 16 ∧ t.cad.primary.toNat = field v.toNat 12 8 ∧ t.cad.secEnable = v.getLsbD 0 ∧
    t.cad.src.toNat = (if field v.toNat 5 4 = 3 then s.cad.src.toNat else field v.toNat 5 4) ∧
    t.cad.st = (if s.cad.st.locked = true ∧ s.cad.valid s.cad.active = false ∧ (s.cad.setCtrl v).canFailover = false then .freeRun else s.cad.st) ∧
    t.cad.active = s.cad.active ∧ t.cad.count = s.cad.count ∧ t.cad.phase = s.cad.phase) := by
  have hsec : (s.cad.setCtrl v).secondary.toNat = field v.toNat 20 16 :=
    (BitVec.toNat_ofNat ..).trans (Nat.mod_eq_of_lt (field_lt _ _ _))
  have hprim : (s.cad.setCtrl v).primary.toNat = field v.toNat 12 8 :=
    (BitVec.toNat_ofNat ..).trans (Nat.mod_eq_of_lt (field_lt _ _ _))
  have hsrc := setCtrl_src s.cad v
  refine ⟨s.writeCadCtrl v, (exec_cadCtrlWrite v s).trans (inService_next hs _), ?_⟩
  have hcond : ((s.cad.setCtrl v).st.locked && !(s.cad.setCtrl v).valid (s.cad.setCtrl v).active && !(s.cad.setCtrl v).canFailover) = true ↔
      s.cad.st.locked = true ∧ s.cad.valid s.cad.active = false ∧ (s.cad.setCtrl v).canFailover = false := by
    rw [Bool.and_eq_true, Bool.and_eq_true, Bool.not_eq_true', Bool.not_eq_true', and_assoc]
    rfl
  unfold State.writeCadCtrl
  simp only [State.onCad_cad, hcond]
  split
  · rw [State.enterFreeRun_cad]
    exact ⟨hsec, hprim, rfl, hsrc, rfl, rfl, rfl, rfl⟩
  · exact ⟨hsec, hprim, rfl, hsrc, rfl, rfl, rfl, rfl⟩

/-! ### Releases (R33, R35) -/

section Release

variable {s : State}

theorem actionRelease_answers (hs : s.serves = true) (ref : ActionRef) :
    Answers (exec (.actionRelease ref) s) ((s.release ref).ckpAdvance.trkAdvance) := (exec_actionRelease ref s).trans (inService_next hs _)

/-- The head of an engine that runs is released when the counter reaches its release, and its first effect comes 4 ac later. -/
theorem release_engine {k : EngKind} {i : Fin 64} (hp : (s.engine k i).head.phase = .waitRelease) (hrun : (s.engine k i).runBit = true) :
    s.release (.eng k i) = if relReached s ((s.engine k i).headRelease k) then
      s.onHead k i (fun h => { h with phase := .waitPips, firstEffect := relTime ((s.engine k i).headRelease k) + 4 }) else s := by
  simp [State.release, hp, hrun]

/-- The collectives whose release is reached start where one may, 16 ac later, and else are blocked. -/
theorem release_trick (s : State) : s.release .trick = s.onTrk (fun t => { t with running := t.running.map (fun c =>
    if c.phase = .waitRelease ∧ relReached s c.release.toNat then
      (if s.trk.runBit = true ∧ s.trk.started < 8 then { c with phase := .released, firstEffect := relTime c.release.toNat + 16 }
       else { c with phase := .blocked })
    else c) }) := by
  have hstart : s.trk.mayStart = true ↔ s.trk.runBit = true ∧ s.trk.started < 8 := by simp [Trick.mayStart]
  simp only [State.release, State.onTrk, hstart]

/-- A Decant that waits is released when the counter reaches its release, and its first effect comes 32 ac later. -/
theorem release_decant {r : DecantRec} (hc : s.ckp.cur = some r) (hp : s.ckp.phase = .waitRelease) (hr : relReached s r.release.toNat = true) :
    s.release .decant = s.onCkp (fun k => { k with phase := .released, firstEffect := relTime r.release.toNat + 32 }) := by
  simp [State.release, hc, hp, hr]

end Release

/-! ### The obligation -/

section Clauses

variable {s : State}

/-- An accepted marker that brings no jump. -/
theorem marker_completes {src : Fin 33} {count : Count} {crc : Byte} (hs : s.serves = true) (hcrc : crc.toNat = cadenceCrc count.toNat)
    (hj : s.cad.st = .freeRun → s.cad.jumpFrom ≠ some src) :
    let x := s.cad.sources[src]
    let at_ := count.toNat * 60000 + s.srcDelay src
    Completes (.marker src count crc) s (fun t =>
      let y := t.cad.sources[src]
      y.seen = true ∧ y.lastCount = count ∧ y.lastAt = s.cad.refAc ∧ t.mem = s.mem ∧ t.cores = s.cores ∧
      (x.seen = true → count = x.lastCount + 1 → x.lastAt + 59998 ≤ s.cad.refAc → s.cad.refAc ≤ x.lastAt + 60002 → 15 ≤ x.run →
        s.cad.st.locked = false → y.valid = true) ∧
      (s.cad.st.locked = true → src = s.cad.active → count ≠ (s.expected src).1 → t.cad.events.getLsbD 5 = true ∧
        (x.valid = true → x.differ = 2 → y.valid = false)) ∧
      (s.cad.st = .acquiring → s.cad.selected = some src → x.valid = true →
        t.cad.st = .aligning ∧ t.cad.active = src ∧ t.cad.awaitsM = true ∧ t.cad.count = BitVec.ofNat 48 (at_ / 60000) ∧ t.cad.phase = at_ % 60000) ∧
      (s.cad.awaitsM = true → src = s.cad.active → x.valid = true →
        t.cad.st = .aligning ∧ t.cad.markerM = some count ∧ t.cad.count = BitVec.ofNat 48 (at_ / 60000) ∧ t.cad.phase = at_ % 60000) ∧
      (s.cad.canFailover = true → s.cad.selPending = false → src = s.cad.secondarySrc → s.cad.selected ≠ some src →
        s.cad.valid s.cad.active = false → count = (s.expected src).1 →
        t.cad.st = .lockedSecondary ∧ t.cad.active = src ∧ t.cad.events.getLsbD 1 = true ∧ t.cad.count = s.cad.count ∧ t.cad.phase = s.cad.phase)) := by
  intro x at_
  obtain ⟨err, u, hu, hanswers⟩ := marker_answers hs hcrc
  have hfollows := marked_follows hu hj
  obtain ⟨-, hmem, hcores, -⟩ := hu.fields
  refine ⟨s.marked u src count, hanswers, ?_⟩
  dsimp only
  rw [marked_source hu hfollows]
  refine ⟨rfl, rfl, rfl, hfollows.mem.trans hmem, hfollows.cores.trans hcores, fun hseen hc hlo hhi hrun hl => ?_, fun hl ha hne => ⟨?_, ?_⟩,
    marked_acquiring hu, marked_awaitsM hu, marked_failover hu⟩
  · have hw : s.cad.watches src = false := by simp [Cadence.watches, hl]
    unfold State.heard
    rw [hw]
    exact CadSource.accept_onTime hseen hc hlo hhi hrun
  · exact marked_offCount hu hfollows (by simp [State.offCount, hl, ← ha, hne])
  · intro hv hd
    have hw : s.cad.watches src = true := by simp [Cadence.watches, hl, ha]
    unfold State.heard
    rw [hw]
    exact CadSource.accept_third hv hd hne

/-- What a jump to a source's count leaves, before it releases what it passed over. -/
def State.jumped (s : State) (src : Fin 33) (T : Nat) (u : State) : Prop :=
  u.cad.count = BitVec.ofNat 48 (T / 60000) ∧ u.cad.phase = T % 60000 ∧
  u.cad.jumpDelta = BitVec.ofInt 48 ((T : Int) - s.now) ∧ u.cad.st = s.cad.lockOn src ∧ u.cad.active = src ∧
  u.cad.events.getLsbD 3 = true ∧ u.cad.events.getLsbD 4 = true ∧ u.mem = s.mem ∧ u.cores = s.cores

/-- In free-run the second marker out of step of an eligible source is a jump. -/
theorem marker_jumps {src : Fin 33} {count : Count} {crc : Byte} (hs : s.serves = true) (hcrc : crc.toNat = cadenceCrc count.toNat)
    (hst : s.cad.st = .freeRun) (hj : s.cad.jumpFrom = some src) (he : s.cad.eligible src = true) (hv : s.cad.sources[src].valid = true) :
    let T := count.toNat * 60000 + s.srcDelay src
    ∃ u, Answers (exec (.marker src count crc) s) (if s.now < T then u.passOverAll s.now else u) ∧ s.jumped src T u := by
  intro T
  obtain ⟨err, u, hu, hanswers⟩ := marker_answers hs hcrc
  have hheard : (s.heard src count).valid = true := heard_keeps hv (watches_unlocked (by rw [hst]; rfl))
  have hcad := heard_cad hu
  have hnow : u.now = s.now := hu.now
  have hdelay : u.srcDelay src = s.srcDelay src := congrFun hu.srcDelay src
  obtain ⟨-, hmem, hcores, -⟩ := hu.fields
  rw [marked_of_valid hheard, markerEffect_jump ((heard_valid hu).trans hheard) (by rw [hcad]; exact hst) (by rw [hcad]; exact he)
    (by rw [hcad]; exact hj), State.jump_eq, hnow, hdelay] at hanswers
  obtain ⟨hcount, hphase, hdelta, hlock, hactive, h3, h4⟩ := u.relocated_cad src count
  rw [hdelay] at hcount hphase hdelta
  rw [hnow] at hdelta
  have hlock' : u.cad.lockOn src = s.cad.lockOn src := by rw [hcad]; rfl
  have hfollows := u.relocated_follows src count
  exact ⟨_, hanswers, hcount, hphase, hdelta, hlock.trans hlock', hactive, h3, h4, hfollows.mem.trans hmem, hfollows.cores.trans hcores⟩

/-- The outcomes of the package's handshake. -/
theorem alignmentHandshake_outcomes {bad : BitVec 6} {m : Count} (hs : s.serves = true) (hst : s.cad.st = .aligning)
    (hm : s.cad.markerM = some m) (hnow : (m.toNat + 4) * 60000 + 1024 ≤ s.now) (hr : ∀ r ∈ s.resets, r.step ≠ 4) :
    let locks : Cadence := { s.cad with st := if s.cad.active = 32 then .lockedElectrical else .lockedPrimary }
    (bad = 0 → Completes (.alignmentHandshake bad) s (fun t => t.cad.aligned = true ∧
      t.cad.st = if s.cad.alignFree = false ∧ (s.cad.valid s.cad.active = true ∨ locks.canFailover = true) then locks.st else .freeRun)) ∧
    (bad ≠ 0 → s.cad.attempts < 2 → Answers (exec (.alignmentHandshake bad) s)
      (s.onCad (fun c => { c with attempts := c.attempts + 1, markerM := if c.alignFree then some (c.count + 1) else none }))) ∧
    (2 ≤ s.cad.attempts → (bad.getLsbD 4 || bad.getLsbD 5) = true → Completes (.alignmentHandshake bad) s (fun t =>
      t.boot.stage = 0xF ∧ t.boot.failCode = 1 ∧ t.cad.aligned = s.cad.aligned ∧ t.inv.failedDies = s.inv.failedDies ||| bad)) ∧
    (2 ≤ s.cad.attempts → bad ≠ 0 → (bad.getLsbD 4 || bad.getLsbD 5) = false → Completes (.alignmentHandshake bad) s (fun t =>
      t.cad.aligned = true ∧ ∀ d : Fin 4, bad.getLsbD d = true → t.inv.deckAbsent[d] = true ∧ t.inv.failedDies.getLsbD d = true)) := by
  intro locks
  have h := alignmentHandshake_answers (bad := bad) hs hst hm hnow hr
  refine ⟨fun hb => ?_, fun hb ha => ?_, fun ha hf => ?_, fun ha hb hf => ?_⟩
  · rw [if_pos hb] at h
    exact ⟨_, h, s.aligned_aligned, s.aligned_st⟩
  · rwa [if_neg hb, if_pos ha] at h
  · have hb : bad ≠ 0 := by rintro rfl; simp at hf
    rw [if_neg hb, if_neg (Nat.not_lt.mpr ha), if_pos hf] at h
    obtain ⟨hstage, hcode, hcad, hinv⟩ :=
      bootFail_fields 1 ((s.dropsDies bad).onCad (fun c => { c with attempts := 3, markerM := none }))
    exact ⟨_, h, hstage, hcode, (congrArg Cadence.aligned hcad).trans rfl, (congrArg Inventory.failedDies hinv).trans rfl⟩
  · rw [if_neg hb, if_neg (Nat.not_lt.mpr ha), if_neg (Bool.eq_false_iff.mp hf)] at h
    refine ⟨_, h, State.aligned_aligned _, fun d hd => ?_⟩
    rw [State.aligned_inv, dropsDies_failed]
    exact ⟨dropsDies_deck d hd, by simp [hd]⟩

/-- The release of an engine's head. -/
theorem actionRelease_engine {k : EngKind} {i : Fin 64} (hs : s.serves = true) (hp : (s.engine k i).head.phase = .waitRelease)
    (hrun : (s.engine k i).runBit = true) :
    let rel := (s.engine k i).headRelease k
    (relReached s rel = true → Answers (exec (.actionRelease (.eng k i)) s)
      ((s.onHead k i (fun h => { h with phase := .waitPips, firstEffect := relTime rel + 4 })).ckpAdvance.trkAdvance)) ∧
    (relReached s rel = false → Answers (exec (.actionRelease (.eng k i)) s) (s.ckpAdvance.trkAdvance)) := by
  intro rel
  have h := actionRelease_answers hs (.eng k i)
  rw [release_engine hp hrun] at h
  refine ⟨fun hr => ?_, fun hr => ?_⟩
  · rwa [if_pos hr] at h
  · rwa [if_neg (Bool.eq_false_iff.mp hr)] at h

end Clauses

/-- Settles O32, command by command: a marker by what its source's tracker and the node's state make of it, then lost sources, time, the
handshake, CAD_CTRL and releases. -/
theorem cadenceFollowsItsMarkers : Obligations.CadenceFollowsItsMarkers := by
  unfold Obligations.CadenceFollowsItsMarkers
  refine ⟨fun s src count crc hs => ?_, fun s bad v hs => ?_⟩
  · refine ⟨fun hbad => ?_, fun hgood hj => marker_completes hs hgood hj, fun hgood hst hj he hv => ?_, fun hv ht => sourceInvalid_completes hs hv ht⟩
    · refine (exec_marker src count crc s).trans ((inService_next hs _).trans ?_)
      exact congrArg _ (if_pos hbad)
    · obtain ⟨u, hu, hjumped⟩ := marker_jumps hs hgood hst hj he hv
      refine ⟨fun hT => ⟨u, ?_, hjumped⟩, fun hT => ⟨u, ?_, hjumped⟩⟩
      · rwa [if_pos hT] at hu
      · rwa [if_neg (Nat.not_lt.mpr hT)] at hu
  · refine ⟨acquireTimeout_answers hs, forcedFreeRun_completes hs, fun m hst hm hnow hr => alignmentHandshake_outcomes hs hst hm hnow hr,
      cadenceIntervalTick_answers hs, cadCtrlWrite_completes v hs, fun k i hp hrun => actionRelease_engine hs hp hrun, ?_, fun r hc hp hr => ?_⟩
    · rw [← release_trick]
      exact actionRelease_answers hs .trick
    · rw [← release_decant hc hp hr]
      exact actionRelease_answers hs .decant

end Sys2Proof.Machine
end

section
/-!
SUPPORT. Exact numbers: rounding at and below one bit, and the formats of kind `ieee` (R53-R55, R69-R71).
-/
namespace Sys2Proof.Machine

open Sys2Proof

/-! ### Division by a power of two (R53) -/

theorem scaledDiv_nonneg {k : Int} (h : 0 ≤ k) (n d : Nat) : scaledDiv n d k = (n * 2 ^ k.toNat / d, n * 2 ^ k.toNat % d, d) := by
  simp only [scaledDiv, if_pos h, Nat.shiftLeft_eq]

theorem scaledDiv_neg {k : Int} (h : k < 0) (n d : Nat) :
    scaledDiv n d k = (n / (d * 2 ^ (-k).toNat), n % (d * 2 ^ (-k).toNat), d * 2 ^ (-k).toNat) := by
  simp only [scaledDiv, if_neg (Int.not_le.mpr h), Nat.shiftLeft_eq]

/-- A number at its own scale is its own floor, with no remainder. -/
@[simp] theorem scaledDiv_one_zero (n : Nat) : scaledDiv n 1 0 = (n, 0, 1) := by
  simp [scaledDiv_nonneg, Nat.mod_one]

/-- The exponent of a whole number. -/
theorem ratLog2_one {n : Nat} (h : n ≠ 0) : ratLog2 n 1 = n.log2 := by
  have hlow := Nat.log2_self_le h
  have h1 : Nat.log2 1 = 0 := by decide
  simp [ratLog2, h1, Nat.shiftLeft_eq, Nat.not_lt.mpr hlow]

/-- A floor with no remainder does not go up. -/
@[simp] theorem Rnd.up_zero (m : Rnd) (neg : Bool) (q d : Nat) : m.up neg q 0 d = false := rfl

/-! ### Rounding a value that a format holds (R55) -/

/-- Rounding a value of a format's grid, `mag` units of 2^e, is exact: `e` is the exponent of the last place, and the encoding is in range. -/
theorem FFmt.roundRat_exact {f : FFmt} {mag : Nat} {e : Int} (h0 : mag ≠ 0) (hgrid : max ((mag.log2 : Int) + e - f.mw) (1 - f.bias - f.mw) = e)
    (hfit : (e + f.mw + f.bias - 1).toNat * 2 ^ f.mw + mag ≤ f.maxBits) (m : Rnd) (neg : Bool) :
    f.roundRat m false neg mag 1 e =
      ⟨f.signBits neg + ((e + f.mw + f.bias - 1).toNat * 2 ^ f.mw + mag), false, false, false, decide ((mag.log2 : Int) + e < 1 - f.bias)⟩ := by
  simp only [FFmt.roundRat, h0, ratLog2_one h0, hgrid, Int.sub_self, scaledDiv_one_zero, Rnd.up_zero, Nat.not_lt.mpr hfit, Bool.false_and,
    Bool.false_eq_true, if_false, ne_eq, not_true_eq_false, decide_false]

theorem FFmt.roundRat_zero (f : FFmt) (m : Rnd) (flush neg : Bool) (d : Nat) (e : Int) :
    f.roundRat m flush neg 0 d e = ⟨f.signBits neg, false, false, false, false⟩ := rfl

/-! ### Encodings of the formats that hold infinities (R69-R71) -/

/-- A format's encoding is its sign, its exponent field and its fraction. -/
theorem FFmt.bits_split (f : FFmt) {bits : Nat} (h : bits < 2 ^ f.width) :
    bits = f.signBits (bits.testBit (f.ew + f.mw)) + ((bits >>> f.mw) % 2 ^ f.ew * 2 ^ f.mw + bits % 2 ^ f.mw) := by
  have hw : (2 : Nat) ^ f.width = 2 ^ (f.ew + f.mw) * 2 := by rw [← Nat.pow_succ, FFmt.width, Nat.add_assoc, Nat.add_comm]
  have hsign : f.signBits (bits.testBit (f.ew + f.mw)) = bits / 2 ^ (f.ew + f.mw) * 2 ^ (f.ew + f.mw) := by
    have hlt : bits / 2 ^ (f.ew + f.mw) < 2 := Nat.div_lt_of_lt_mul (hw ▸ h)
    rw [Nat.testBit_eq_decide_div_mod_eq, FFmt.signBits, Nat.mod_eq_of_lt hlt]
    obtain h' | h' := Nat.le_one_iff_eq_zero_or_eq_one.mp (Nat.le_of_lt_succ hlt) <;> simp [h']
  have hexp : (bits >>> f.mw) % 2 ^ f.ew = bits % 2 ^ (f.ew + f.mw) / 2 ^ f.mw := by
    rw [Nat.shiftRight_eq_div_pow, Nat.pow_add, Nat.mul_comm, Nat.mod_mul_right_div_self]
  have hfrac : bits % 2 ^ f.mw = bits % 2 ^ (f.ew + f.mw) % 2 ^ f.mw := by
    rw [Nat.pow_add, Nat.mod_mul_left_mod]
  rw [hsign, hexp, hfrac, Nat.div_add_mod', Nat.div_add_mod']

/-- A finite encoding of a format with infinities: a subnormal or zero, or a normal below the top exponent. -/
theorem FFmt.decode_ieee_fin {f : FFmt} (ht : f.top = .ieee) {bits : Nat} {neg : Bool} {mag : Nat} {e : Int}
    (hb : bits < 2 ^ f.width) (hd : f.decode bits = .fin neg mag e) :
    ∃ ex frac : Nat, ex < 2 ^ f.ew - 1 ∧ frac < 2 ^ f.mw ∧ bits = f.signBits neg + (ex * 2 ^ f.mw + frac) ∧
      ((ex = 0 ∧ mag = frac ∧ e = 1 - f.bias - f.mw) ∨ (0 < ex ∧ mag = 2 ^ f.mw + frac ∧ e = ex - f.bias - f.mw)) := by
  have hsplit := f.bits_split hb
  have hex : (bits >>> f.mw) % 2 ^ f.ew < 2 ^ f.ew := Nat.mod_lt _ (Nat.two_pow_pos _)
  have hfrac : bits % 2 ^ f.mw < 2 ^ f.mw := Nat.mod_lt _ (Nat.two_pow_pos _)
  simp only [FFmt.decode, ht] at hd
  generalize (bits >>> f.mw) % 2 ^ f.ew = ex at *
  generalize bits % 2 ^ f.mw = frac at *
  split at hd
  · split at hd <;> cases hd
  · rename_i htop
    split at hd
    · obtain ⟨rfl, rfl, rfl⟩ := FVal.fin.inj hd
      exact ⟨ex, frac, by omega, hfrac, hsplit, .inl ⟨‹_›, rfl, rfl⟩⟩
    · obtain ⟨rfl, rfl, rfl⟩ := FVal.fin.inj hd
      exact ⟨ex, frac, by omega, hfrac, hsplit, .inr ⟨by omega, rfl, rfl⟩⟩

theorem FFmt.maxBits_ieee {f : FFmt} (ht : f.top = .ieee) : f.maxBits = (2 ^ f.ew - 1) * 2 ^ f.mw - 1 := by
  simp only [FFmt.maxBits, ht]

/-- An encoding below the top exponent is at most the largest finite one. -/
theorem FFmt.le_maxBits {f : FFmt} (ht : f.top = .ieee) {ex frac : Nat} (hex : ex < 2 ^ f.ew - 1) (hfrac : frac < 2 ^ f.mw) :
    ex * 2 ^ f.mw + frac ≤ f.maxBits := by
  have := Nat.mul_le_mul_right (2 ^ f.mw) (Nat.succ_le_of_lt hex)
  rw [Nat.succ_mul] at this
  rw [FFmt.maxBits_ieee ht]
  omega

/-- Rounding what an encoding of a format with infinities holds gives that encoding, exactly. -/
theorem FFmt.roundRat_decode {f : FFmt} (ht : f.top = .ieee) (m : Rnd) {bits : Nat} {neg : Bool} {mag : Nat} {e : Int}
    (hb : bits < 2 ^ f.width) (hd : f.decode bits = .fin neg mag e) :
    (f.roundRat m false neg mag 1 e).bits = bits ∧ (f.roundRat m false neg mag 1 e).inexact = false ∧
      (f.roundRat m false neg mag 1 e).overflow = false := by
  obtain ⟨ex, frac, hex, hfrac, rfl, hcase⟩ := f.decode_ieee_fin ht hb hd
  have hfit := f.le_maxBits ht hex hfrac
  by_cases h0 : mag = 0
  · have hpow := Nat.two_pow_pos f.mw
    obtain ⟨rfl, rfl, rfl⟩ | ⟨-, rfl, -⟩ := hcase
    · subst h0
      simp [FFmt.roundRat_zero]
    · omega
  · have hplace : max ((mag.log2 : Int) + e - f.mw) (1 - f.bias - f.mw) = e ∧
        (e + f.mw + f.bias - 1).toNat * 2 ^ f.mw + mag = ex * 2 ^ f.mw + frac := by
      obtain ⟨rfl, rfl, rfl⟩ | ⟨hpos, rfl, rfl⟩ := hcase
      · have hlt := (Nat.log2_lt h0).mpr hfrac
        refine ⟨by omega, ?_⟩
        rw [show (1 - f.bias - (f.mw : Int) + f.mw + f.bias - 1).toNat = 0 by omega]
      · have hlog : (2 ^ f.mw + frac).log2 = f.mw := (Nat.log2_eq_iff h0).mpr ⟨by omega, by rw [Nat.pow_succ]; omega⟩
        refine ⟨by omega, ?_⟩
        rw [show ((ex : Int) - f.bias - f.mw + f.mw + f.bias - 1).toNat = ex - 1 by omega, ← Nat.add_assoc, ← Nat.succ_mul,
          Nat.succ_eq_add_one, Nat.sub_add_cancel hpos]
    obtain ⟨hgrid, henc⟩ := hplace
    rw [FFmt.roundRat_exact h0 hgrid (henc ▸ hfit), henc]
    exact ⟨rfl, rfl, rfl⟩

/-- Settles O7: a finite encoding stands on its format's grid, so that the division by the last place leaves no remainder. -/
theorem representableValuesRoundToThemselves : Obligations.RepresentableValuesRoundToThemselves := by
  unfold Obligations.RepresentableValuesRoundToThemselves
  intro f hf m bits neg mag e hb hd
  have ht : f.top = .ieee := by
    simp only [List.mem_cons, List.not_mem_nil, or_false] at hf
    obtain rfl | rfl | rfl | rfl := hf <;> rfl
  exact f.roundRat_decode ht m hb hd

end Sys2Proof.Machine
end

section
/-!
SUPPORT. Anchored sums: what a list of terms sums to, in any order and any grouping (R48, R49, R51).
-/
namespace Sys2Proof.Machine

open Sys2Proof

/-! ### Wrapping (R48) -/

/-- Wrapping to n bits is the balanced remainder modulo 2^n. -/
theorem wrapInt_eq_bmod (n : Nat) (x : Int) : wrapInt n x = x.bmod (2 ^ n) := by
  have hnat : (ofSigned n x : Int) = x % ((2 ^ n : Nat) : Int) := by
    push_cast
    exact Int.toNat_of_nonneg (Int.emod_nonneg _ (Int.ne_of_gt (Int.pow_pos (by decide))))
  rw [wrapInt, toSigned_eq_toInt, BitVec.toInt_ofNat', hnat, Int.emod_bmod]

theorem wrapInt_add_left (n : Nat) (x y : Int) : wrapInt n (wrapInt n x + y) = wrapInt n (x + y) := by
  simp only [wrapInt_eq_bmod, Int.bmod_add_bmod]

theorem wrapInt_add_wrapInt (n : Nat) (x y : Int) : wrapInt n (wrapInt n x + wrapInt n y) = wrapInt n (x + y) := by
  simp only [wrapInt_eq_bmod, ← Int.add_bmod]

/-- A number of fewer than n bits does not wrap. -/
theorem wrapInt_of_natAbs_lt {n : Nat} {x : Int} (h : x.natAbs < 2 ^ n) : wrapInt (n + 1) x = x := by
  rw [wrapInt_eq_bmod]
  have hpow : ((2 ^ (n + 1) : Nat) : Int) = 2 * ((2 ^ n : Nat) : Int) := by rw [Nat.pow_succ', Int.natCast_mul]; rfl
  apply Int.bmod_eq_of_le <;> omega

/-! ### The join of special parts (R49) -/

theorem Special.join_comm (x y : Special) : x.join y = y.join x := by
  cases x <;> cases y <;> rfl

theorem Special.join_assoc (x y z : Special) : (x.join y).join z = x.join (y.join z) := by
  cases x <;> cases y <;> cases z <;> rfl

@[simp] theorem Special.finite_join (x : Special) : Special.finite.join x = x := rfl

@[simp] theorem Special.join_finite (x : Special) : x.join .finite = x := Special.join_comm x .finite

@[simp] theorem Special.nan_join (x : Special) : Special.nan.join x = .nan := by
  cases x <;> rfl

/-- The join of a list of special parts. -/
def Special.joinAll (xs : List Special) : Special := xs.foldr Special.join .finite

@[simp] theorem Special.joinAll_nil : joinAll [] = .finite := rfl

@[simp] theorem Special.joinAll_singleton (x : Special) : joinAll [x] = x := Special.join_finite x

theorem Special.joinAll_append (xs ys : List Special) : joinAll (xs ++ ys) = (joinAll xs).join (joinAll ys) := by
  induction xs with
  | nil => rfl
  | cons x xs ih => exact (congrArg x.join ih).trans (Special.join_assoc ..).symm

theorem Special.joinAll_perm {xs ys : List Special} (h : xs.Perm ys) : joinAll xs = joinAll ys := by
  refine h.foldr_eq' (fun x _ y _ z => ?_) _
  rw [← Special.join_assoc, Special.join_comm y x, Special.join_assoc]

/-! ### One term (R48) -/

/-- A finite term within the anchor: its sign, magnitude and exponent. -/
def FVal.admitted (a : Int) (t : FVal) : Option (Bool × Nat × Int) :=
  match t with
  | .fin neg mag e => if mag = 0 ∨ (mag.log2 : Int) + e < a then some (neg, mag, e) else none
  | _ => none

theorem FVal.admitted_below {a : Int} {t : FVal} {neg : Bool} {mag : Nat} {e : Int} (h : t.admitted a = some (neg, mag, e)) :
    mag = 0 ∨ (mag.log2 : Int) + e < a := by
  cases t with
  | nan | inf => simp [FVal.admitted] at h
  | fin =>
    simp only [FVal.admitted, Option.ite_none_right_eq_some, Option.some.injEq, Prod.mk.injEq] at h
    obtain ⟨hin, -, rfl, rfl⟩ := h
    exact hin

/-- The integer that a term adds; 0 where it is not admitted. -/
def FVal.termInt (win : Window) (a : Int) (t : FVal) : Int :=
  (t.admitted a).elim 0 (fun x => (roundNeInt x.1 x.2.1 (x.2.2 + win.w - a)).1)

/-- Does a term lose bits below the window? -/
def FVal.loses (win : Window) (a : Int) (t : FVal) : Bool :=
  (t.admitted a).elim false (fun x => (roundNeInt x.1 x.2.1 (x.2.2 + win.w - a)).2)

/-- Is a term finite and beyond the anchor? -/
def FVal.exceeds (a : Int) (t : FVal) : Bool := (t.admitted a).isNone && !t.isNan && !t.isInf

/-- The special part of a term. -/
def FVal.special (a : Int) (t : FVal) : Special :=
  match t with
  | .nan => .nan
  | .inf neg => .ofSign neg
  | .fin neg _ _ => if (t.admitted a).isSome then .finite else .ofSign neg

/-- What a term does to a sum, part by part. -/
theorem ASum.term_eq (win : Window) (a : Int) (acc : ASum) (t : FVal) (hs : wrapInt (win.w + win.g) acc.s = acc.s) :
    ASum.term win a acc t =
      { s := wrapInt (win.w + win.g) (acc.s + t.termInt win a), sp := acc.sp.join (t.special a), n := acc.n + 1
        negOnly := acc.negOnly && t.neg, wl := acc.wl || t.loses win a, ax := acc.ax || t.exceeds a } := by
  cases t with
  | nan => simp [ASum.term, FVal.termInt, FVal.special, FVal.loses, FVal.exceeds, FVal.admitted, FVal.isNan, hs]
  | inf neg => simp [ASum.term, FVal.termInt, FVal.special, FVal.loses, FVal.exceeds, FVal.admitted, FVal.isNan, FVal.isInf, hs]
  | fin neg mag e =>
    by_cases h : mag ≠ 0 ∧ (mag.log2 : Int) + e ≥ a
    · have hout : FVal.admitted a (.fin neg mag e) = none := if_neg (by omega)
      simp [ASum.term, h, FVal.termInt, FVal.special, FVal.loses, FVal.exceeds, hout, FVal.isNan, FVal.isInf, hs]
    · have hin : FVal.admitted a (.fin neg mag e) = some (neg, mag, e) := if_pos (by omega)
      simp only [ASum.term, if_neg h, FVal.termInt, FVal.special, FVal.loses, FVal.exceeds, hin, Option.elim_some, Option.isSome_some,
        Option.isNone_some, if_true, Special.join_finite, Bool.false_and, Bool.or_false]

/-! ### A list of terms (R48, R49, R51) -/

/-- The anchored sum of a list of terms in closed form: every part is a commutative sum over the list. -/
def ASum.gathered (win : Window) (a : Int) (ts : List FVal) : ASum where
  s := wrapInt (win.w + win.g) (ts.map (FVal.termInt win a)).sum
  sp := Special.joinAll (ts.map (FVal.special a))
  n := ts.length
  negOnly := ts.all FVal.neg
  wl := ts.any (FVal.loses win a)
  ax := ts.any (FVal.exceeds a)

/-- One more term of a list that is summed. -/
theorem ASum.term_gathered (win : Window) (a : Int) (ts : List FVal) (t : FVal) :
    ASum.term win a (ASum.gathered win a ts) t = ASum.gathered win a (ts ++ [t]) := by
  have hs : wrapInt (win.w + win.g) (ASum.gathered win a ts).s = (ASum.gathered win a ts).s := by
    simp only [ASum.gathered, wrapInt_eq_bmod, Int.bmod_bmod]
  rw [ASum.term_eq win a _ t hs]
  simp [ASum.gathered, wrapInt_add_left, Special.joinAll_append]

/-- More terms of a list that is summed. -/
theorem ASum.terms_gathered (win : Window) (a : Int) (ts us : List FVal) :
    ASum.terms win a (ASum.gathered win a ts) us = ASum.gathered win a (ts ++ us) := by
  induction us generalizing ts with
  | nil => rw [List.append_nil]; rfl
  | cons u us ih =>
    have h := ih (ts ++ [u])
    rw [← ASum.term_gathered, List.append_assoc] at h
    exact h

/-- The pseudocode of R48 gives the closed form. -/
theorem ASum.terms_eq_gathered (win : Window) (a : Int) (ts : List FVal) : ASum.terms win a {} ts = ASum.gathered win a ts := by
  have hempty : ASum.gathered win a [] = {} := by simp [ASum.gathered, wrapInt_eq_bmod]
  rw [← hempty, ASum.terms_gathered, List.nil_append]

/-- A sum of integers does not depend on their order. -/
theorem sum_perm {xs ys : List Int} (h : xs.Perm ys) : xs.sum = ys.sum :=
  h.foldr_eq' (fun _ _ _ _ _ => by omega) 0

/-- The order of the terms does not matter. -/
theorem ASum.gathered_perm (win : Window) (a : Int) {ts us : List FVal} (h : ts.Perm us) : ASum.gathered win a ts = ASum.gathered win a us := by
  simp only [ASum.gathered, sum_perm (h.map (FVal.termInt win a)), Special.joinAll_perm (h.map (FVal.special a)), h.length_eq, h.all_eq, h.any_eq]

/-- The grouping of the terms does not matter. -/
theorem ASum.merge_gathered (win : Window) (a : Int) (ts us : List FVal) :
    ASum.merge win (ASum.gathered win a ts) (ASum.gathered win a us) = ASum.gathered win a (ts ++ us) := by
  simp only [ASum.merge, ASum.gathered, wrapInt_add_wrapInt, List.map_append, List.sum_append, Special.joinAll_append, List.length_append,
    List.all_append, List.any_append]

/-! ### Sums that do not wrap (R51) -/

/-- The floor of a magnitude below 2^m, scaled by 2^k, is below 2^(m+k). -/
theorem scaledDiv_lt {mag m w : Nat} {k : Int} (hmag : mag < 2 ^ m) (hk : m + k ≤ w) : (scaledDiv mag 1 k).1 < 2 ^ w := by
  by_cases h : 0 ≤ k
  · rw [scaledDiv_nonneg h, Nat.div_one]
    calc mag * 2 ^ k.toNat < 2 ^ m * 2 ^ k.toNat := Nat.mul_lt_mul_of_pos_right hmag (Nat.two_pow_pos _)
      _ = 2 ^ (m + k.toNat) := (Nat.pow_add ..).symm
      _ ≤ 2 ^ w := Nat.pow_le_pow_right (by decide) (by omega)
  · rw [scaledDiv_neg (Int.not_le.mp h), Nat.one_mul]
    refine Nat.div_lt_of_lt_mul ?_
    calc mag < 2 ^ m := hmag
      _ ≤ 2 ^ ((-k).toNat + w) := Nat.pow_le_pow_right (by decide) (by omega)
      _ = 2 ^ (-k).toNat * 2 ^ w := Nat.pow_add ..

theorem signedMag_natAbs (neg : Bool) (m : Nat) : (signedMag neg m).natAbs = m := by
  cases neg
  · exact Int.natAbs_natCast m
  · exact (Int.natAbs_neg _).trans (Int.natAbs_natCast m)

/-- Rounding goes up by one at most. -/
theorem roundInt_natAbs_le (m : Rnd) (neg : Bool) (mag : Nat) (e : Int) : (roundInt m neg mag e).1.natAbs ≤ (scaledDiv mag 1 e).1 + 1 := by
  simp only [roundInt, signedMag_natAbs]
  split <;> omega

/-- A term adds at most 2^w in magnitude. -/
theorem FVal.termInt_natAbs_le (win : Window) (a : Int) (t : FVal) : (t.termInt win a).natAbs ≤ 2 ^ win.w := by
  unfold FVal.termInt
  cases ht : t.admitted a with
  | none => exact Nat.zero_le _
  | some x =>
    obtain ⟨neg, mag, e⟩ := x
    have hin := FVal.admitted_below ht
    refine Nat.le_trans (roundInt_natAbs_le ..) ?_
    obtain rfl | hlt := hin
    · have : (scaledDiv 0 1 (e + win.w - a)).1 = 0 := by unfold scaledDiv; split <;> simp
      rw [this]
      exact Nat.one_le_two_pow
    · exact Nat.succ_le_of_lt (scaledDiv_lt Nat.lt_log2_self (by push_cast; omega))

/-- A sum of terms is at most as many times 2^w in magnitude. -/
theorem sum_termInt_natAbs_le (win : Window) (a : Int) (ts : List FVal) :
    (ts.map (FVal.termInt win a)).sum.natAbs ≤ ts.length * 2 ^ win.w := by
  induction ts with
  | nil => exact Nat.zero_le _
  | cons t ts ih =>
    rw [List.map_cons, List.sum_cons, List.length_cons, Nat.succ_mul, Nat.add_comm]
    exact Nat.le_trans (Int.natAbs_add_le ..) (Nat.add_le_add (t.termInt_natAbs_le win a) ih)

/-- Fewer than 2^(g−1) terms never wrap. -/
theorem ASum.gathered_s_eq_sum {win : Window} (hg : 1 ≤ win.g) (a : Int) {ts : List FVal} (hn : ts.length < 2 ^ (win.g - 1)) :
    (ASum.gathered win a ts).s = (ts.map (FVal.termInt win a)).sum := by
  have hlt : (ts.map (FVal.termInt win a)).sum.natAbs < 2 ^ (win.g - 1 + win.w) :=
    calc _ ≤ ts.length * 2 ^ win.w := sum_termInt_natAbs_le win a ts
      _ < 2 ^ (win.g - 1) * 2 ^ win.w := Nat.mul_lt_mul_of_pos_right hn (Nat.two_pow_pos _)
      _ = 2 ^ (win.g - 1 + win.w) := (Nat.pow_add ..).symm
  have hwidth : win.w + win.g = win.g - 1 + win.w + 1 := by omega
  unfold ASum.gathered
  rw [hwidth]
  exact wrapInt_of_natAbs_lt hlt

/-! ### The obligation -/

/-- Every part of the sum of a list, by the closed form. -/
theorem ASum.terms_parts {win : Window} (hg : 1 ≤ win.g) (a : Int) (ts us : List FVal) :
    let r := ASum.terms win a {} ts
    r.s = wrapInt (win.w + win.g) (ts.map (FVal.termInt win a)).sum ∧ r.n = ts.length ∧
    (ts.length < 2 ^ (win.g - 1) → r.s = (ts.map (FVal.termInt win a)).sum) ∧
    (r.ax = true ↔ ∃ t ∈ ts, t.admitted a = none ∧ t.isNan = false ∧ t.isInf = false) ∧
    r.sp = (ts.map (FVal.special a)).foldr Special.join .finite ∧ (r.negOnly = true ↔ ∀ t ∈ ts, t.neg = true) ∧
    (ts.Perm us → ASum.terms win a {} us = r) ∧
    ASum.merge win r (ASum.terms win a {} us) = ASum.terms win a {} (ts ++ us) := by
  simp only [ASum.terms_eq_gathered]
  refine ⟨rfl, rfl, ASum.gathered_s_eq_sum hg a, ?_, rfl, List.all_eq_true, fun h => (ASum.gathered_perm win a h).symm,
    ASum.merge_gathered win a ts us⟩
  simp [ASum.gathered, FVal.exceeds, and_assoc]

/-- Settles O31: the pseudocode gives a closed form whose parts are commutative sums over the list. -/
theorem anchoredSumIgnoresOrderAndGrouping : Obligations.AnchoredSumIgnoresOrderAndGrouping := by
  unfold Obligations.AnchoredSumIgnoresOrderAndGrouping
  refine ⟨fun win a ts us hg => ?_, fun x y z => ⟨Special.join_comm x y, Special.join_assoc x y z, rfl, Special.nan_join x, rfl, rfl, rfl⟩,
    fun win a x y => ⟨rfl, rfl, rfl, rfl, fun h => ?_, fun h => ?_, fun h => ?_⟩, fun m flush => ⟨rfl, rfl, rfl, rfl⟩⟩
  · exact ASum.terms_parts hg a ts us
  · simp only [ASum.value, h]
  · simp only [ASum.value, h]
  · simp only [ASum.value, h]

end Sys2Proof.Machine
end

section
/-!
SUPPORT. Scalar floating point of a Dealer core (R66, R85, R215-R217, R219).
-/
namespace Sys2Proof.Machine

open Sys2Proof

section ScalarFp

variable {s : State} {c : Fin 192} {d a b : Fin 32} {i : Instr}

/-! ### Instructions that change their core and go on -/

/-- An instruction that changes its core, keeps the pc there and retires leaves the changed core at the next word. -/
theorem leaves_of_retires {f : Core → Core} (h : exec i s = .next ((s.onCore c f).retire4 c)) (hpc : ∀ x, (f x).pc = x.pc) :
    Leaves i s (s.coreRuns c f) :=
  ⟨_, h, (retire4_uncounted c _ 0).trans (congrArg State.uncounted (coreRuns_onCore c hpc s))⟩

/-- A write of F[D] with its bits of FFLAGS keeps the pc. -/
theorem Core.setF_orFlags_pc (v : BitVec 64) (fl : Nat) (x : Core) : ((x.setF d v).orFlags fl).pc = x.pc := rfl

/-- A write of G[D] with its bits of FFLAGS keeps the pc. -/
theorem Core.setG_orFlags_pc (v : BitVec 64) (fl : Nat) (x : Core) : ((x.setG d v).orFlags fl).pc = x.pc := setG_pc d v x

/-- Core `x` rounds an exact result once into F[D], with the bits of FFLAGS of the rounding and of the operands. -/
def Core.roundsTo (x : Core) (single : Bool) (d : Fin 32) (v : XVal) (fl : Nat) (y : Core) : Core :=
  (y.setF d (BitVec.ofNat 64 ((fpFmt single).dealer x.rnd x.flush v).1)).orFlags (((fpFmt single).dealer x.rnd x.flush v).2 ||| fl)

/-- An operand of a scalar form: its value, and FLUSHED where it was flushed. -/
def Core.fpArg (x : Core) (single : Bool) (n : Fin 32) : FVal × Nat := (fpFmt single).operand x.flush (x.fr n).toNat

/-! ### The arithmetic forms (R66, R215, R217) -/

/-- A scalar operation rounds its exact result once, with the bits of its operands. -/
theorem fpOp_leaves (hs : Issues s c) {srcs : List (Fin 32)} {single : Bool} {op : Bool → List FVal → XVal}
    (h : exec i s = fpOp c d srcs single op s) {fl : Nat}
    (hfl : ∀ r, (srcs.map ((s.core c).fpArg single)).foldl (fun b v => b ||| v.2) r = r ||| fl) :
    Leaves i s (s.coreRuns c ((s.core c).roundsTo single d (op (s.core c).down ((srcs.map ((s.core c).fpArg single)).map Prod.fst)) fl)) := by
  refine leaves_of_retires (h.trans ((onIssue_next hs _).trans ?_)) (Core.setF_orFlags_pc _ _)
  unfold Core.roundsTo
  rw [← hfl]
  rfl

/-- A form of one operand. -/
theorem fpOp_one (hs : Issues s c) {single : Bool} (op : Bool → FVal → XVal)
    (h : exec i s = fpOp c d [a] single (fun down vs => op down (opnd vs 0)) s) :
    let x := (s.core c).fpArg single
    Leaves i s (s.coreRuns c ((s.core c).roundsTo single d (op (s.core c).down (x a).1) (x a).2)) :=
  fpOp_leaves hs h (fun _ => rfl)

/-- A form of two operands. -/
theorem fpOp_two (hs : Issues s c) {single : Bool} (op : Bool → FVal → FVal → XVal)
    (h : exec i s = fpOp c d [a, b] single (fun down vs => op down (opnd vs 0) (opnd vs 1)) s) :
    let x := (s.core c).fpArg single
    Leaves i s (s.coreRuns c ((s.core c).roundsTo single d (op (s.core c).down (x a).1 (x b).1) ((x a).2 ||| (x b).2))) :=
  fpOp_leaves hs h (fun r => Nat.or_assoc r _ _)

/-- The form of three operands, whose addend is F[D]. -/
theorem fpOp_three (hs : Issues s c) {single : Bool} (op : Bool → FVal → FVal → FVal → XVal)
    (h : exec i s = fpOp c d [a, b, d] single (fun down vs => op down (opnd vs 0) (opnd vs 1) (opnd vs 2)) s) :
    let x := (s.core c).fpArg single
    Leaves i s (s.coreRuns c ((s.core c).roundsTo single d (op (s.core c).down (x a).1 (x b).1 (x d).1) ((x a).2 ||| (x b).2 ||| (x d).2))) :=
  fpOp_leaves hs h (fun r => by simp only [List.map, List.foldl, Nat.or_assoc])

/-! ### Comparisons and conversions (R85, R217, R219) -/

theorem flag64_eq_ite (p : Bool) : flag64 p = if p then 1 else 0 := by
  cases p <;> rfl

/-- A comparison writes 1 or 0 to G[D]. -/
theorem fpCmp_leaves (hs : Issues s c) {single : Bool} {p : FVal → FVal → Bool} (h : exec i s = fpCmp c d a b single p s) :
    let x := (s.core c).fpArg single
    Leaves i s (s.coreRuns c (fun y => (y.setG d (if p (x a).1 (x b).1 then 1 else 0)).orFlags ((x a).2 ||| (x b).2))) := by
  intro x
  rw [← flag64_eq_ite]
  exact leaves_of_retires (h.trans (onIssue_next hs _)) (Core.setG_orFlags_pc _ _)

/-- FCVT from a format that converts rounds the number that the low bits of F[A] hold. -/
theorem fcvt_leaves (hs : Issues s c) {code : Fin 32} {single : Bool} {g : Fmt} (hg : fcvtSource code.val = some g) :
    let v := g.decode (s.core c).flush (((s.core c).fr a).toNat % 2 ^ g.bits)
    Leaves (.fcvt c d a code single) s (s.coreRuns c ((s.core c).roundsTo single d (.of v.1) (if v.2 then 4 else 0))) := by
  intro v
  refine leaves_of_retires ((onIssue_next hs _).trans ?_) (Core.setF_orFlags_pc _ _)
  rw [hg]
  rfl

/-- FCVT from any other code is an illegal instruction. -/
theorem fcvt_traps (hs : Issues s c) {code : Fin 32} {single : Bool} (hg : fcvtSource code.val = none) :
    Answers (exec (.fcvt c d a code single) s) (s.trap c 1) := by
  refine (onIssue_next hs _).trans ?_
  rw [hg]
  rfl

/-- FTOI rounds and saturates to a signed integer of 64 bits. -/
theorem ftoi_leaves (hs : Issues s c) (single : Bool) :
    let v := (s.core c).fpArg single a
    let r := dealerInt true 64 (s.core c).rnd v.1
    Leaves (.ftoi c d a single) s (s.coreRuns c (fun y => (y.setG d (BitVec.ofNat 64 r.1)).orFlags (r.2 ||| v.2))) :=
  leaves_of_retires (onIssue_next hs _) (Core.setG_orFlags_pc _ _)

/-- ITOF rounds a signed integer of 64 bits. -/
theorem itof_leaves (hs : Issues s c) (single : Bool) :
    Leaves (.itof c d a single) s (s.coreRuns c ((s.core c).roundsTo single d (.of (decodeInt 64 ((s.core c).gr a).toNat)) 0)) := by
  refine leaves_of_retires ((onIssue_next hs _).trans ?_) (Core.setF_orFlags_pc _ _)
  unfold Core.roundsTo
  simp only [Nat.or_zero]

/-- FMVG moves all bits of F[A]. -/
theorem fmvg_leaves (hs : Issues s c) (single : Bool) : Leaves (.fmvg c d a single) s (s.coreRuns c (Core.setG d ((s.core c).fr a))) :=
  ⟨_, onIssue_next hs _, putG_uncounted ..⟩

/-- FMVF moves G[A], as a binary32 result its low bits. -/
theorem fmvf_leaves (hs : Issues s c) (single : Bool) : Leaves (.fmvf c d a single) s (s.coreRuns c (Core.setF d
    (if single then BitVec.ofNat 64 (((s.core c).gr a).toNat % 2 ^ 32) else (s.core c).gr a))) := by
  have hlow : (((s.core c).gr a).setWidth 32).setWidth 64 = BitVec.ofNat 64 (((s.core c).gr a).toNat % 2 ^ 32) := by
    apply BitVec.eq_of_toNat_eq
    simp
  rw [← hlow]
  exact leaves_of_retires (onIssue_next hs _) (Core.setF_pc d _)

end ScalarFp

/-! ### The obligation -/

/-- Settles O6: each arithmetic form is one rounding of its exact result, and each of the others one write of its register. -/
theorem scalarFloatingPointComparesAndConverts : Obligations.ScalarFloatingPointComparesAndConverts := by
  unfold Obligations.ScalarFloatingPointComparesAndConverts
  constructor
  · intro s c d a b single hs
    exact ⟨fpOp_two hs xAdd (exec_fadd c d a b single s), fpOp_two hs (fun down u v => xAdd down u v.negate) (exec_fsub c d a b single s),
      fpOp_two hs (fun _ => xMul) (exec_fmul c d a b single s), fpOp_three hs xFma (exec_ffma c d a b single s),
      fpOp_two hs (fun _ => xDiv) (exec_fdiv c d a b single s), fpOp_one hs (fun _ => xSqrt) (exec_fsqrt c d a single s),
      fpOp_two hs (fun _ u v => .of (fMin u v)) (exec_fmin c d a b single s),
      fpOp_two hs (fun _ u v => .of (fMax u v)) (exec_fmax c d a b single s)⟩
  · intro s c d a b code single hs
    exact ⟨fpCmp_leaves hs (exec_feq c d a b single s), fpCmp_leaves hs (exec_flt c d a b single s), fpCmp_leaves hs (exec_fle c d a b single s),
      fun _ hg => fcvt_leaves hs hg,
      fcvt_traps hs, ftoi_leaves hs single, itof_leaves hs single, fmvg_leaves hs single, fmvf_leaves hs single⟩

end Sys2Proof.Machine
end

section
/-!
SUPPORT. What a store to memory leaves in the other units, and what memory it leaves (R234, R242, R243, R374).
-/
namespace Sys2Proof.Machine

open Sys2Proof

/-! ### What a store changes besides memory -/

/-- `t` is `s` but for memory, the controllers, what a record changes, and the cached copies: all that decoding and storing touch. -/
def State.StoresTo (s t : State) : Prop :=
  ∃ m c f b q p, t = { s with mem := m, hbm := { s.hbm with ctl := c }, flt := f, bnk := b, irq := q, pdc := p }

theorem State.StoresTo.refl (s : State) : s.StoresTo s := ⟨s.mem, s.hbm.ctl, s.flt, s.bnk, s.irq, s.pdc, rfl⟩

theorem State.StoresTo.trans {s t u : State} : s.StoresTo t → t.StoresTo u → s.StoresTo u := by
  rintro ⟨_, _, _, _, _, _, rfl⟩ ⟨m, c, f, b, q, p, rfl⟩
  exact ⟨m, c, f, b, q, p, rfl⟩

theorem State.LogsTo.storesTo {s t : State} : s.LogsTo t → s.StoresTo t := by
  rintro ⟨f, b, q, rfl⟩
  exact ⟨s.mem, s.hbm.ctl, f, b, q, s.pdc, rfl⟩

/-- The units that a store leaves alone. -/
theorem State.StoresTo.fields {s t : State} : s.StoresTo t → t.eng = s.eng ∧ t.cores = s.cores ∧ t.hbm.pips = s.hbm.pips := by
  rintro ⟨_, _, _, _, _, _, rfl⟩
  exact ⟨rfl, rfl, rfl⟩

theorem State.onMem_storesTo (f : Memory → Memory) (s : State) : s.StoresTo (s.onMem f) := ⟨f s.mem, s.hbm.ctl, s.flt, s.bnk, s.irq, s.pdc, rfl⟩

theorem State.onCtl_storesTo (k : Nat) (f : HbmCtl → HbmCtl) (s : State) : s.StoresTo (s.onCtl k f) :=
  ⟨s.mem, vmod s.hbm.ctl k f, s.flt, s.bnk, s.irq, s.pdc, rfl⟩

theorem State.memErr_storesTo (k bits : Nat) (s : State) : s.StoresTo (s.memErr k bits) :=
  (State.onCtl_storesTo k _ s).trans (State.errRecords_logs ..).storesTo

theorem State.markFailing_storesTo (k pch : Nat) (s : State) : s.StoresTo (s.markFailing k pch) := by
  unfold State.markFailing
  split
  · exact .refl s
  · exact (State.onCtl_storesTo k _ s).trans (State.memErr_storesTo ..)

theorem State.noteCorrected_storesTo (key : Nat) (s : State) : s.StoresTo (s.noteCorrected key) := by
  unfold State.noteCorrected
  extract_lets k pch cd transfer s1 s2
  have h : s.StoresTo s2 := (State.onCtl_storesTo k _ s).trans (State.record_logs _ s1).storesTo
  split
  · exact h.trans (State.markFailing_storesTo ..)
  · exact h

theorem State.noteUncorrectable_storesTo (key : Nat) (s : State) : s.StoresTo (s.noteUncorrectable key) := by
  unfold State.noteUncorrectable
  extract_lets k pch cd again s1 s2
  have h : s.StoresTo s2 := (State.onCtl_storesTo k _ s).trans (State.record_logs _ s1).storesTo
  split
  · exact h.trans (State.markFailing_storesTo ..)
  · exact h

theorem State.decodeLine_storesTo (line : Nat) (s : State) : s.StoresTo (s.decodeLine line) := by
  unfold State.decodeLine
  split
  · exact .refl s
  · rename_i e _
    generalize decodePattern (s.mem.isPoison line) e = r
    cases r with
    | clean p => exact State.onMem_storesTo _ s
    | poisoned p => exact State.onMem_storesTo _ s
    | corrected p => exact (State.onMem_storesTo _ s).trans (State.noteCorrected_storesTo ..)
    | uncorrectable p => exact (State.onMem_storesTo _ s).trans (State.noteUncorrectable_storesTo ..)

theorem State.freshLines_storesTo (a n : Nat) (s : State) : s.StoresTo (s.freshLines a n) := by
  unfold State.freshLines
  split
  · exact .refl s
  · refine foldl_keeps (fun t => s.StoresTo t) _ _ s (.refl s) (fun t l h => h.trans ?_)
    dsimp only
    split
    · exact State.onMem_storesTo _ t
    · exact State.decodeLine_storesTo _ t

theorem State.pdcDrop_storesTo (a n : Nat) (s : State) : s.StoresTo (s.pdcDrop a n) := by
  unfold State.pdcDrop
  split
  · exact .refl s
  · exact ⟨s.mem, s.hbm.ctl, s.flt, s.bnk, s.irq, _, rfl⟩

theorem State.writeMem_storesTo (a : Nat) (bs : List Byte) (s : State) : s.StoresTo (s.writeMem a bs) :=
  ((State.freshLines_storesTo a bs.length s).trans (State.onMem_storesTo _ _)).trans (State.pdcDrop_storesTo ..)

/-! ### Memory and the layout decide what memory a store leaves -/

/-- The memory that a decoded transfer leaves depends on memory alone. -/
theorem State.decodeLine_mem_congr {s t : State} (h : s.mem = t.mem) (line : Nat) : (s.decodeLine line).mem = (t.decodeLine line).mem := by
  unfold State.decodeLine
  rw [h]
  split
  · exact h
  · rename_i e _
    generalize decodePattern (t.mem.isPoison line) e = r
    cases r <;> simp only [State.noteCorrected_mem, State.noteUncorrectable_mem, State.onMem_mem, h]

theorem State.lineOf_of_layout {s t : State} (h : s.layout = t.layout) : s.lineOf = t.lineOf := by
  funext a
  rw [State.lineOf, State.lineOf, State.keyOf_of_layout h]

theorem State.freshLines_mem_congr {s t : State} (hm : s.mem = t.mem) (hl : s.layout = t.layout) (a n : Nat) :
    (s.freshLines a n).mem = (t.freshLines a n).mem := by
  unfold State.freshLines
  rw [hm]
  split
  · exact hm
  · refine (List.foldl_rel (r := fun u v : State => u.mem = v.mem ∧ u.layout = v.layout) ⟨hm, hl⟩ (fun l _ u v ⟨hm, hl⟩ => ?_)).1
    rw [State.lineOf_of_layout hl]
    split
    · exact ⟨by simp only [State.onMem_mem, hm], hl⟩
    · exact ⟨State.decodeLine_mem_congr hm _, by rw [State.decodeLine_layout, State.decodeLine_layout, hl]⟩

theorem State.writeMem_mem_congr {s t : State} (hm : s.mem = t.mem) (hl : s.layout = t.layout) (a : Nat) (bs : List Byte) :
    (s.writeMem a bs).mem = (t.writeMem a bs).mem := by
  rw [State.writeMem_mem, State.writeMem_mem, State.freshLines_mem_congr hm hl, State.storeCells_of_layout hl]

/-- Memory, the memory unit and the inventory decide which store holds an extent. -/
theorem State.storeOfExtent_of_layout {s t : State} (h : s.layout = t.layout) : s.storeOfExtent = t.storeOfExtent := by
  funext a n
  unfold State.storeOfExtent
  rw [State.storeOf_of_layout h]

end Sys2Proof.Machine
end

section
/-!
SUPPORT. Descriptors that begin, end and complete (R64, R90, R96, R99, R101, R103, R109, R112, R467).
-/
namespace Sys2Proof.Machine

open Sys2Proof

/-! ### Completion (R64, R109, R112) -/

/-- The flags of a descriptor that ends with OK join those of the core that submitted it (R64). -/
def State.orsFlags (o : Option (Fin 192)) (bits : Nat) (s : State) : State :=
  match o with
  | some c => s.onCore c (Core.orFlags bits)
  | none => s

theorem State.orsFlags_core (o : Option (Fin 192)) (bits : Nat) (s : State) (c : Fin 192) :
    (s.orsFlags o bits).core c = if o = some c then (s.core c).orFlags bits else s.core c := by
  cases o with
  | none => simp [State.orsFlags]
  | some e =>
    by_cases h : e = c
    · subst h
      simp [State.orsFlags]
    · rw [if_neg (by simpa using h)]
      exact onCore_core_ne h _ s

theorem State.orsFlags_fields (o : Option (Fin 192)) (bits : Nat) (s : State) :
    (s.orsFlags o bits).eng = s.eng ∧ (s.orsFlags o bits).mem = s.mem ∧ (s.orsFlags o bits).hbm = s.hbm := by
  cases o <;> exact ⟨rfl, rfl, rfl⟩

/-- What an OK adds to a completion: the flags in FFLAGS, and DONE_PIP (R64, R109). -/
def State.okEffects (k : EngKind) (i : Nat) (x : Entry) (bits : Nat) (s : State) : State :=
  let t := s.orsFlags x.sub.core bits
  if descCpip k x.sub.desc then t.raisePip (engineSuit k i) (descDonePip k x.sub.desc) else t

/-- The engine once its head has completed. -/
def Engine.completed (rest : List Entry) (e : Engine) : Engine :=
  { e with fifo := rest, head := Head.idle, cq := { e.cq with tail := e.cq.tail + 1 } }

/-- A completion, but for the counts: the record, what an OK adds, and the FIFO moved on. -/
def State.completed (s : State) (k : EngKind) (i : Nat) (x : Entry) (rest : List Entry) : State :=
  let e := s.engine k i
  let t := s.writeMem e.cq.slot (completionRecord k e x s.stamp)
  (if e.head.status == 0 then t.okEffects k i x e.head.flags.bits else t).onEngine k i (Engine.completed rest)

section Completion

variable {s : State} {k : EngKind} {i : Nat} {x : Entry} {rest : List Entry}

/-- A full ring holds the completion. -/
theorem writeCompletion_full (hf : (s.engine k i).fifo = x :: rest) (hfull : (s.engine k i).cq.full = true) :
    s.writeCompletion k i = s.onHead k i (fun h => { h with held := true }) := by
  unfold State.writeCompletion
  simp only [hf, hfull, if_true]

/-- A ring with space in shared memory takes the completion. -/
theorem writeCompletion_uncounted (hf : (s.engine k i).fifo = x :: rest) (hfull : (s.engine k i).cq.full = false) {m : Store}
    (hm : s.storeOfExtent (s.engine k i).cq.slot 32 = some m) (hshared : m.shared = true) :
    (s.writeCompletion k i).uncounted = (s.completed k i x rest).uncounted := by
  have hstore : s.storeOfExtent (s.engine k i).cq.slot 32 = some .hbm ∨ (s.storeOfExtent (s.engine k i).cq.slot 32).any Store.shared = true := by
    rw [hm]
    exact .inr hshared
  unfold State.writeCompletion State.completed
  simp only [hf, hfull, if_pos hstore, Bool.false_eq_true, if_false, completion_uncounted, pulse_uncounted]
  cases (s.engine k i).head.status == 0
  · cases x.sub.core <;> rfl
  · rfl

/-- What an OK adds changes no engine and no memory. -/
theorem okEffects_fields (bits : Nat) : (s.okEffects k i x bits).eng = s.eng ∧ (s.okEffects k i x bits).mem = s.mem ∧
    (s.okEffects k i x bits).cores = (s.orsFlags x.sub.core bits).cores ∧
    (s.okEffects k i x bits).hbm.pips = (if descCpip k x.sub.desc then s.raisePip (engineSuit k i) (descDonePip k x.sub.desc) else s).hbm.pips := by
  obtain ⟨heng, hmem, hhbm⟩ := s.orsFlags_fields x.sub.core bits
  unfold State.okEffects
  dsimp only
  split
  · exact ⟨heng, hmem, rfl, by simp only [State.raisePip, State.onHbm_hbm, hhbm]⟩
  · exact ⟨heng, hmem, rfl, congrArg MemUnit.pips hhbm⟩

theorem State.core_congr {s t : State} (h : s.cores = t.cores) : s.core = t.core := by
  funext c
  unfold State.core
  rw [h]

theorem State.raisePip_pips_congr {s t : State} (h : s.hbm.pips = t.hbm.pips) (suit pip : Nat) :
    (s.raisePip suit pip).hbm.pips = (t.raisePip suit pip).hbm.pips := congrArg (insertNat (suit * 4096 + pip % 4096)) h

/-- What a completion leaves. -/
theorem completed_fields (hi : i < k.count) :
    let e := s.engine k i
    let t := s.completed k i x rest
    t.engine k i = e.completed rest ∧ t.mem = (s.writeMem e.cq.slot (completionRecord k e x s.stamp)).mem ∧
    t.hbm.pips =
      (if e.head.status = 0 ∧ descCpip k x.sub.desc = true then s.raisePip (engineSuit k i) (descDonePip k x.sub.desc) else s).hbm.pips ∧
    ∀ c, t.core c = if x.sub.core = some c ∧ e.head.status = 0 then (s.core c).orFlags e.head.flags.bits else s.core c := by
  intro e t
  obtain ⟨heng, hcores, hpips⟩ := (s.writeMem_storesTo e.cq.slot (completionRecord k e x s.stamp)).fields
  have ht : t = (if e.head.status == 0 then (s.writeMem e.cq.slot (completionRecord k e x s.stamp)).okEffects k i x e.head.flags.bits
    else s.writeMem e.cq.slot (completionRecord k e x s.stamp)).onEngine k i (Engine.completed rest) := rfl
  generalize s.writeMem e.cq.slot (completionRecord k e x s.stamp) = w at *
  have hengine (u : State) (hu : u.eng = s.eng) : (u.onEngine k i (Engine.completed rest)).engine k i = e.completed rest := by
    rw [State.onEngine_engine _ _ _ _ hi, State.engine_congr hu]
  rw [ht]
  by_cases hok : e.head.status = 0
  · obtain ⟨he, hm, hc, hp⟩ := okEffects_fields (s := w) (k := k) (i := i) (x := x) e.head.flags.bits
    rw [if_pos (beq_iff_eq.mpr hok)]
    refine ⟨hengine _ (he.trans heng), hm, hp.trans ?_, fun c => ?_⟩
    · simp only [hok, true_and]
      split
      · exact State.raisePip_pips_congr hpips _ _
      · exact hpips
    · simp only [hok, and_true]
      refine (congrFun (State.core_congr hc) c).trans ((State.orsFlags_core ..).trans ?_)
      rw [State.core_congr hcores]
  · rw [if_neg (fun h => hok (beq_iff_eq.mp h))]
    refine ⟨hengine w heng, rfl, ?_, fun c => ?_⟩
    · rw [if_neg (fun h => hok h.1)]
      exact hpips
    · rw [if_neg (fun h => hok h.2)]
      exact congrFun (State.core_congr hcores) c

end Completion

theorem uncounted_hbm {s t : State} (h : s.uncounted = t.uncounted) : s.hbm = t.hbm :=
  (congrArg State.hbm h : s.uncounted.hbm = t.uncounted.hbm)

/-! ### A descriptor ends (R109, R112) -/

/-- The head's descriptor has ended with a status, and its record is still to be written. -/
def State.ended (s : State) (k : EngKind) (i st : Nat) : State := s.onHead k i (fun h => { h with
  phase := .finished, status := BitVec.ofNat 16 st, since := if h.phase = .idle then s.now else h.since
  flags := if st = 0 then h.flags else {}, empty := h.empty && st = 0, truncCap := h.truncCap && st = 0 })

theorem finish_eq (k : EngKind) (i st : Nat) (s : State) : s.finish k i st = (s.ended k i st).writeCompletion k i := rfl

section Finish

variable {s : State} {k : EngKind} {i st : Nat} {x : Entry} {rest : List Entry}

theorem ended_engine (hi : i < k.count) : (s.ended k i st).engine k i =
    { s.engine k i with head := ((s.ended k i st).engine k i).head } := by
  rw [State.ended, State.onHead, State.onEngine_engine _ _ _ _ hi]

theorem ended_status (hi : i < k.count) : ((s.ended k i st).engine k i).head.status = 0 ↔ st % 65536 = 0 := by
  have h : ((s.ended k i st).engine k i).head.status = BitVec.ofNat 16 st := by
    rw [State.ended, State.onHead, State.onEngine_engine _ _ _ _ hi]
  rw [h, ← BitVec.toNat_inj, BitVec.toNat_ofNat]
  rfl

/-- In a full ring the descriptor that has ended is held. -/
theorem finish_full (hi : i < k.count) (hf : (s.engine k i).fifo = x :: rest) (hfull : (s.engine k i).cq.full = true) :
    s.finish k i st = (s.ended k i st).onHead k i (fun h => { h with held := true }) := by
  rw [finish_eq]
  refine writeCompletion_full (x := x) (rest := rest) ?_ ?_
  · rw [ended_engine hi]
    exact hf
  · rw [ended_engine hi]
    exact hfull

/-- In a ring with space the descriptor completes. -/
theorem finish_completes (hi : i < k.count) (hf : (s.engine k i).fifo = x :: rest) (hfull : (s.engine k i).cq.full = false)
    (hm : ∃ m, s.storeOfExtent (s.engine k i).cq.slot 32 = some m ∧ m.shared = true) :
    let e := s.engine k i
    let s1 := s.ended k i st
    let t := s.finish k i st
    t.engine k i = { e with fifo := rest, head := Head.idle, cq := { e.cq with tail := e.cq.tail + 1 } } ∧
    t.mem = (s.writeMem e.cq.slot (completionRecord k (s1.engine k i) x s.stamp)).mem ∧
    t.hbm.pips = (if st % 65536 = 0 ∧ descCpip k x.sub.desc = true then s.raisePip (engineSuit k i) (descDonePip k x.sub.desc) else s).hbm.pips ∧
    ∀ c, t.core c = if x.sub.core = some c ∧ st % 65536 = 0 then (s.core c).orFlags (s1.engine k i).head.flags.bits else s.core c := by
  intro e s1 t
  obtain ⟨m, hm, hshared⟩ := hm
  have he : s1.engine k i = { e with head := (s1.engine k i).head } := ended_engine hi
  have hcq : (s1.engine k i).cq = e.cq := by rw [he]
  have hl : s1.layout = s.layout := State.layout_congr rfl rfl
  have hmem1 : s1.mem = s.mem := rfl
  have hstamp : s1.stamp = s.stamp := rfl
  have hstatus : (s1.engine k i).head.status = 0 ↔ st % 65536 = 0 := ended_status hi
  have hu : t.uncounted = (s1.completed k i x rest).uncounted := by
    have hfifo : (s1.engine k i).fifo = x :: rest := by rw [he]; exact hf
    have hstore : s1.storeOfExtent (s1.engine k i).cq.slot 32 = some m := by rw [hcq, State.storeOfExtent_of_layout hl]; exact hm
    exact writeCompletion_uncounted hfifo (hcq ▸ hfull) hstore hshared
  obtain ⟨hengine, hmem, hpips, hcore⟩ := completed_fields (s := s1) (x := x) (rest := rest) hi
  simp only [hstatus] at hpips hcore
  refine ⟨?_, (uncounted_mem hu).trans (hmem.trans ?_), ?_, fun c => ?_⟩
  · rw [State.engine_congr (uncounted_eng hu), hengine, he]
    rfl
  · rw [hcq, hstamp]
    exact State.writeMem_mem_congr hmem1 hl _ _
  · rw [uncounted_hbm hu, hpips]
    split
    · exact State.raisePip_pips_congr rfl _ _
    · rfl
  · exact (congrFun (State.core_congr (uncounted_cores hu)) c).trans (hcore c)

end Finish

/-! ### The wait for pips (R101, R103, R467) -/

section Wait

variable {s : State} {k : EngKind} {i : Nat} {x : Entry} {rest : List Entry}

theorem headDesc_cons {e : Engine} (h : e.fifo = x :: rest) : e.headDesc = x.sub.desc := by
  simp only [Engine.headDesc, h]

/-- The wait limit ends a descriptor whose pips have not all risen (R103). -/
theorem pipTimeout_answers {j : Fin 64} (hs : s.serves = true) (hp : (s.engine k j).head.phase = .waitPips) (hl : (s.engine k j).pipLimit ≠ 0)
    (ht : (s.engine k j).head.firstEffect + (s.engine k j).pipLimit.toNat * 60000 ≤ s.now)
    (hw : (waitSet k (s.engine k j).headDesc).all (s.risen k j) = false) :
    Answers (exec (.pipTimeout k j) s) (((s.onHead k j (fun h => { h with start := none })).engErr k j 2).finish k j 0x11) := by
  have hwaits : (s.engine k j).waits k = true := by simp [Engine.waits, hp]
  exact (exec_pipTimeout k j s).trans ((inService_next hs _).trans (congrArg _ (if_pos ⟨hwaits, hl, ht, by rw [hw]; rfl⟩)))

/-- Once the first effect has come and every pip of the wait set has been seen up, what works waits for a duty slot alone. -/
theorem mayStart_eq (hf : (s.engine k i).fifo = x :: rest) (hp : (s.engine k i).head.phase = .waitPips)
    (he : (s.engine k i).head.firstEffect ≤ s.now) (hr : ∀ p ∈ startSet k x.sub.desc, s.risen k i p = true) :
    s.mayStart k i = (descOp x.sub.desc == 0 || s.pwr.slotOn) := by
  have hmet : s.pipsMet k i = true := by
    rw [State.pipsMet, headDesc_cons hf]
    exact List.all_eq_true.mpr hr
  have hphase : ((s.engine k i).head.phase == HeadPhase.waitPips) = true := by rw [hp]; rfl
  simp only [State.mayStart, hphase, he, hmet, headDesc_cons hf, decide_true, Bool.true_and]

/-- What an engine of each kind does when its descriptor may begin. -/
def State.begins (k : EngKind) (i : Nat) (s : State) : State :=
  match k with
  | .tbl => s.tblStart i
  | .atm => s.atmStart i
  | .sol => s.solStart i
  | .shf => s.shfStart i

theorem pipWaitSatisfied_answers {j : Fin 64} (hs : s.serves = true) :
    Answers (exec (.pipWaitSatisfied k j) s) (if s.mayStart k j then s.begins k j else s) := by
  refine (exec_pipWaitSatisfied k j s).trans ((inService_next hs _).trans (congrArg _ ?_))
  cases s.mayStart k j <;> rfl

/-- A NOP ends at once, with OK (R90). -/
theorem begins_nop (hf : (s.engine k i).fifo = x :: rest) (h0 : descOp x.sub.desc = 0) : s.begins k i = s.finish k i 0 := by
  have h : descOp (s.engine k i).headDesc = 0 := by rw [headDesc_cons hf, h0]
  cases k <;> exact if_pos h

end Wait

/-! ### A descriptor runs (R96, R99, R101, R109) -/

/-- A descriptor of an engine begins to run on memory `m` from state `s`, in state `t`. -/
structure State.Begun (s : State) (k : EngKind) (i : Nat) (m : Memory) (t : State) : Prop where
  phase : (t.engine k i).head.phase = .running
  start : (t.engine k i).head.start = if k = .tbl ∧ descPipMode k (s.engine k i).headDesc = 2 then (s.engine k i).head.start
    else some ((s.engine k i).head.start.getD s.stamp)
  snap : (t.engine k i).head.snap = m
  late : (t.engine k i).head.late = (s.engine k i).head.late
  fifo : (t.engine k i).fifo = (s.engine k i).fifo
  mem : t.mem = m
  cores : t.cores = s.cores

section Begin

variable {s u : State} {k : EngKind} {i : Nat} {m : Memory}

theorem Memory.noPoison_poison {m : Memory} (h : m.noPoison = true) : m.poison = [] := by
  simp only [Memory.noPoison, Bool.and_eq_true] at h
  exact List.isEmpty_iff.mp h.1

/-- Where no poison stands, the descriptor runs on memory as it stands. -/
theorem beginRun_begun (hi : i < k.count) (hp : s.mem.poison = []) : s.Begun k i s.mem (s.beginRun k i) := by
  have hfresh : s.freshStore k i = s := by
    unfold State.freshStore
    rw [hp]
    rfl
  have hrun : s.beginRun k i = s.onHead k i (fun h =>
      { (if k = .tbl ∧ descPipMode k (s.engine k i).headDesc = 2 then h else h.stamped s.stamp) with phase := .running, snap := s.mem }) := by
    unfold State.beginRun
    rw [hfresh]
  have hengine := State.onEngine_engine k i (fun e => { e with head :=
    { (if k = .tbl ∧ descPipMode k (s.engine k i).headDesc = 2 then e.head else e.head.stamped s.stamp) with
      phase := .running, snap := s.mem } }) s hi
  rw [hrun]
  refine ⟨?_, ?_, ?_, ?_, ?_, rfl, rfl⟩ <;> rw [State.onHead, hengine]
  · split <;> rfl
  · split <;> rfl

/-- What a run keeps of itself is no part of its beginning. -/
theorem State.Begun.onRun (hi : i < k.count) (h : s.Begun k i m u) (f : EngRun → EngRun) :
    s.Begun k i m (u.onHead k i (fun h => { h with run := f h.run })) := by
  have hengine := State.onEngine_engine k i (fun e => { e with head := { e.head with run := f e.head.run } }) u hi
  obtain ⟨hphase, hstart, hsnap, hlate, hfifo, hmem, hcores⟩ := h
  refine ⟨?_, ?_, ?_, ?_, ?_, hmem, hcores⟩ <;> rw [State.onHead, hengine] <;> assumption

/-- The engines, the time and the cores from which a descriptor begins. -/
theorem State.Begun.congr (h : u.Begun k i m s) {v : State} (he : u.eng = v.eng) (hc : u.cad = v.cad) (hcores : u.cores = v.cores) :
    v.Begun k i m s := by
  have hengine := State.engine_congr he
  have hstamp : u.stamp = v.stamp := by simp only [State.stamp, hc]
  obtain ⟨hphase, hstart, hsnap, hlate, hfifo, hmem, hcs⟩ := h
  rw [hengine, hstamp] at hstart
  rw [hengine] at hlate hfifo
  exact ⟨hphase, hstart, hsnap, hlate, hfifo, hmem, hcs.trans hcores⟩

/-- With no symbol errors in memory, decoding the operands changes nothing. -/
theorem settleAll_calm (xs : List (Nat × Nat)) (h : s.mem.upset = []) : s.settleAll xs = s := by
  unfold State.settleAll
  induction xs with
  | nil => rfl
  | cons x xs ih => rw [List.foldl_cons, State.settle_calm _ _ _ h, ih]

/-- With no poison and no fenced channel, no operand reads as poison. -/
theorem readsPoison_clean (xs : List (Nat × Nat)) (hp : s.mem.noPoison = true) (hf : s.anyFenced = false) : s.readsPoison xs = false := by
  refine List.any_eq_false.mpr (fun x _ => ?_)
  simp [State.poisonedIn, hp, hf]

/-- Staging changes memory alone, and brings no poison. -/
theorem stage_fields (g : Nat) (t : TblDesc) (hp : s.mem.poison = []) :
    (s.stage g t).eng = s.eng ∧ (s.stage g t).cad = s.cad ∧ (s.stage g t).cores = s.cores ∧ (s.stage g t).mem.poison = [] := by
  unfold State.stage
  split
  · exact ⟨rfl, rfl, rfl, by simp only [State.onMem_mem, Memory.stageOrgan, Memory.unspecify, Memory.fill, hp, List.filter_nil]⟩
  · exact ⟨rfl, rfl, rfl, hp⟩

/-- A Tableau stages its operands and runs. -/
theorem tblStart_begun (hi : i < EngKind.tbl.count) (h0 : descOp (s.engine .tbl i).headDesc ≠ 0) (hw : s.tblWaits i = false)
    (hp : s.mem.noPoison = true) (hu : s.mem.upset = []) (hf : s.anyFenced = false) :
    s.Begun .tbl i (s.stage i (s.engine .tbl i).tblHead).mem (s.tblStart i) := by
  obtain ⟨heng, hcad, hcores, hpoison⟩ := stage_fields (s := s) i (s.engine .tbl i).tblHead (Memory.noPoison_poison hp)
  have hstart : s.tblStart i = ((s.stage i (s.engine .tbl i).tblHead).beginRun .tbl i).onHead .tbl i
      (fun h => { h with run := { h.run with wide := (s.engine .tbl i).tblHead.wide } }) := by
    simp only [State.tblStart, if_neg h0, hw, settleAll_calm _ hu, readsPoison_clean _ hp hf, Bool.false_eq_true, if_false]
  rw [hstart]
  exact ((beginRun_begun hi hpoison).onRun hi (fun r => { r with wide := (s.engine .tbl i).tblHead.wide })).congr heng hcad hcores

theorem atmStart_begun (hi : i < EngKind.atm.count) (h0 : descOp (s.engine .atm i).headDesc ≠ 0) (hp : s.mem.noPoison = true) :
    s.Begun .atm i s.mem (s.atmStart i) := by
  rw [State.atmStart, if_neg h0]
  exact beginRun_begun hi (Memory.noPoison_poison hp)

/-- A Solitaire's RANGE_COUNT begins anew beside its head (R189). -/
theorem solStart_begun (hi : i < EngKind.sol.count) (h0 : descOp (s.engine .sol i).headDesc ≠ 0) (hp : s.mem.noPoison = true) :
    s.Begun .sol i s.mem (s.solStart i) := by
  rw [State.solStart, if_neg h0]
  obtain ⟨hphase, hstart, hsnap, hlate, hfifo, hmem, hcores⟩ := beginRun_begun hi (Memory.noPoison_poison hp)
  exact ⟨hphase, hstart, hsnap, hlate, hfifo, hmem, hcores⟩

theorem shfStart_begun (hi : i < EngKind.shf.count) (h0 : descOp (s.engine .shf i).headDesc ≠ 0) (hw : s.shfWaits i = false)
    (hp : s.mem.noPoison = true) (hu : s.mem.upset = []) (hf : s.anyFenced = false) : s.Begun .shf i s.mem (s.shfStart i) := by
  have hstart : s.shfStart i = s.beginRun .shf i := by
    simp only [State.shfStart, if_neg h0, hw, settleAll_calm _ hu, readsPoison_clean _ hp hf, Bool.false_eq_true, if_false]
  rw [hstart]
  exact beginRun_begun hi (Memory.noPoison_poison hp)

/-- Is memory of the descriptor held, for the kinds whose start reads it? -/
def State.startWaits (s : State) (k : EngKind) (i : Nat) : Bool :=
  match k with
  | .tbl => s.tblWaits i
  | .atm => false
  | .sol => false
  | .shf => s.shfWaits i

/-- A descriptor that works begins to run, a Tableau's on memory with its operands staged. -/
theorem begins_begun (hi : i < k.count) (h0 : descOp (s.engine k i).headDesc ≠ 0) (hw : s.startWaits k i = false) (hp : s.mem.noPoison = true)
    (hu : s.mem.upset = []) (hf : s.anyFenced = false) :
    s.Begun k i (if k = .tbl then s.stage i (s.engine .tbl i).tblHead else s).mem (s.begins k i) := by
  cases k with
  | tbl => exact tblStart_begun hi h0 hw hp hu hf
  | atm => exact atmStart_begun hi h0 hp
  | sol => exact solStart_begun hi h0 hp
  | shf => exact shfStart_begun hi h0 hw hp hu hf

end Begin

/-! ### The obligation -/

/-- Settles O24: an end of a descriptor by what its ring has room for, and a beginning by the kind of its engine. -/
theorem descriptorsBeginAndComplete : Obligations.DescriptorsBeginAndComplete := by
  unfold Obligations.DescriptorsBeginAndComplete
  refine ⟨fun s k i st x rest hi hf => ⟨fun hfull => finish_full hi hf hfull, fun hfull hm => ?_, ?_⟩,
    fun s k i x rest hs hi hf hp he hr hclean hu hfence => ?_⟩
  · obtain ⟨hengine, hmem, hpips, hcore⟩ := finish_completes (st := st) hi hf hfull hm
    refine ⟨hengine, hmem, hpips, fun c => ?_, fun c => ?_⟩
    · rw [hcore]
      split <;> rfl
    · rw [hcore]
      split <;> exact ⟨rfl, rfl⟩
  · rintro j rfl hs hp hl ht hw
    exact pipTimeout_answers hs hp hl ht hw
  · have hmay := mayStart_eq hf hp he hr
    have hanswers := pipWaitSatisfied_answers (k := k) (j := i) hs
    rw [hmay] at hanswers
    refine ⟨fun h0 => ?_, fun h0 hon hw => ⟨_, hanswers, ?_⟩, fun h0 hoff => ?_⟩
    · rw [h0] at hanswers
      rwa [← begins_nop hf h0]
    · have hw' : s.startWaits k i = false := by cases k <;> exact hw
      have hbegun := begins_begun hi (by rwa [headDesc_cons hf]) hw' hclean hu hfence
      have hstart := hbegun.start
      rw [headDesc_cons hf] at hstart
      rw [hon, Bool.or_true, if_pos rfl]
      exact ⟨hbegun.phase, hstart, hbegun.snap, hbegun.late, hbegun.fifo.trans hf, hbegun.mem, hbegun.cores⟩
    · rwa [hoff, Bool.or_false, if_neg (by simpa using h0)] at hanswers

end Sys2Proof.Machine
end

section
/-!
SUPPORT. Writes of registers, through one window or several (R6, R112, R116, R117, R211, R480-R482).
-/
namespace Sys2Proof.Machine

open Sys2Proof

/-! ### Changes of an engine -/

/-- Two changes of one engine are one change. -/
theorem State.onEngine_onEngine (k : EngKind) (i : Nat) (f g : Engine → Engine) (s : State) :
    (s.onEngine k i f).onEngine k i g = s.onEngine k i (fun e => g (f e)) := by
  cases k <;> simp only [State.onEngine, State.onEng, vmod_vmod] <;> rfl

theorem vmod_congr {α : Type} {n : Nat} {v : Vector α n} {i : Nat} {f g : α → α} (d : α) (h : f (vget v i d) = g (vget v i d)) :
    vmod v i f = vmod v i g := by
  unfold vmod
  split
  · rename_i hi
    rw [vget, dif_pos hi] at h
    rw [h]
  · rfl

/-- What a change makes of the engine as it stands is all that it does. -/
theorem State.onEngine_congr {k : EngKind} {i : Nat} {f g : Engine → Engine} {s : State} (h : f (s.engine k i) = g (s.engine k i)) :
    s.onEngine k i f = s.onEngine k i g := by
  cases k <;> simp only [State.onEngine, State.onEng, vmod_congr Engine.reset h]

/-- A change of an engine leaves the others of its kind. -/
theorem State.onEngine_engine_other {i j : Nat} (h : i ≠ j) (k : EngKind) (f : Engine → Engine) (s : State) :
    (s.onEngine k i f).engine k j = s.engine k j := by
  cases k <;> exact (vget_vmod ..).trans (if_neg (fun hij => h hij.1))

/-- A change of each of several engines that is the same done twice. -/
theorem State.foldl_onEngine_engine {k : EngKind} {g : Nat → Engine → Engine} (hg : ∀ i e, g i (g i e) = g i e) {j : Nat} (hj : j < k.count) :
    ∀ (is : List Nat) (s : State), (is.foldl (fun s i => s.onEngine k i (g i)) s).engine k j =
      if is.contains j then g j (s.engine k j) else s.engine k j
  | [], _ => rfl
  | i :: is, s => by
    rw [List.foldl_cons, State.foldl_onEngine_engine hg hj is]
    by_cases hij : i = j
    · subst hij
      simp [State.onEngine_engine _ _ _ _ hj, hg]
    · simp [State.onEngine_engine_other hij, Ne.symm hij]

/-! ### CQ_HEAD, RUN and STAGE_BASE (R112, R116) -/

section Rows

variable {s : State} {k : EngKind} {i : Fin 64} {v : W64} (hs : s.serves = true)
include hs

theorem cqHeadWrite_answers : Answers (exec (.cqHeadWrite (.eng k i) v) s)
    ((s.writeEngHead k i v.toNat).noted (.eng k) i 0x0A0 (s.engine k i).cq.head.toNat v.toNat) :=
  (exec_cqHeadWrite _ v s).trans (inService_next hs _)

theorem ctrlRunWrite_answers : Answers (exec (.ctrlRunWrite (.eng k i) v) s)
    ((s.writeEngRun k i (v.getLsbD 0)).noted (.eng k) i 0x080 (bit01 (s.engine k i).runBit) v.toNat) :=
  (exec_ctrlRunWrite _ v s).trans (inService_next hs _)

theorem organSplitWrite_answers : Answers (exec (.organSplitWrite i v) s)
    ((s.writeOrganSplit i v.toNat).noted (.eng .tbl) i 0x0B0 0 v.toNat) :=
  (exec_organSplitWrite i v s).trans (inService_next hs _)

end Rows

/-- A head that would make TAIL − HEAD larger than the ring is ignored. -/
theorem Cq.writeHead_ignored {q : Cq} {v : W64} (h : 2 ^ q.sizeLog2.toNat < (q.tail - v.setWidth 32).toNat) : q.writeHead v.toNat = q := by
  rw [Cq.writeHead, BitVec.ofNat_toNat, if_pos h]

theorem Cq.writeHead_taken {q : Cq} {v : W64} (h : (q.tail - v.setWidth 32).toNat ≤ 2 ^ q.sizeLog2.toNat) :
    q.writeHead v.toNat = { q with head := v.setWidth 32 } := by
  rw [Cq.writeHead, BitVec.ofNat_toNat, if_neg (Nat.not_lt_of_le h)]

section Head

variable {s : State} {k : EngKind} {i : Nat} {v : W64}

/-- Where no commit is held, a write of CQ_HEAD changes the head of the ring alone. -/
theorem writeEngHead_free (hi : i < k.count) (hh : (s.engine k i).head.held = false) :
    s.writeEngHead k i v.toNat = s.onEngine k i (fun e => { e with cq := e.cq.writeHead v.toNat }) := by
  unfold State.writeEngHead State.releaseHeld
  simp only [State.onEngine_engine _ _ _ _ hi, hh, Bool.not_false, if_true]

theorem writeEngHead_taken (hi : i < k.count) (hh : (s.engine k i).head.held = false)
    (hv : ((s.engine k i).cq.tail - v.setWidth 32).toNat ≤ 2 ^ (s.engine k i).cq.sizeLog2.toNat) :
    s.writeEngHead k i v.toNat = s.onEngine k i (fun e => { e with cq := { e.cq with head := v.setWidth 32 } }) := by
  rw [writeEngHead_free hi hh]
  exact State.onEngine_congr (by rw [Cq.writeHead_taken hv])

/-- Where a running descriptor's commit is held, a write of CQ_HEAD that makes space lets it go on. -/
theorem writeEngHead_held (hi : i < k.count) (hh : (s.engine k i).head.held = true) (hp : (s.engine k i).head.phase = .running)
    (hv : ((s.engine k i).cq.tail - v.setWidth 32).toNat < 2 ^ (s.engine k i).cq.sizeLog2.toNat) :
    s.writeEngHead k i v.toNat = s.onEngine k i (fun e =>
      { e with cq := { e.cq with head := v.setWidth 32 }, head := { e.head with held := false } }) := by
  have htaken := Cq.writeHead_taken (Nat.le_of_lt hv)
  have hspace : ({ (s.engine k i).cq with head := v.setWidth 32 } : Cq).full = false := beq_false_of_ne (Nat.ne_of_lt hv)
  have hrun : ¬ HeadPhase.running = HeadPhase.finished := by decide
  unfold State.writeEngHead State.releaseHeld
  simp only [State.onEngine_engine _ _ _ _ hi, htaken, hh, hp, hspace, hrun, Bool.not_true, Bool.false_eq_true, if_false]
  rw [State.onHead, State.onEngine_onEngine]
  exact State.onEngine_congr (by rw [htaken])

end Head

theorem writeOrganSplit_empty {s : State} {i : Fin 64} (v : Nat) (h : (s.engine .tbl i).fifo = []) : s.writeOrganSplit i v =
    s.onEng (fun x => { x with organSplit := x.organSplit.set i (BitVec.ofNat 9 (min (v % 512) 384)) }) := by
  simp only [State.writeOrganSplit, h, List.isEmpty_nil, if_true, vput, vmod, i.isLt, dif_pos]

theorem writeOrganSplit_busy {s : State} {i : Nat} (v : Nat) (h : (s.engine .tbl i).fifo ≠ []) : s.writeOrganSplit i v = s.engErr .tbl i 32 := by
  rw [State.writeOrganSplit, if_neg (fun he => h (List.isEmpty_iff.mp he))]

/-- What an error bit of an engine leaves (R117). -/
theorem engErr_fields {k : EngKind} {i : Nat} (hi : i < k.count) (bits : Nat) (s : State) :
    (s.engErr k i bits).engine k i = { s.engine k i with err := (s.engine k i).err ||| BitVec.ofNat 6 bits } ∧
    (s.engErr k i bits).eng.organSplit = s.eng.organSplit ∧ (s.engErr k i bits).mem = s.mem := by
  obtain ⟨-, hmem, -, -, heng⟩ := (State.engErr_logs k i bits s).fields
  refine ⟨?_, ?_, hmem⟩
  · rw [State.engine_congr heng, State.onEngine_engine _ _ _ _ hi]
  · rw [heng]
    cases k <;> rfl

/-! ### A write through a window (R6, R116, R481, R482) -/

theorem registerWrite_answers {s : State} (hs : s.serves = true) (g : Agent) (a v : W64) :
    Answers (exec (.registerWrite g a v) s) (s.regWrite g a.toNat v.toNat) := by
  have hf : s.failed = false := by
    simp only [State.serves, Bool.and_eq_true, Bool.not_eq_true'] at hs
    exact hs.2
  unfold Answers
  rw [exec_registerWrite, execRegisterWrite, live_next (State.serves.awake hs), hf]
  rfl

section Windows

variable {s : State} {a : Nat} {b : RegBlk} {w : RegWin} {o : Nat}

/-- A submission port takes no register write (R482). -/
theorem regWrite_port (ha : regAddr a = some (b, w, o)) (hp : isPort b w o = true) (g : Agent) (v : Nat) : s.regWrite g a v = s := by
  simp only [State.regWrite, ha, hp, if_true]

theorem regWrite_banker (ha : regAddr a = some (b, w, o)) (hp : isPort b w o = false) (v : Nat) :
    s.regWrite .banker a v = s.winWrite false (fun _ => true) b w o v := by
  simp only [State.regWrite, ha, hp, Bool.false_eq_true, if_false]

theorem regWrite_dealer (ha : regAddr a = some (b, w, o)) (hp : isPort b w o = false) (c : Fin 192) (v : Nat) :
    s.regWrite (.dealer c) a v =
      if (s.regFault true a).isSome then s else s.winWrite (s.flushOf (.dealer c)) (s.job.uses.namesReg b) b w o v := by
  simp only [State.regWrite, ha, hp, Bool.false_eq_true, if_false]

/-- A block that is not replicated takes a write at once. -/
theorem winWrite_single {flush : Bool} {ok : Nat → Bool} {i : Nat} (hb : b.grouped = false) (hok : ok i = true) (v : Nat) :
    s.winWrite flush ok b (.inst i) o v = s.writeInst flush b i o v := by
  have hmem : b ≠ .mem := by
    rintro rfl
    exact Bool.noConfusion hb
  have harea : isAreg b o = false := by simp [isAreg, hmem]
  simp only [State.winWrite, harea, hok, State.oneWrite, hb, Bool.false_and, Bool.not_true, Bool.or_false, Bool.false_eq_true, if_false]

/-- An engine takes a write through its own window at once, and the write is remembered for the ac. -/
theorem winWrite_inst {ok : Nat → Bool} {k : EngKind} {i : Nat} (hok : ok i = true) (flush : Bool) (v : Nat) :
    s.winWrite flush ok (.eng k) (.inst i) o v = (s.writeEng k i o v).noted (.eng k) i o ((s.instReg (.eng k) i o).getD 0) v := by
  simp only [State.winWrite, isAreg, hok, State.oneWrite, RegBlk.grouped, State.writeInst]
  rfl

/-- A write through the group or all window of the engines reaches each engine that the window selects. -/
theorem winWrite_shared {k : EngKind} (hw : w = .group ∨ w = .all) (hm : maskAt (.eng k) o = none) (flush : Bool) (v : Nat) :
    s.winWrite flush (fun _ => true) (.eng k) w o v = (s.selected (.eng k) w).foldl (fun s i => s.groupWrite flush (.eng k) o v i) s := by
  have hall (is : List Nat) : is.filter (fun _ => true) = is := List.filter_eq_self.mpr (fun _ _ => rfl)
  have harea : isAreg (.eng k) o = false := rfl
  obtain rfl | rfl := hw <;>
    simp only [State.winWrite, hm, harea, hall, Bool.false_and, Bool.false_eq_true, if_false]

end Windows

/-! ### Registers of the engines through several windows (R116, R117, R481) -/

section Engines

variable {s : State} {k : EngKind} {o : Nat}

/-- With no write of an engine's register remembered, one through a shared window is a plain write. -/
theorem groupWrite_unwritten (h : ∀ x ∈ s.bus.written, x.blk ≠ .eng k) (flush : Bool) (v i : Nat) :
    s.groupWrite flush (.eng k) o v i = s.writeEng k i o v := by
  have hbefore : s.bus.written.filter (fun w => w.blk == .eng k && w.unit == i && w.off == o) = [] := by
    refine List.filter_eq_nil_iff.mpr (fun x hx => ?_)
    simp [h x hx]
  simp only [State.groupWrite, hbefore]
  rfl

/-- The limit that an engine has after a write through a shared window, where one of `was` through the own window of `j` stands (R481). -/
def Engine.limited (j was v i : Nat) (e : Engine) : Engine := { e with pipLimit := if i = j then BitVec.ofNat 16 was else BitVec.ofNat 16 v }

/-- The write through an engine's own window stands over the one through a shared window (R481). -/
theorem groupWrite_pipLimit {j old was : Nat} (h : s.bus.written = [⟨.eng k, j, 0x0B8, old, was⟩]) (flush : Bool) (v i : Nat) :
    s.groupWrite flush (.eng k) 0x0B8 v i = s.onEngine k i (Engine.limited j was v i) := by
  by_cases hij : i = j
  · subst hij
    have hbefore : s.bus.written.filter (fun w => w.blk == .eng k && w.unit == i && w.off == 0x0B8) = [⟨.eng k, i, 0x0B8, old, was⟩] := by
      simp [h]
    simp only [State.groupWrite, hbefore]
    refine (State.onEngine_onEngine k i _ _ s).trans (State.onEngine_congr ?_)
    simp [Engine.limited]
  · have hbefore : s.bus.written.filter (fun w => w.blk == .eng k && w.unit == i && w.off == 0x0B8) = [] := by
      simp [h, Ne.symm hij]
    simp only [State.groupWrite, hbefore]
    exact State.onEngine_congr (by simp [Engine.limited, hij])

/-- Writes that each change one engine, whatever the engines hold, are those changes. -/
theorem foldl_groupWrite {flush : Bool} {v : Nat} {g : Nat → Engine → Engine}
    (hg : ∀ (u : State) i, u.bus = s.bus → u.groupWrite flush (.eng k) o v i = u.onEngine k i (g i)) (is : List Nat) :
    is.foldl (fun s i => s.groupWrite flush (.eng k) o v i) s = is.foldl (fun s i => s.onEngine k i (g i)) s :=
  (List.foldl_rel (r := fun t u : State => t = u ∧ u.bus = s.bus) ⟨rfl, rfl⟩ (fun i _ t u ⟨htu, hu⟩ => by
    subst htu
    exact ⟨hg t i hu, hu⟩)).1

/-- The engine with the bits of ERR cleared that are written as 1 (R6, R117). -/
def Engine.clearing (v : W64) (e : Engine) : Engine := { e with err := e.err &&& ~~~(BitVec.ofNat 6 v.toNat) }

theorem Engine.clearing_clearing (v : W64) (e : Engine) : (e.clearing v).clearing v = e.clearing v := by
  simp only [Engine.clearing, BitVec.and_assoc, BitVec.and_self]

/-- A write of ERR through any window clears its bits in every engine that the window selects. -/
theorem winWrite_err {w : RegWin} {v : W64} (h : ∀ x ∈ s.bus.written, x.blk ≠ .eng k) {i : Nat} (hi : i < k.count) :
    ((s.winWrite false (fun _ => true) (.eng k) w 0x0C0 v.toNat).engine k i).err =
      if (s.selected (.eng k) w).contains i then (s.engine k i).err &&& ~~~(BitVec.ofNat 6 v.toNat) else (s.engine k i).err := by
  have hfold : (s.winWrite false (fun _ => true) (.eng k) w 0x0C0 v.toNat).engine k i =
      ((s.selected (.eng k) w).foldl (fun s i => s.onEngine k i (Engine.clearing v)) s).engine k i := by
    have hg (u : State) (i : Nat) (hu : u.bus = s.bus) : u.groupWrite false (.eng k) 0x0C0 v.toNat i = u.onEngine k i (Engine.clearing v) :=
      groupWrite_unwritten (hu ▸ h) false v.toNat i
    cases w with
    | inst j => rw [winWrite_inst rfl]; rfl
    | group => rw [winWrite_shared (.inl rfl) rfl, foldl_groupWrite hg]
    | all => rw [winWrite_shared (.inr rfl) rfl, foldl_groupWrite hg]
  rw [hfold, State.foldl_onEngine_engine (g := fun _ => Engine.clearing v) (fun _ => Engine.clearing_clearing v) hi]
  split <;> rfl

/-- A write of PIP_LIMIT through a shared window reaches every engine that it selects but the one written through its own. -/
theorem winWrite_pipLimit {w : RegWin} {v : W64} {j old was : Nat} (hw : w = .group ∨ w = .all)
    (h : s.bus.written = [⟨.eng k, j, 0x0B8, old, was⟩]) (hj : (s.selected (.eng k) w).contains j = true) {i : Nat} (hi : i < k.count) :
    ((s.winWrite false (fun _ => true) (.eng k) w 0x0B8 v.toNat).engine k i).pipLimit =
      if i = j then BitVec.ofNat 16 was else if (s.selected (.eng k) w).contains i then v.setWidth 16 else (s.engine k i).pipLimit := by
  rw [winWrite_shared hw rfl, foldl_groupWrite (fun u i hu => groupWrite_pipLimit (hu ▸ h) false v.toNat i),
    State.foldl_onEngine_engine (g := Engine.limited j was v.toNat) (fun _ _ => rfl) hi]
  by_cases hij : i = j
  · subst hij
    simp only [hj, if_true, Engine.limited]
  · simp only [Engine.limited, hij, if_false, BitVec.ofNat_toNat]
    split <;> rfl

end Engines

/-! ### Group masks (R116, R481) -/

theorem singleBlock_ne_sco (n : Nat) (c : RegBlk) : singleBlock n ≠ some (.sco c) := by
  intro h
  have hmem := List.mem_of_getElem? h
  simp at hmem

theorem replicated_sco {r : Nat} {c : RegBlk} (h : replicated r = some (.sco c)) : (∃ k, c = .eng k) ∨ c = .mem ∨ c = .dlr := by
  unfold replicated at h
  split at h <;> simp only [Option.some.injEq, RegBlk.sco.injEq, reduceCtorEq] at h <;> subst h <;> simp

theorem windowOf_sco {n : Nat} {c : RegBlk} {w : RegWin} (h : windowOf n = some (.sco c, w)) : (∃ k, c = .eng k) ∨ c = .mem ∨ c = .dlr := by
  have hnot {x : RegWin} (hx : some (RegBlk.scoF, x) = some (.sco c, w)) : False :=
    RegBlk.noConfusion (Prod.mk.inj (Option.some.inj hx)).1
  unfold windowOf at h
  extract_lets r m big x g at h
  by_cases hr : r = 7
  · rw [if_pos hr] at h
    split at h
    · obtain ⟨b, hb, hbw⟩ := Option.map_eq_some_iff.mp h
      obtain rfl := (Prod.mk.inj hbw).1
      exact absurd hb (singleBlock_ne_sco _ c)
    · split at h
      · exact (hnot h).elim
      · split at h
        · exact (hnot h).elim
        · split at h
          · exact (hnot h).elim
          · exact nomatch h
  · rw [if_neg hr] at h
    cases hb : replicated r with
    | none =>
      rw [hb] at h
      exact nomatch h
    | some b =>
      rw [hb] at h
      dsimp only at h
      have hbc : b = .sco c := by
        split at h
        · exact (Prod.mk.inj (Option.some.inj h)).1
        · split at h
          · exact (Prod.mk.inj (Option.some.inj h)).1
          · split at h
            · exact (Prod.mk.inj (Option.some.inj h)).1
            · exact nomatch h
      exact replicated_sco (hb.trans (congrArg some hbc))

/-- The counters that register space holds are those of the engines, the controllers and the cores, beside the F-die's (R479). -/
theorem regAddr_sco {a : Nat} {c : RegBlk} {w : RegWin} {o : Nat} (h : regAddr a = some (.sco c, w, o)) :
    (∃ k, c = .eng k) ∨ c = .mem ∨ c = .dlr := by
  simp only [regAddr] at h
  split at h
  · exact nomatch h
  · obtain ⟨⟨b, x⟩, hw, hbw⟩ := Option.map_eq_some_iff.mp h
    obtain rfl := (Prod.mk.inj hbw).1
    exact windowOf_sco hw

/-- A core's mask registers are three. -/
theorem maskAt_lt {b : RegBlk} {o n : Nat} (h : maskAt b o = some n) : n < 3 := by
  unfold maskAt at h
  split at h <;> grind

/-- A group mask that has taken effect is the value written, at the width of its register. -/
theorem maskNow_writeMask {a : Nat} {b : RegBlk} {w : RegWin} {o n : Nat} (ha : regAddr a = some (b, w, o)) (hm : maskAt b o = some n) (v : Nat)
    (s : State) : (s.writeMask b n v).maskNow b n = v % 2 ^ b.maskBits := by
  have hn := maskAt_lt hm
  have hvec (x : Vector (BitVec 64) 3) : (vget (vput x n (BitVec.ofNat 64 v)) n 0).toNat = v % 2 ^ 64 := by
    rw [vput, vget_vmod, if_pos ⟨rfl, hn⟩, BitVec.toNat_ofNat]
  cases b with
  | eng k => cases k <;> exact BitVec.toNat_ofNat ..
  | cmp => exact BitVec.toNat_ofNat ..
  | mem => exact BitVec.toNat_ofNat ..
  | port => exact BitVec.toNat_ofNat ..
  | dlr => exact hvec _
  | sco c =>
    obtain ⟨k, rfl⟩ | rfl | rfl := regAddr_sco ha
    · cases k <;> exact BitVec.toNat_ofNat ..
    · exact BitVec.toNat_ofNat ..
    · exact hvec _
  | scoF => exact BitVec.toNat_ofNat ..
  | _ => simp [maskAt] at hm

theorem maskNow_onBus (b : RegBlk) (n : Nat) (f : RegBus → RegBus) (s : State) : (s.onBus f).maskNow b n = s.maskNow b n := by
  unfold State.maskNow
  split <;> rfl

/-- A group mask stores what is written, and selects instances from the next ac on. -/
theorem winWrite_mask {a : Nat} {b : RegBlk} {o n : Nat} (ha : regAddr a = some (b, .group, o)) (hm : maskAt b o = some n) {s : State}
    (h : s.bus.masks = []) (flush : Bool) (ok : Nat → Bool) (v : Nat) :
    let t := s.winWrite flush ok b .group o v
    t.maskReg b n = v % 2 ^ b.maskBits ∧ t.maskNow b n = s.maskNow b n ∧ t.endBus.maskNow b n = v % 2 ^ b.maskBits ∧
    t.endBus.bus.masks = [] ∧ t.endBus.bus.written = [] := by
  intro t
  have ht : t = s.onBus (fun x => { x with masks := x.masks ++ [(b, n, v)] }) := by
    simp only [t, State.winWrite, hm]
  have hmasks : t.bus.masks = [(b, n, v)] := by rw [ht]; simp [State.onBus, h]
  refine ⟨?_, ?_, ?_, rfl, rfl⟩
  · simp [State.maskReg, hmasks]
  · rw [ht, maskNow_onBus]
  · rw [State.endBus, maskNow_onBus, hmasks]
    exact maskNow_writeMask ha hm v t

/-! ### The obligation -/

/-- Settles O25: the rows of CQ_HEAD, RUN and STAGE_BASE by what the ring, the head and the FIFO hold, and REGISTER_WRITE by block and window. -/
theorem registerWritesFollowTheirFields : Obligations.RegisterWritesFollowTheirFields := by
  unfold Obligations.RegisterWritesFollowTheirFields
  refine ⟨fun s k i v hs hi => ?_, fun s a v hs => ?_⟩
  · intro e h head
    have hcq : Answers (exec (.cqHeadWrite (.eng k i) v) s) (head (s.writeEngHead k i v.toNat)) := cqHeadWrite_answers hs
    have hsplit := organSplitWrite_answers (i := i) (v := v) hs
    refine ⟨fun hh hv => ⟨_, hcq, ?_⟩, fun hh hv => ?_, fun hh hp hv => ?_, ctrlRunWrite_answers hs, fun hf => ?_, fun hf => ⟨_, hsplit, ?_⟩⟩
    · rw [writeEngHead_free hi hh]
      refine (State.onEngine_engine k i _ s hi).trans ?_
      rw [Cq.writeHead_ignored hv]
    · rwa [writeEngHead_taken hi hh hv] at hcq
    · rwa [writeEngHead_held hi hh hp hv] at hcq
    · rwa [writeOrganSplit_empty _ hf] at hsplit
    · rw [writeOrganSplit_busy _ hf]
      obtain ⟨hengine, hstage, hmem⟩ := engErr_fields (k := .tbl) i.isLt 32 s
      exact ⟨hstage, congrArg Engine.err hengine, hmem⟩
  · intro W
    have hwrite (g : Agent) := registerWrite_answers hs g a v
    have hbanker {b w o} (ha : regAddr a.toNat = some (b, w, o)) (hp : isPort b w o = false) :
        W (s.winWrite false (fun _ => true) b w o v.toNat) := by
      have h := hwrite .banker
      rwa [regWrite_banker ha hp] at h
    have hsingle {b i o} (ha : regAddr a.toNat = some (b, .inst i, o)) (hp : isPort b (.inst i) o = false) (hb : b.grouped = false) :
        W (s.writeInst false b i o v.toNat) := by
      have h := hbanker ha hp
      rwa [winWrite_single hb rfl] at h
    refine ⟨fun ha => ⟨hsingle ha rfl rfl, fun c => ?_⟩, fun ha => hsingle ha rfl rfl, fun ha => hsingle ha rfl rfl,
      fun ha => hsingle ha rfl rfl, fun ha => hsingle ha rfl rfl, fun ha => hsingle ha rfl rfl, fun ha => hsingle ha rfl rfl,
      fun k w ha hw => ⟨_, hbanker ha ?_, fun i hi => winWrite_err hw hi⟩,
      fun k w old was ha hw j _ hb hsel => ⟨_, hbanker ha ?_, fun i hi => winWrite_pipLimit hw hb hsel hi⟩,
      fun b n o ha hm hnone => ⟨_, hbanker ha ?_, winWrite_mask ha hm hnone ..⟩, fun k i o ha ho => ?_,
      fun k i o ha ho => ⟨_, hbanker ha ?_, ?_⟩, fun o ha ho => ?_⟩
    · have h := hwrite (.dealer c)
      rwa [regWrite_dealer ha rfl, winWrite_single rfl rfl] at h
    · cases w <;> rfl
    · obtain rfl | rfl := hw <;> rfl
    · cases b <;> rfl
    · have h := hwrite .banker
      rwa [regWrite_port ha (decide_eq_true ho)] at h
    · obtain rfl | rfl := ho <;> rfl
    · rw [winWrite_inst rfl]
      obtain rfl | rfl := ho <;> cases k <;> rfl
    · have h := hsingle ha rfl rfl
      obtain rfl | rfl | rfl := ho <;> exact h

end Sys2Proof.Machine
end

section
/-!
SUPPORT. A Tableau's chunks, tiles and commit (R96, R97, R101, R102, R104, R107-R109, R127).
-/
namespace Sys2Proof.Machine

open Sys2Proof

/-! ### What the Scorecard counts decides nothing else (R450) -/

theorem macs_onSco (i : Nat) (t : TblDesc) (n : Nat) (s : State) : ∃ f, s.macs i t n = s.onSco f := by
  unfold State.macs State.pulseRate
  split
  · exact ⟨_, rfl⟩
  · exact ⟨id, rfl⟩

theorem onSco_ite {c : Prop} [Decidable c] {f : Score → Score} {u v u' v' : State} (hu : u.onSco f = u') (hv : v.onSco f = v') :
    (if c then u' else v') = (if c then u else v).onSco f := by
  subst hu hv
  exact (apply_ite (State.onSco f) c u v).symm

section Sco

variable (f : Score → Score) (s : State)

theorem raiseIrq_onSco (v : Nat) : (s.onSco f).raiseIrq v = (s.raiseIrq v).onSco f := onSco_ite rfl rfl

theorem record_onSco (r : ErrRec) : (s.onSco f).record r = (s.record r).onSco f :=
  onSco_ite rfl (onSco_ite (raiseIrq_onSco f _ 16).symm rfl).symm

theorem errRecords_onSco (b : Block) (u old new : Nat) : (s.onSco f).errRecords b u old new = (s.errRecords b u old new).onSco f := by
  unfold State.errRecords
  refine List.foldl_rel (r := fun u v : State => u = v.onSco f) rfl (fun i _ u v h => ?_)
  subst h
  split
  · rfl
  · exact record_onSco f v _

theorem engErr_onSco (k : EngKind) (i bits : Nat) : (s.onSco f).engErr k i bits = (s.engErr k i bits).onSco f :=
  errRecords_onSco f (s.onEngine k i _) ..

theorem layout_onSco : (s.onSco f).layout = s.layout := State.layout_congr rfl rfl

theorem writeMem_onSco (a : Nat) (bs : List Byte) (hp : s.mem.noPoison = true) (hu : s.mem.upset = []) :
    (s.onSco f).writeMem a bs = (s.writeMem a bs).onSco f := by
  have hcells : (s.onSco f).storeCells a bs = s.storeCells a bs := State.storeCells_of_layout (layout_onSco f s) a bs
  rw [State.writeMem_plain a bs (s.onSco f) hp hu, State.writeMem_plain a bs s hp hu, hcells]
  exact onSco_ite rfl rfl

/-! What a Tableau reads, and the cells that it makes of it, are the same. -/

theorem readIn_onSco : (s.onSco f).readIn = s.readIn := by
  funext m
  exact State.readMem_congr rfl rfl rfl rfl

theorem rowA_onSco : (s.onSco f).rowA = s.rowA := by
  funext m flush t i
  simp only [State.rowA, State.mxVec, State.plainVec, State.elemAt, readIn_onSco]

theorem colB_onSco : (s.onSco f).colB = s.colB := by
  funext m flush t i
  simp only [State.colB, State.mxVec, State.plainVec, State.elemAt, readIn_onSco]

theorem tblCell_onSco : (s.onSco f).tblCell = s.tblCell := by
  funext m flush t va vb part i j
  simp only [State.tblCell, State.cellAnchor, State.addends, State.summary, State.elemAt, readIn_onSco]

/-- A completion is the same, but for the counts. -/
theorem writeCompletion_onSco (k : EngKind) (i : Nat) (hp : s.mem.noPoison = true) (hu : s.mem.upset = []) :
    ((s.onSco f).writeCompletion k i).uncounted = (s.writeCompletion k i).uncounted := by
  have hstore : (s.onSco f).storeOfExtent = s.storeOfExtent := State.storeOfExtent_of_layout (layout_onSco f s)
  have hengine : (s.onSco f).engine = s.engine := rfl
  have hstamp : (s.onSco f).stamp = s.stamp := rfl
  have hif (p : Prop) [Decidable p] (u v : State) : (if p then u.onSco f else v.onSco f) = (if p then u else v).onSco f :=
    onSco_ite rfl rfl
  simp only [State.writeCompletion, hengine]
  split
  · rfl
  · rename_i x rest _
    split
    · rfl
    · simp only [completion_uncounted, pulse_uncounted, hstore, hstamp, writeMem_onSco f s _ _ hp hu, hif]
      cases x.sub.core with
      | none => cases (s.engine k i).head.status == 0 && descCpip k x.sub.desc <;> rfl
      | some c => cases (s.engine k i).head.status == 0 <;> cases descCpip k x.sub.desc <;> rfl

end Sco

/-- A descriptor that ends leaves the same, but for the counts. -/
theorem finish_onSco (f : Score → Score) (s : State) (k : EngKind) (i st : Nat) (hp : s.mem.noPoison = true) (hu : s.mem.upset = []) :
    ((s.onSco f).finish k i st).uncounted = (s.finish k i st).uncounted :=
  writeCompletion_onSco f (s.ended k i st) k i hp hu

/-! ### Staging (R96) -/

theorem stage_onMem (g : Nat) (t : TblDesc) (s : State) : ∃ f, s.stage g t = s.onMem f := by
  unfold State.stage
  split
  · exact ⟨_, rfl⟩
  · exact ⟨id, rfl⟩

/-- Staging brings neither poison nor symbol errors. -/
theorem stage_clean (g : Nat) (t : TblDesc) {s : State} (hp : s.mem.noPoison = true) (hu : s.mem.upset = []) :
    (s.stage g t).mem.noPoison = true ∧ (s.stage g t).mem.upset = [] := by
  have hpoison := (stage_fields g t (Memory.noPoison_poison hp)).2.2.2
  have hlost : (s.stage g t).mem.lost = s.mem.lost ∧ (s.stage g t).mem.upset = s.mem.upset := by
    unfold State.stage
    split <;> exact ⟨rfl, rfl⟩
  simp only [Memory.noPoison, Bool.and_eq_true] at hp ⊢
  rw [hpoison, hlost.1, hlost.2]
  exact ⟨⟨rfl, hp.2⟩, hu⟩

/-! ### Chunks (R101, R102, R109) -/

/-- The next chunk is the lowest unconsumed one whose pip is up. -/
theorem nextChunk_spec {s : State} {i c : Nat} (h : s.nextChunk i = some c) :
    let t := (s.engine .tbl i).tblHead
    let run := (s.engine .tbl i).head.run
    c < t.pipCount ∧ c ∉ run.chunks ∧ s.pipUp (engineSuit .tbl i) (t.pipBase + c) = true ∧
    ∀ d, d < c → d ∈ run.chunks ∨ s.pipUp (engineSuit .tbl i) (t.pipBase + d) = false := by
  intro t run
  obtain ⟨hc, hlt, hlower⟩ := List.find?_range_eq_some.mp h
  simp only [Bool.and_eq_true, Bool.not_eq_true', List.contains_eq_mem, decide_eq_false_iff_not] at hc
  refine ⟨List.mem_range.mp hlt, hc.1, hc.2, fun d hd => ?_⟩
  have hnot := hlower d hd
  simp only [Bool.not_eq_true', Bool.and_eq_false_iff, Bool.not_eq_false', List.contains_eq_mem, decide_eq_true_eq] at hnot
  exact hnot

section Running

variable {s : State} {i : Fin 64}

/-- What a Tableau's commands find while it runs on sound memory in an enabled duty slot. -/
structure State.TblRuns (s : State) (i : Fin 64) : Prop where
  serves : s.serves = true
  phase : (s.engine .tbl i).head.phase = .running
  slot : s.pwr.slotOn = true
  poison : s.mem.noPoison = true
  upset : s.mem.upset = []
  fenced : s.anyFenced = false
  waits : s.tblWaits i = false

/-- A consumed chunk's memory staged, its first effect stamped, and its work counted. -/
def State.chunked (s : State) (i n : Nat) : State :=
  ((s.stage i (s.engine .tbl i).tblHead).onHead .tbl i (Head.stamped s.stamp)).macs i (s.engine .tbl i).tblHead n

/-- A chunk is consumed, or a term that an exponent summary did not foresee ends the descriptor. -/
theorem chunkConsume_answers (h : s.TblRuns i) {c : Nat} (hm : (s.engine .tbl i).tblHead.pipMode = 2) (hc : s.nextChunk i = some c) :
    ∃ (n : Nat) (sums : List ASum) (fl : Bool), Answers (exec (.chunkConsume i) s)
      (if ((s.engine .tbl i).tblHead.needSumA || (s.engine .tbl i).tblHead.needSumB) && sums.any (fun x => x.ax) then
        ((s.chunked i n).engErr .tbl i 4).finish .tbl i stSummary
      else (s.chunked i n).onHead .tbl i (fun h => { h with
        flags := h.flags.or { flushed := fl }, run := { h.run with sums, chunks := h.run.chunks ++ [c] } })) := by
  unfold Answers
  rw [exec_chunkConsume, execChunkConsume, inService_next h.serves]
  simp only [hc, h.phase, hm, h.slot, h.waits, settleAll_calm _ h.upset, readsPoison_clean _ h.poison h.fenced]
  exact ⟨_, _, _, rfl⟩

theorem chunked_onSco (s : State) (i : Fin 64) (n : Nat) :
    ∃ f, s.chunked i n = ((s.stage i (s.engine .tbl i).tblHead).onHead .tbl i (Head.stamped s.stamp)).onSco f := macs_onSco ..

/-- Consuming a chunk stamps the head and stages memory, and leaves pips and cores. -/
theorem chunked_fields (s : State) (i : Fin 64) (n : Nat) :
    (s.chunked i n).engine .tbl i = { s.engine .tbl i with head := (s.engine .tbl i).head.stamped s.stamp } ∧
    (s.chunked i n).hbm = s.hbm ∧ (s.chunked i n).mem = (s.stage i (s.engine .tbl i).tblHead).mem ∧ (s.chunked i n).cores = s.cores := by
  obtain ⟨f, hf⟩ := chunked_onSco s i n
  obtain ⟨g, hg⟩ := stage_onMem i (s.engine .tbl i).tblHead s
  rw [hf, hg]
  exact ⟨State.onEngine_engine .tbl i _ _ i.isLt, rfl, rfl, rfl⟩

/-- The end that a summary brings is the same, but for the counts, with the chunk's work counted or not. -/
theorem chunked_summary (h : s.TblRuns i) (n : Nat) : (((s.chunked i n).engErr .tbl i 4).finish .tbl i 0x10).uncounted =
    ((((s.stage i (s.engine .tbl i).tblHead).onHead .tbl i (Head.stamped s.stamp)).engErr .tbl i 4).finish .tbl i 0x10).uncounted := by
  obtain ⟨f, hf⟩ := chunked_onSco s i n
  obtain ⟨hpoison, hupset⟩ := stage_clean i (s.engine .tbl i).tblHead h.poison h.upset
  rw [hf, engErr_onSco]
  generalize hy : (s.stage i (s.engine .tbl i).tblHead).onHead .tbl i (Head.stamped s.stamp) = y
  have hmem : (y.engErr .tbl i 4).mem = (s.stage i (s.engine .tbl i).tblHead).mem := by
    rw [(State.engErr_logs .tbl i 4 y).fields.2.1, ← hy]
    rfl
  exact finish_onSco f _ .tbl i 0x10 (hmem ▸ hpoison) (hmem ▸ hupset)

theorem chunkConsume_completes (h : s.TblRuns i) {c : Nat} (hm : (s.engine .tbl i).tblHead.pipMode = 2) (hc : s.nextChunk i = some c) :
    Completes (.chunkConsume i) s (fun u =>
      ((u.engine .tbl i).head.run.chunks = (s.engine .tbl i).head.run.chunks ++ [c] ∧
        (u.engine .tbl i).head.start = some ((s.engine .tbl i).head.start.getD s.stamp) ∧
        u.hbm.pips = s.hbm.pips ∧ u.mem = (s.stage i (s.engine .tbl i).tblHead).mem ∧ u.cores = s.cores) ∨
      (((s.engine .tbl i).tblHead.needSumA || (s.engine .tbl i).tblHead.needSumB) = true ∧ u.uncounted =
        ((((s.stage i (s.engine .tbl i).tblHead).onHead .tbl i (Head.stamped s.stamp)).engErr .tbl i 4).finish .tbl i 0x10).uncounted)) := by
  obtain ⟨n, sums, fl, hanswers⟩ := chunkConsume_answers h hm hc
  refine ⟨_, hanswers, ?_⟩
  split
  · rename_i hsum
    exact .inr ⟨(Bool.and_eq_true _ _ ▸ hsum).1, chunked_summary h n⟩
  · obtain ⟨hengine, hhbm, hmem, hcores⟩ := chunked_fields s i n
    refine .inl ⟨?_, ?_, congrArg MemUnit.pips hhbm, hmem, hcores⟩
    · rw [State.onHead, State.onEngine_engine _ _ _ _ i.isLt, hengine]
      rfl
    · rw [State.onHead, State.onEngine_engine _ _ _ _ i.isLt, hengine]
      rfl

end Running

/-! ### Tiles (R97, R104, R127) -/

/-- Row `r` of the next tile of a Tableau whose head is `e`, over state `z`. -/
def State.tileRow (z : State) (e : Engine) (r : Nat) : List TblCell :=
  let t := e.tblHead
  let tl := t.tileAt e.head.run.tiles
  (List.range tl.2.2).map (fun q =>
    z.tblCell e.head.snap e.headFlush t (z.rowA e.head.snap e.headFlush t (tl.1.1 + r)) (z.colB e.head.snap e.headFlush t (tl.2.1 + q))
      (if t.pipMode = 2 then some (e.head.run.sums.getD ((tl.1.1 + r) * t.n + (tl.2.1 + q)) {}) else none) (tl.1.1 + r) (tl.2.1 + q))

/-- What row `r` of the next tile writes. -/
def State.tileOut (z : State) (key : BitVec 128) (e : Engine) (r : Nat) : List Byte × List Byte × AFlags :=
  let tl := e.tblHead.tileAt e.head.run.tiles
  rowOutput e.tblHead key e.headFlush (tl.1.1 + r) tl.2.1 ((z.tileRow e r).map (fun c => c.v))

/-- The output stage at one row: its bytes, and its flags beside the head's. -/
def State.tileWrite (z : State) (i : Nat) (e : Engine) (y : State) (r : Nat) : State :=
  let tl := e.tblHead.tileAt e.head.run.tiles
  (y.writeRow e.tblHead (tl.1.1 + r) tl.2.1 (z.tileOut y.eng.key e r)).onHead .tbl i (fun h =>
    { h with flags := h.flags.or ((z.tileOut y.eng.key e r).2.2.or (AFlags.all ((z.tileRow e r).map (fun c => c.fl)))) })

theorem zip_map_self {α β : Type} (g : α → β) (l : List α) : List.zip l (l.map g) = l.map (fun x => (x, g x)) := by
  simpa using List.zip_map' (f := id) (g := g) (l := l)

section Macs

variable (i : Nat) (t : TblDesc) (n : Nat) (z : State)

theorem rowA_macs : (z.macs i t n).rowA = z.rowA := by
  obtain ⟨f, hf⟩ := macs_onSco i t n z
  rw [hf, rowA_onSco]

theorem colB_macs : (z.macs i t n).colB = z.colB := by
  obtain ⟨f, hf⟩ := macs_onSco i t n z
  rw [hf, colB_onSco]

theorem tblCell_macs : (z.macs i t n).tblCell = z.tblCell := by
  obtain ⟨f, hf⟩ := macs_onSco i t n z
  rw [hf, tblCell_onSco]

end Macs

section Tile

variable {s : State} {i : Fin 64}

/-- The next tile's rows are written in order. -/
theorem tblTileOutput_answers (h : s.TblRuns i) (hc : (s.engine .tbl i).tblHead.pipMode = 2 →
      (s.engine .tbl i).tblHead.pipCount ≤ (s.engine .tbl i).head.run.chunks.length)
    (ht : (s.engine .tbl i).head.run.tiles < (s.engine .tbl i).tblHead.tiles) :
    let e := s.engine .tbl i
    let z := s.stage i e.tblHead
    ∃ (n : Nat) (sums : List ASum), Answers (exec (.tblTileOutput i) s)
      (((List.range (e.tblHead.tileAt e.head.run.tiles).1.2).foldl (z.tileWrite i e) (z.macs i e.tblHead n)).onHead .tbl i (fun h =>
        { h with run := { h.run with tiles := h.run.tiles + 1, sums } })) := by
  have hready : ¬ ((s.engine .tbl i).head.phase ≠ .running ∨ (!s.pwr.slotOn) = true ∨ s.tblWaits i = true ∨
      (s.engine .tbl i).head.run.tiles ≥ (s.engine .tbl i).tblHead.tiles ∨
      ((s.engine .tbl i).tblHead.pipMode = 2 ∧ (s.engine .tbl i).head.run.chunks.length < (s.engine .tbl i).tblHead.pipCount)) := by
    simp only [h.phase, h.slot, h.waits, not_or, not_and, Nat.not_lt]
    exact ⟨fun hp => hp rfl, Bool.false_ne_true, Bool.false_ne_true, Nat.not_le_of_lt ht, hc⟩
  unfold Answers
  rw [exec_tblTileOutput, execTblTileOutput, inService_next h.serves]
  simp only [if_neg hready, tblCell_macs, rowA_macs, colB_macs, upTo, zip_map_self, List.map_map, List.foldl_map]
  exact ⟨_, _, rfl⟩

end Tile

/-! ### What the output stage leaves alone -/

theorem State.writeMem_layout (a : Nat) (bs : List Byte) (s : State) : (s.writeMem a bs).layout = s.layout := by
  have hdrop (u : State) : (u.pdcDrop a bs.length).layout = u.layout := by
    unfold State.pdcDrop
    split <;> exact State.layout_congr rfl rfl
  unfold State.writeMem
  rw [hdrop, State.onMem_layout, State.freshLines_layout]

theorem State.writeRow_storesTo (t : TblDesc) (i j0 : Nat) (out : List Byte × List Byte × AFlags) (s : State) :
    s.StoresTo (s.writeRow t i j0 out) := by
  unfold State.writeRow
  dsimp only
  split
  · exact (State.writeMem_storesTo ..).trans (State.writeMem_storesTo ..)
  · exact State.writeMem_storesTo ..

/-- States of one memory and layout; the output stage of engine `i` writes the same in both. -/
structure State.TileAs (i : Nat) (u v : State) : Prop where
  mem : u.mem = v.mem
  layout : u.layout = v.layout
  cores : u.cores = v.cores
  key : u.eng.key = v.eng.key
  fifo : (u.engine .tbl i).fifo = (v.engine .tbl i).fifo
  run : (u.engine .tbl i).head.run = (v.engine .tbl i).head.run

/-- A row is written the same, flags of the head beside it or not. -/
theorem State.TileAs.writeRow {i : Nat} {u v : State} (h : u.TileAs i v) (t : TblDesc) (r j0 : Nat) (out : List Byte × List Byte × AFlags)
    (fl : AFlags) : ((u.writeRow t r j0 out).onHead .tbl i (fun h => { h with flags := h.flags.or fl })).TileAs i (v.writeRow t r j0 out) := by
  obtain ⟨hu, hucores, -⟩ := (u.writeRow_storesTo t r j0 out).fields
  obtain ⟨hv, hvcores, -⟩ := (v.writeRow_storesTo t r j0 out).fields
  have hrow : (u.writeRow t r j0 out).mem = (v.writeRow t r j0 out).mem ∧ (u.writeRow t r j0 out).layout = (v.writeRow t r j0 out).layout := by
    have hfirst (a : Nat) (bs : List Byte) : (u.writeMem a bs).mem = (v.writeMem a bs).mem ∧ (u.writeMem a bs).layout = (v.writeMem a bs).layout :=
      ⟨State.writeMem_mem_congr h.mem h.layout a bs, by rw [State.writeMem_layout, State.writeMem_layout, h.layout]⟩
    unfold State.writeRow
    dsimp only
    split
    · exact ⟨State.writeMem_mem_congr (hfirst _ _).1 (hfirst _ _).2 _ _, by simp only [State.writeMem_layout, h.layout]⟩
    · exact hfirst _ _
  have hsame {α : Type} (g : Engine → α) (hg : ∀ e : Engine, g { e with head := { e.head with flags := e.head.flags.or fl } } = g e)
      (huv : g (u.engine .tbl i) = g (v.engine .tbl i)) :
      g (((u.writeRow t r j0 out).onHead .tbl i (fun h => { h with flags := h.flags.or fl })).engine .tbl i) = g ((v.writeRow t r j0 out).engine .tbl i) := by
    rw [State.onHead, State.onEngine_engine_same g hg, State.engine_congr hu, State.engine_congr hv, huv]
  exact ⟨hrow.1, hrow.2, hucores.trans (h.cores.trans hvcores.symm), (congrArg Engines.key hu).trans (h.key.trans (congrArg Engines.key hv).symm),
    hsame Engine.fifo (fun _ => rfl) h.fifo, hsame (fun e => e.head.run) (fun _ => rfl) h.run⟩

/-- Every row of a tile is written as its rule gives it. -/
theorem tileWrite_rows {i : Nat} {e : Engine} {z u : State} (h : u.TileAs i z) (rows : List Nat) :
    let t := e.tblHead
    let tl := t.tileAt e.head.run.tiles
    let v := rows.foldl (fun y r => y.writeRow t (tl.1.1 + r) tl.2.1 (z.tileOut z.eng.key e r)) z
    (rows.foldl (z.tileWrite i e) u).TileAs i v ∧ v.eng = z.eng ∧ v.cores = z.cores := by
  intro t tl v
  refine ⟨(List.foldl_rel (r := fun u v : State => u.TileAs i v ∧ v.eng.key = z.eng.key) ⟨h, rfl⟩ (fun r _ u v ⟨huv, hv⟩ => ?_)).1, ?_⟩
  · have hkey : u.eng.key = z.eng.key := huv.key.trans hv
    refine ⟨?_, ?_⟩
    · unfold State.tileWrite
      rw [hkey]
      exact huv.writeRow ..
    · rw [(State.writeRow_storesTo ..).fields.1, hv]
  · have hstores : z.StoresTo v :=
      foldl_keeps (fun v => z.StoresTo v) _ rows z (State.StoresTo.refl z) (fun v r hv => hv.trans (State.writeRow_storesTo ..))
    exact ⟨hstores.fields.1, hstores.fields.2.1⟩

theorem tblTileOutput_completes {s : State} {i : Fin 64} (h : s.TblRuns i) (hc : (s.engine .tbl i).tblHead.pipMode = 2 →
      (s.engine .tbl i).tblHead.pipCount ≤ (s.engine .tbl i).head.run.chunks.length)
    (ht : (s.engine .tbl i).head.run.tiles < (s.engine .tbl i).tblHead.tiles) :
    let e := s.engine .tbl i
    let t := e.tblHead
    let z := s.stage i t
    let tl := t.tileAt e.head.run.tiles
    Completes (.tblTileOutput i) s (fun u =>
      u.mem = ((List.range tl.1.2).foldl (fun y r => y.writeRow t (tl.1.1 + r) tl.2.1 (z.tileOut s.eng.key e r)) z).mem ∧
      (u.engine .tbl i).head.run.tiles = e.head.run.tiles + 1 ∧ (u.engine .tbl i).fifo = e.fifo ∧ u.cores = s.cores) := by
  intro e t z tl
  obtain ⟨n, sums, hanswers⟩ := tblTileOutput_answers h hc ht
  obtain ⟨heng, -, hcores, -⟩ := stage_fields (s := s) i t (Memory.noPoison_poison h.poison)
  have hstart : (z.macs i t n).TileAs i z := by
    obtain ⟨f, hf⟩ := macs_onSco i t n z
    rw [hf]
    exact ⟨rfl, layout_onSco f z, rfl, rfl, rfl, rfl⟩
  obtain ⟨hrows, hveng, hvcores⟩ := tileWrite_rows (e := e) hstart (List.range tl.1.2)
  have hengine := congrFun (congrFun (State.engine_congr (hveng.trans heng)) .tbl) i
  have hrun := hrows.run.trans (congrArg (fun e => e.head.run) hengine)
  have hfifo := hrows.fifo.trans (congrArg Engine.fifo hengine)
  refine ⟨_, hanswers, ?_, ?_, ?_, ?_⟩
  · rw [← congrArg Engines.key heng]
    exact hrows.mem
  · rw [State.onHead, State.onEngine_engine _ _ _ _ i.isLt]
    exact congrArg (fun r : EngRun => r.tiles + 1) hrun
  · rw [State.onHead, State.onEngine_engine _ _ _ _ i.isLt]
    exact hfifo
  · exact hrows.cores.trans (hvcores.trans hcores)

/-! ### Commit (R107-R109, R112) -/

section Commit

variable {s : State} {i : Fin 64} (h : s.TblRuns i) (ht : (s.engine .tbl i).tblHead.tiles ≤ (s.engine .tbl i).head.run.tiles)
include h ht

/-- A full ring holds the trailer and the completion. -/
theorem tblCommit_full (hfull : (s.engine .tbl i).cq.full = true) :
    Answers (exec (.tblCommit i) s) (s.onHead .tbl i (fun h => { h with held := true })) :=
  (exec_tblCommit i s).trans ((inService_next h.serves _).trans (congrArg _ (if_pos ⟨h.phase, ht, hfull⟩)))

/-- A ring with space takes the completion, after the trailer of a sealed write. -/
theorem tblCommit_space (hfull : (s.engine .tbl i).cq.full = false) :
    let t := (s.engine .tbl i).tblHead
    Answers (exec (.tblCommit i) s)
      ((if t.sealed then s.writeMem (t.d + t.m * t.ldd) (s.sealTrailer (t.m * t.ldd) t.outId) else s).finish .tbl i 0) := by
  intro t
  refine (exec_tblCommit i s).trans ((inService_next h.serves _).trans (congrArg _ ?_))
  refine (if_neg (fun hc => Bool.false_ne_true (hfull.symm.trans hc.2.2))).trans (if_pos ⟨h.phase, ht, ?_⟩)
  rw [h.waits]
  rfl

end Commit

/-! ### The obligation -/

/-- Settles O26: a chunk is the lowest whose pip is up, a tile's rows are written one by one, and a commit goes by the room in the ring. -/
theorem tableauConsumesChunksAndWritesTiles : Obligations.TableauConsumesChunksAndWritesTiles := by
  unfold Obligations.TableauConsumesChunksAndWritesTiles
  intro s i hs hp hon hpoison hupset hfence hwaits
  have h : s.TblRuns i := ⟨hs, hp, hon, hpoison, hupset, hfence, hwaits⟩
  refine ⟨fun c hm hc => ?_, fun hc ht => tblTileOutput_completes h hc ht, tblCommit_full h, tblCommit_space h⟩
  obtain ⟨hlt, hnew, hup, hlower⟩ := nextChunk_spec hc
  exact ⟨hlt, hnew, hup, hlower, chunkConsume_completes h hm hc⟩

end Sys2Proof.Machine
end

section
/-!
SUPPORT. Memory-side operations: a request that leaves the windows for the on-die stores (R235, R237, R250, R475).
-/
namespace Sys2Proof.Machine

open Sys2Proof

/-! ### Addresses that no store holds (R475) -/

/-- No store holds the addresses between Suit buffer 0 and Suit buffer 1, whatever the state. -/
theorem State.storeOf_between_suits (t : State) {a : Nat} (hlo : 0x0100_0180_0000 ≤ a) (hhi : a < 0x0100_0200_0000) : t.storeOf a = none := by
  have hoff : (a - 0x0100_0000_0000) / 0x0200_0000 = 0 := by omega
  have hpast : ¬ ((a - 0x0100_0000_0000) % 0x0200_0000 < 0x0180_0000) := by omega
  rw [State.storeOf, if_neg (by omega), if_pos (by omega), storeAt]
  simp only [hoff, hpast, and_false, if_false]

/-- What no store holds reads as 0. -/
theorem State.wordAt_of_no_store {t : State} {a n : Nat} (h : ∀ i, i < n → t.storeOf (a + i) = none) : t.wordAt a n = 0 := by
  have hbytes : t.readMem a n = List.replicate n 0 := by
    refine List.eq_replicate_iff.mpr ⟨t.readMem_length a n, fun b hb => ?_⟩
    obtain ⟨i, hi, rfl⟩ := List.mem_map.mp hb
    rw [State.byteAt, h i (List.mem_range.mp hi)]
  have hzero : ∀ n : Nat, leNat (List.replicate n 0) = 0 := by
    intro n
    induction n with
    | zero => rfl
    | succ n ih =>
      rw [List.replicate_succ, leNat, ih]
      rfl
  rw [State.wordAt, hbytes, hzero]

/-! ### The counterexample -/

/-- A package in service whose WIN_SPLIT is 2047. The package-wide window of R237 then holds 1024 · 2047 MiB and ends beyond 2^40, where the
on-die stores begin (R475). R235 bounds WIN_SPLIT by L, which is at most 1024 MiB, and the model refuses a write above it; the statement is of
every state and asks for no such bound. -/
def splitPastDies : State :=
  { State.reset with
    boot := { Boot.reset with supply := true, pwrOk := true, rstN := true, stage := 9, ready := true }
    hbm := { MemUnit.reset with winSplit := 2047 } }

/-- A SWAP of INT64 words of ones: the first is the last word below 2^40, the last is the first beyond Suit buffer 0. -/
def swapPastSuit : MsReq where
  code := 0x10
  fmt := 0x12
  target := 0x00FF_FFFF_FFF8
  count := 0x0030_0002
  fetch := false
  payload := List.replicate 0x0180_0010 1
  flush := false

/-- The request's first word stands in HBM, below the addresses of the on-die stores. -/
theorem splitPastDies_keyOf_lt : ∀ i : Fin 8, splitPastDies.keyOf (0x00FF_FFFF_FFF8 + i) < 0x0100_0000_0000 := by decide +kernel

/-- The bytes of the request lie in the windows and stand at as many places: eight in one granule of HBM, the others at their addresses. -/
theorem splitPastDies_cleanHbm : splitPastDies.cleanHbm 0x00FF_FFFF_FFF8 0x0180_0010 := by
  refine ⟨by decide +kernel, by decide +kernel, by decide +kernel, by decide +kernel, rfl, fun i j hi hj hij => ?_⟩
  have hkey (k : Nat) : (k < 8 ∧ splitPastDies.keyOf (0x00FF_FFFF_FFF8 + k) < 0x0100_0000_0000) ∨
      (8 ≤ k ∧ splitPastDies.keyOf (0x00FF_FFFF_FFF8 + k) = 0x00FF_FFFF_FFF8 + k) :=
    (Nat.lt_or_ge k 8).imp (fun hk => ⟨hk, splitPastDies_keyOf_lt ⟨k, hk⟩⟩) (fun hk => ⟨hk, if_neg (by omega)⟩)
  by_cases hnear : i < 8 ∧ j < 8
  · exact splitPastDies.keyOf_inj_near (by omega) (by omega) hij
  · have hkeyi := hkey i
    have hkeyj := hkey j
    omega

/-- Every source of the request is a word of ones. -/
theorem swapPastSuit_source {e : Nat} (he : e < 0x0030_0002) :
    (List.range 8).map (fun k => payloadByte swapPastSuit.payload (e * 8 + k)) = List.replicate 8 1 := by
  refine List.eq_replicate_iff.mpr ⟨by rw [List.length_map, List.length_range], fun b hb => ?_⟩
  obtain ⟨k, hk, rfl⟩ := List.mem_map.mp hb
  have hk8 := List.mem_range.mp hk
  have hlt : e * 8 + k < 0x0180_0010 := by omega
  rw [payloadByte, List.getD_eq_getElem?_getD, swapPastSuit, List.getElem?_replicate, if_pos hlt, Option.getD_some]

theorem swap_mem_plainRows {f : Fmt} {flush : Bool} : (Instr.swap, 0x10, fun _ src => src) ∈ plainRows f flush :=
  List.mem_of_getElem? (i := 8) rfl

/-! ### The obligation -/

/-- Refutes O33: the statement does not keep WIN_SPLIT within L (R235), so the windows may reach past 2^40. There a SWAP writes its last word
between two Suit buffers, where no store holds it, and the word reads 0 instead of its source. -/
theorem not_memorySideOperationsApplyOrRejectWhole : ¬ Obligations.MemorySideOperationsApplyOrRejectWhole := by
  unfold Obligations.MemorySideOperationsApplyOrRejectWhole
  rintro ⟨hplain, -⟩
  obtain ⟨hrows, -⟩ := hplain splitPastDies swapPastSuit .int64 (by decide +kernel) (by decide +kernel) rfl (by decide +kernel) rfl
    splitPastDies_cleanHbm
  obtain ⟨-, -, hwords, -⟩ := hrows (.swap, 0x10, fun _ src => src) swap_mem_plainRows rfl
  have haddr : swapPastSuit.target.toNat + 0x0030_0001 * (Fmt.int64.bits / 8) = 0x0100_0180_0000 := by decide +kernel
  have hread := (haddr ▸ hwords 0x0030_0001 (by decide)).trans (congrArg leNat (swapPastSuit_source (by decide)))
  have hhole : (splitPastDies.applyMs swapPastSuit).1.wordAt 0x0100_0180_0000 8 = 0 :=
    State.wordAt_of_no_store (fun i hi => State.storeOf_between_suits _ (by omega) (by omega))
  exact absurd (hhole.symm.trans hread) (by decide)

end Sys2Proof.Machine
end

section
/-!
SUPPORT. An Atomizer's tile invocations and commit (R132, R133, R138, R149, R150, R157).
-/
namespace Sys2Proof.Machine

open Sys2Proof

/-! ### What the work of a tile leaves alone -/

/-- The place of the next invocation: its tile, phase and group (R138). -/
def EngRun.place (r : EngRun) : Nat × Nat × Nat := (r.tile, r.phase, r.group)

/-- The work of a tile goes on: the tile registers, the cores, the FIFO of Atomizer `i`, and the phase and place of its head stay. -/
structure State.TileGoesOn (i : Nat) (s t : State) : Prop where
  cores : t.cores = s.cores
  regs : t.eng.tileRegs = s.eng.tileRegs
  fifo : (t.engine .atm i).fifo = (s.engine .atm i).fifo
  phase : (t.engine .atm i).head.phase = (s.engine .atm i).head.phase
  place : (t.engine .atm i).head.run.place = (s.engine .atm i).head.run.place

namespace State.TileGoesOn

variable {i : Nat} {s t u : State}

theorem refl (s : State) : s.TileGoesOn i s := ⟨rfl, rfl, rfl, rfl, rfl⟩

theorem trans (h : s.TileGoesOn i t) (h' : t.TileGoesOn i u) : s.TileGoesOn i u :=
  ⟨h'.cores.trans h.cores, h'.regs.trans h.regs, h'.fifo.trans h.fifo, h'.phase.trans h.phase, h'.place.trans h.place⟩

/-- Steps that each let the work go on let it go on together. -/
theorem foldl {α : Type} (f : State → α → State) (hf : ∀ (t : State) a, t.TileGoesOn i (f t a)) (l : List α) (s : State) :
    s.TileGoesOn i (l.foldl f s) :=
  foldl_keeps (s.TileGoesOn i) f l s (refl s) (fun t a h => h.trans (hf t a))

/-- A store changes no engine and no core. -/
theorem of_storesTo (h : s.StoresTo t) : s.TileGoesOn i t := by
  obtain ⟨heng, hcores, -⟩ := h.fields
  have hengine := congrFun (congrFun (State.engine_congr heng) .atm) i
  exact ⟨hcores, congrArg Engines.tileRegs heng, congrArg Engine.fifo hengine, congrArg (fun e => e.head.phase) hengine,
    congrArg (fun e => e.head.run.place) hengine⟩

/-- A change of the head that keeps its phase and place. -/
theorem onHead {f : Head → Head} (hf : ∀ h, (f h).phase = h.phase ∧ (f h).run.place = h.run.place) :
    s.TileGoesOn i (s.onHead .atm i f) where
  cores := rfl
  regs := rfl
  fifo := State.onEngine_engine_same (f := fun e => { e with head := f e.head }) Engine.fifo (fun _ => rfl) ..
  phase := State.onEngine_engine_same (fun e => e.head.phase) (fun e => (hf e.head).1) ..
  place := State.onEngine_engine_same (fun e => e.head.run.place) (fun e => (hf e.head).2) ..

end State.TileGoesOn

section Work

variable (i : Nat) (d : AtmDesc) (s : State)

theorem atmFlags_goesOn (fl : AFlags) : s.TileGoesOn i (s.atmFlags i fl) := .onHead (fun _ => ⟨rfl, rfl⟩)

theorem atmWrite_storesTo (k i0 rho n0 row : Nat) (flush : Bool) (rnd : Nat → Rnd) (vs : List FVal) :
    s.StoresTo (s.atmWrite d k i0 rho n0 row flush rnd vs).1 := by
  unfold State.atmWrite
  dsimp only
  split <;> dsimp only <;> split
  · exact (State.writeMem_storesTo ..).trans (State.writeMem_storesTo ..)
  · exact .refl s
  · exact State.writeMem_storesTo ..
  · exact .refl s

/-- Values are written, and their flags join the head's. -/
theorem atmWrite_goesOn (k i0 rho n0 row : Nat) (flush : Bool) (rnd : Nat → Rnd) (vs : List FVal) (fl : AFlags) :
    s.TileGoesOn i ((s.atmWrite d k i0 rho n0 row flush rnd vs).1.atmFlags i fl) :=
  (State.TileGoesOn.of_storesTo (atmWrite_storesTo ..)).trans (atmFlags_goesOn ..)

theorem atmStores_goesOn (ops : List (Nat × MicroOp)) (lanes : List Lane) (t0 i1 i2 i3 i4 : Nat) :
    s.TileGoesOn i (s.atmStores i d ops lanes t0 i1 i2 i3 i4) :=
  .foldl _ (fun t _ => atmWrite_goesOn i d t ..) _ s

theorem softmaxRow_goesOn (i1 i2 i3 i4 : Nat) : s.TileGoesOn i (s.softmaxRow i d i1 i2 i3 i4) := by
  unfold State.softmaxRow
  extract_lets e flush xs mask r t u ps
  have hempty : s.TileGoesOn i t := .onHead (fun _ => ⟨rfl, rfl⟩)
  exact (hempty.trans (atmFlags_goesOn i t _)).trans (.foldl _ (fun v _ => atmWrite_goesOn i d v ..) _ u)

/-- The results of a slot, integers one by one and others a piece at a time. -/
theorem atmResults_goesOn (slot t1 i2 i3 i4 : Nat) : s.TileGoesOn i (s.atmResults i d slot t1 i2 i3 i4) := by
  unfold State.atmResults
  extract_lets e flush st cs f64 lines outs empty t u keep rowOf rhoOf n0 group
  have hempty : s.TileGoesOn i t := .onHead (fun _ => ⟨rfl, rfl⟩)
  have hkeep (l : Nat) (v : FVal) (w : State) : w.TileGoesOn i (keep l v w) := .onHead (fun _ => ⟨rfl, rfl⟩)
  refine (hempty.trans (atmFlags_goesOn i t _)).trans (.foldl _ (fun w os => ?_) _ u)
  extract_lets l0 i0 isInt r x
  split
  · refine .foldl _ (fun y o => ?_) _ w
    dsimp only
    split
    · exact (State.TileGoesOn.of_storesTo (State.writeMem_storesTo ..)).trans (hkeep ..)
    · exact hkeep ..
  · exact (atmWrite_goesOn i d w ..).trans (.foldl _ (fun y lv => hkeep ..) _ x)

end Work

/-! ### A tile invocation (R132, R133, R138) -/

/-- The lanes of the next tile of a program, row by row. -/
def State.tileLanes (s : State) (i : Nat) : List Lane :=
  let e := s.engine .atm i
  let t := e.atmHead.tileAt e.head.run.group e.head.run.tile
  ((List.range 8).map (fun q =>
    s.atmLanes i e.atmHead e.atmProgram (e.atmProgram.phase e.head.run.phase) t.1 (8 * t.2.1 + q) t.2.2.1 t.2.2.2.1 t.2.2.2.2)).flatten

/-- A state with other tile registers of Atomizer `i`. -/
def State.withTileRegs (s : State) (i : Nat) (regs : List (BitVec 32)) : State :=
  s.onEng (fun x => { x with tileRegs := vput x.tileRegs i regs })

/-- The head of Atomizer `i` at the place that follows an invocation by engine `e`. -/
def State.atmAdvance (s : State) (i : Nat) (e : Engine) : State :=
  s.onHead .atm i (fun h => { h with run := h.run.atmNext e.atmHead (atmPhases e.atmHead e.atmProgram) })

/-- A SOFTMAX works over cleared registers, and over a row at a time at the end of its line. -/
theorem atmInvoke_softmax {s : State} {i : Nat} (hop : (s.engine .atm i).atmHead.op = 2) :
    ∃ u, (s.withTileRegs i []).TileGoesOn i u ∧ s.atmInvoke i = u.atmAdvance i (s.engine .atm i) := by
  refine ⟨_, ?_, congrArg (fun u => State.atmAdvance u i (s.engine .atm i)) (if_pos hop)⟩
  split
  · exact .refl _
  · exact .foldl _ (fun v i1 => softmaxRow_goesOn i _ v ..) _ _

/-- A program leaves the registers of its lanes; its stores and reductions change of the run no more than what it has gathered. -/
theorem atmInvoke_program {s : State} {i : Nat} (hop : (s.engine .atm i).atmHead.op ≠ 2) :
    ∃ u, (s.withTileRegs i (tileRegsOf (s.tileLanes i))).TileGoesOn i u ∧ s.atmInvoke i = u.atmAdvance i (s.engine .atm i) := by
  refine ⟨_, ?_, congrArg (fun u => State.atmAdvance u i (s.engine .atm i)) (if_neg hop)⟩
  extract_lets ops rows lanes s1 s2 s3 s4 cs s5
  have hlanes : lanes = s.tileLanes i := congrArg List.flatten List.map_map
  have h2 : (s.withTileRegs i (tileRegsOf (s.tileLanes i))).TileGoesOn i s2 := by
    rw [← hlanes]
    exact ⟨rfl, rfl, rfl, rfl, rfl⟩
  have h4 : s3.TileGoesOn i s4 := .foldl _ (fun t r => by
    split
    · exact atmStores_goesOn ..
    · exact .refl t) rows s3
  have h5 : s4.TileGoesOn i s5 := .onHead (fun _ => ⟨rfl, rfl⟩)
  have h := ((h2.trans (atmFlags_goesOn i s2 _)).trans h4).trans h5
  split
  · exact h
  · exact h.trans (.foldl _ (fun t r => atmResults_goesOn i _ t ..) _ s5)

/-- The engine with its next place. -/
theorem State.atmAdvance_engine (u : State) (i : Fin 64) (e : Engine) : (u.atmAdvance i e).engine .atm i = { u.engine .atm i with
    head := { (u.engine .atm i).head with
      run := (u.engine .atm i).head.run.atmNext e.atmHead (atmPhases e.atmHead e.atmProgram) } } := by
  rw [State.atmAdvance, State.onHead, State.onEngine_engine _ _ _ _ i.isLt]

/-- Whatever it works on, an invocation leaves a tile whose work has gone on, and advances the place. -/
theorem atmInvoke_advances (s : State) (i : Nat) : ∃ regs u, (s.withTileRegs i regs).TileGoesOn i u ∧
    s.atmInvoke i = u.atmAdvance i (s.engine .atm i) ∧ ((s.engine .atm i).atmHead.op ≠ 2 → regs = tileRegsOf (s.tileLanes i)) := by
  by_cases hop : (s.engine .atm i).atmHead.op = 2
  · obtain ⟨u, hu, heq⟩ := atmInvoke_softmax hop
    exact ⟨[], u, hu, heq, fun h => absurd hop h⟩
  · obtain ⟨u, hu, heq⟩ := atmInvoke_program hop
    exact ⟨_, u, hu, heq, fun _ => rfl⟩

/-- The place after an invocation: the next tile, or the first of the next phase, or the first of the next group (R138). -/
theorem EngRun.atmNext_place (d : AtmDesc) (nphase : Nat) (r : EngRun) : (r.atmNext d nphase).place =
    if r.tile + 1 < d.groupTiles then (r.tile + 1, r.phase, r.group)
    else if r.phase + 1 < nphase then (0, r.phase + 1, r.group) else (0, 0, r.group + 1) := by
  unfold EngRun.atmNext
  split
  · rfl
  · split <;> rfl

theorem EngRun.atmNext_place_congr {r r' : EngRun} (h : r.place = r'.place) (d : AtmDesc) (nphase : Nat) :
    (r.atmNext d nphase).place = (r'.atmNext d nphase).place := by
  obtain ⟨htile, hphase, hgroup⟩ : r.tile = r'.tile ∧ r.phase = r'.phase ∧ r.group = r'.group := by
    simpa only [EngRun.place, Prod.mk.injEq] using h
  simp only [EngRun.atmNext_place, htile, hphase, hgroup]

section Run

variable {s : State} {i : Fin 64} (hs : s.serves = true) (hphase : (s.engine .atm i).head.phase = .running)
include hs hphase

/-- An Atomizer with groups left invokes its next tile. -/
theorem atmTileInvocation_answers (hslot : s.pwr.slotOn = true) (hp : s.mem.noPoison = true) (hu : s.mem.upset = []) (hf : s.anyFenced = false)
    (hw : s.atmWaits i = false) (hgroup : (s.engine .atm i).head.run.group < (s.engine .atm i).atmHead.groups) :
    Answers (exec (.atmTileInvocation i) s) (s.atmInvoke i) := by
  have hready : ¬ ((s.engine .atm i).head.phase ≠ .running ∨ (!s.pwr.slotOn) = true ∨ s.atmWaits i = true ∨
      (s.engine .atm i).head.run.group ≥ (s.engine .atm i).atmHead.groups) := by
    simp only [hphase, hslot, hw, not_or, Nat.not_le]
    exact ⟨fun h => h rfl, Bool.false_ne_true, Bool.false_ne_true, hgroup⟩
  unfold Answers
  rw [exec_atmTileInvocation, execAtmTileInvocation, inService_next hs]
  simp only [if_neg hready, settleAll_calm _ hu, readsPoison_clean _ hp hf, Bool.false_eq_true, if_false]

/-- With every group done it commits. -/
theorem atmCommit_answers (hgroup : (s.engine .atm i).atmHead.groups ≤ (s.engine .atm i).head.run.group) :
    Answers (exec (.atmCommit i) s) (s.finish .atm i 0) :=
  (exec_atmCommit i s).trans ((inService_next hs _).trans (congrArg _ (if_pos ⟨hphase, hgroup⟩)))

end Run

/-! ### The obligation -/

/-- Settles O27: an invocation sets the tile registers, works on the tile, which leaves the place alone, and then advances the place. -/
theorem atomizerRunsTilesInOrder : Obligations.AtomizerRunsTilesInOrder := by
  unfold Obligations.AtomizerRunsTilesInOrder
  intro s i hs hphase hslot hp hu hf hw e d r
  refine ⟨fun hgroup => ⟨_, atmTileInvocation_answers hs hphase hslot hp hu hf hw hgroup, ?_⟩, atmCommit_answers hs hphase⟩
  obtain ⟨regs, u, hwork, hinvoke, hregs⟩ := atmInvoke_advances s i
  rw [hinvoke]
  dsimp only
  rw [State.atmAdvance_engine]
  refine ⟨?_, hwork.phase.trans hphase, hwork.fifo, hwork.cores, fun hop => ?_⟩
  · exact (EngRun.atmNext_place_congr hwork.place ..).trans (EngRun.atmNext_place ..)
  · have hset : u.eng.tileRegs[i] = regs := hwork.regs ▸ vput_same ..
    exact hset.trans (hregs hop)

end Sys2Proof.Machine
end

section
/-!
SUPPORT. A Solitaire's lane groups, factorisations, refinements and commits (R165, R166, R169 to R186).
-/
namespace Sys2Proof.Machine

open Sys2Proof

/-! ### What the assembly of a problem leaves alone -/

/-- Solitaire `i` stays as it is, and so do the cores. -/
structure State.SolStays (i : Nat) (s t : State) : Prop where
  cores : t.cores = s.cores
  engine : t.engine .sol i = s.engine .sol i

namespace State.SolStays

variable {i : Nat} {s t u : State}

theorem refl (s : State) : s.SolStays i s := ⟨rfl, rfl⟩

theorem trans (h : s.SolStays i t) (h' : t.SolStays i u) : s.SolStays i u := ⟨h'.cores.trans h.cores, h'.engine.trans h.engine⟩

/-- A store changes no engine and no core. -/
theorem of_storesTo (h : s.StoresTo t) : s.SolStays i t := by
  obtain ⟨heng, hcores, -⟩ := h.fields
  exact ⟨hcores, congrFun (congrFun (State.engine_congr heng) .sol) i⟩

end State.SolStays

section Assembly

variable (i : Nat) (s : State)

theorem State.settle_storesTo (a n : Nat) : s.StoresTo (s.settle a n) := by
  unfold State.settle
  split
  · exact .refl s
  · exact foldl_keeps (fun t => s.StoresTo t) _ _ s (.refl s) (fun t l h => h.trans (State.decodeLine_storesTo _ t))

theorem settleAll_storesTo (xs : List (Nat × Nat)) : s.StoresTo (s.settleAll xs) :=
  foldl_keeps (fun t => s.StoresTo t) _ xs s (.refl s) (fun t x h => h.trans (State.settle_storesTo t x.1 x.2))

/-- The Compounder's registers are no part of an engine's state. -/
theorem onCmp_solStays (f : Compounder → Compounder) : s.SolStays i (s.onEng (fun x => { x with cmp := vmod x.cmp i f })) := ⟨rfl, rfl⟩

theorem cmpPoison_solStays : s.SolStays i (s.cmpPoison i) :=
  (onCmp_solStays i s _).trans (.of_storesTo (State.errRecords_logs ..).storesTo)

theorem scribble_solStays (a n : Nat) : s.SolStays i (s.scribble a n) := by
  obtain ⟨hcores, hengine⟩ := State.SolStays.of_storesTo (i := i)
    (State.writeMem_storesTo a ((upTo n).map (fun j => Config.unspecByte s.freeCtr j)) s)
  exact ⟨hcores, hengine⟩

theorem solStays_ite {c : Prop} [Decidable c] {t : State} (h : s.SolStays i t) : s.SolStays i (if c then t else s) := by
  split
  · exact h
  · exact .refl s

end Assembly

/-! ### A lane group (R165, R166, R169) -/

/-- The lane of problem `p`: the formula's words over the parameters and measurements of `p`. -/
def State.laneOf (s : State) (i p : Nat) : FLane :=
  let e := s.engine .sol i
  let d := e.solHead
  let f := e.solFormula
  FLane.run ⟨f, d.kind, e.headFlush, d.param + p * d.pstride, d.meas + p * d.mstride⟩ (fun a n => leNat (s.readIn e.head.snap a n))
    (f.words.length + 1) f.words (FLane.start f.n f.h)

/-- The engine once problems have been assembled into its buffers. -/
def Engine.assembling (new : List Problem) (e : Engine) : Engine := { e with
  head := { e.head with run := { e.head.run with
    problems := e.head.run.problems ++ new, assembled := e.head.run.assembled + new.length } } }

theorem Engine.assembling_nil (e : Engine) : e.assembling [] = e := by
  simp [Engine.assembling]

theorem Engine.assembling_cons (q : Problem) (new : List Problem) (e : Engine) :
    (e.assembling [q]).assembling new = e.assembling (q :: new) := by
  simp [Engine.assembling, Nat.add_assoc, Nat.add_comm 1]

/-- A problem as its lane leaves it: not factorised, and done, with status 7, where it is out of range (R169). -/
def Problem.Fresh (q : Problem) : Prop :=
  q.factored = false ∧ (q.rangeBad = true → q.status = 7 ∧ q.done = true) ∧ (q.rangeBad = false → q.status = 0 ∧ q.done = false)

theorem problemOf_fresh (p : Nat) (x : FLane) (bad : Bool) : (problemOf p x bad).Fresh :=
  ⟨rfl, fun h : x.bad = true => ⟨if_pos h, h⟩, fun h : x.bad = false => ⟨if_neg (Bool.eq_false_iff.mp h), h⟩⟩

/-- Problem `p` is assembled from its lane, behind those in the buffers. -/
theorem assemble_engine (i : Fin 16) (p : Nat) (s : State) : (s.assemble i p).cores = s.cores ∧
    ∃ bad, (s.assemble i p).engine .sol i = (s.engine .sol i).assembling [problemOf p (s.laneOf i p) bad] := by
  unfold State.assemble
  extract_lets e d f env m x s1 bad s2 s3 s4
  have h1 : s.SolStays i s1 := .of_storesTo (settleAll_storesTo s _)
  have h2 : s1.SolStays i s2 := solStays_ite _ _ (cmpPoison_solStays i s1)
  have h3 : s2.SolStays i s3 := solStays_ite _ _ (onCmp_solStays i s2 _)
  have h4 : s3.SolStays i s4 := scribble_solStays i s3 _ _
  have h : s.SolStays i s4 := ((h1.trans h2).trans h3).trans h4
  refine ⟨h.cores, bad, ?_⟩
  rw [State.onRun, State.onHead, State.onEngine_engine _ _ _ _ i.isLt, h.engine]
  rfl

/-- Problems are assembled in the order of their indices, each fresh from its lane. -/
theorem assemble_group (i : Fin 16) : ∀ (ps : List Nat) (s : State),
    let t := ps.foldl (fun s p => s.assemble i p) s
    t.cores = s.cores ∧ ∃ new : List Problem, new.map (fun q => q.idx) = ps ∧ (∀ q ∈ new, q.Fresh) ∧
      t.engine .sol i = (s.engine .sol i).assembling new
  | [], s => ⟨rfl, [], rfl, by simp, (Engine.assembling_nil _).symm⟩
  | p :: ps, s => by
    obtain ⟨hcores, bad, hengine⟩ := assemble_engine i p s
    obtain ⟨hcores', new, hidx, hfresh, hengine'⟩ := assemble_group i ps (s.assemble i p)
    refine ⟨hcores'.trans hcores, problemOf p (s.laneOf i p) bad :: new, congrArg (p :: ·) hidx,
      List.forall_mem_cons.mpr ⟨problemOf_fresh .., hfresh⟩, ?_⟩
    rw [List.foldl_cons, hengine', hengine, Engine.assembling_cons]

/-- The indices of the problems of the next lane group: 64, or as many as are left. -/
def Engine.nextGroup (e : Engine) : List Nat :=
  (List.range (min 64 (e.solHead.nprob - e.head.run.assembled))).map (fun q => e.head.run.assembled + q)

/-- With problems left and a buffer free, the Compounder assembles the next group. -/
theorem compounderLaneGroup_answers {s : State} {i : Fin 16} (hs : s.serves = true) (hphase : (s.engine .sol i).head.phase = .running)
    (hslot : s.pwr.slotOn = true) (hw : s.solWaits i = false)
    (hleft : (s.engine .sol i).head.run.assembled < (s.engine .sol i).solHead.nprob)
    (hfree : (s.engine .sol i).head.run.problems.length < 8) :
    Answers (exec (.compounderLaneGroup i) s) ((s.engine .sol i).nextGroup.foldl (fun s p => s.assemble i p) s) := by
  have hready : ¬ ((s.engine .sol i).head.phase ≠ .running ∨ (!s.pwr.slotOn) = true ∨ s.solWaits i = true ∨
      (s.engine .sol i).head.run.assembled ≥ (s.engine .sol i).solHead.nprob ∨ (s.engine .sol i).head.run.problems.length ≥ 8) := by
    simp [hphase, hslot, hw, hleft, hfree]
  exact (exec_compounderLaneGroup i s).trans ((inService_next hs _).trans (congrArg _ (if_neg hready)))

/-! ### Factorisation and refinement (R170 to R180) -/

/-- A Solitaire that runs holds problem `p`, of index `n`, which is neither done nor poisoned, with no symbol error in memory. -/
structure State.SolWorks (s : State) (i : Fin 16) (n : BitVec 12) (p : Problem) : Prop where
  serves : s.serves = true
  phase : (s.engine .sol i).head.phase = .running
  slot : s.pwr.slotOn = true
  buffered : (s.engine .sol i).buffered n.toNat = some p
  undone : p.done = false
  sound : p.poisoned = false
  calm : s.mem.upset = []

/-- A problem's own factorisation. -/
def Engine.factoriseOwn (e : Engine) (q : Problem) : Problem := q.factorise (factEnv e.solHead e.solFormula e.headFlush q)

/-- The address of the warm slot of problem `n` (R180). -/
def Engine.warmSlot (e : Engine) (n : Nat) : Nat := e.solHead.slot + (e.solHead.warmFirst + n) * e.solHead.slotStride

section Works

variable {s : State} {i : Fin 16} {n : BitVec 12} {p : Problem} (h : s.SolWorks i n p)
include h

/-- A problem without factors gets them, from its warm slot where that holds its structure. -/
theorem solFactorise_answers (hf : p.factored = false) :
    let e := s.engine .sol i
    let size := slotBytes e.solFormula.n
    let slot := s.readIn e.head.snap (e.warmSlot n.toNat) size
    Answers (exec (.solFactorise i n) s)
      (if e.solHead.warm = false then s.onProblem i n.toNat e.factoriseOwn
      else if s.poisonedIn (e.warmSlot n.toNat) size then (s.engErr .sol i 1).onProblem i n.toNat (fun y => { y with poisoned := true })
      else if slotMatches e.solHead e.solFormula p slot then s.onProblem i n.toNat (fun y => y.useSlot e.solFormula.n slot)
      else s.onProblem i n.toNat (fun y => e.factoriseOwn { y with warmRejected := true })) := by
  intro e size slot
  have hready : ¬ ((s.engine .sol i).head.phase ≠ .running ∨ s.pwr.slotOn = false ∨ p.done = true ∨ p.factored = true ∨ p.poisoned = true) := by
    simp [h.phase, h.slot, h.undone, hf, h.sound]
  unfold Answers
  rw [exec_solFactorise, execSolFactorise, inService_next h.serves]
  simp only [h.buffered, if_neg hready, State.settle_calm _ _ _ h.calm, Bool.not_eq_true']
  rfl

/-- A problem with factors is solved and refined, and its corrections are counted. -/
theorem solRefine_answers (hf : p.factored = true) :
    let e := s.engine .sol i
    Answers (exec (.solRefine i n) s) ((s.onProblem i n.toNat (fun x => x.solve e.solHead e.solFormula e.headFlush)).pulse (.sol i) 0x0304
      (p.correctionsMade e.solHead e.solFormula e.headFlush)) := by
  intro e
  have hready : ¬ ((s.engine .sol i).head.phase ≠ .running ∨ (!s.pwr.slotOn) = true ∨ p.done = true ∨ (!p.factored) = true ∨ p.poisoned = true) := by
    simp [h.phase, h.slot, h.undone, hf, h.sound]
  unfold Answers
  rw [exec_solRefine, execSolRefine, inService_next h.serves]
  simp only [h.buffered, if_neg hready]
  rfl

end Works

/-! ### Commit (R183 to R186) -/

/-- What the commit of `p` adds to the fallbacks: one for statuses 2 to 7, but nothing where a replay writes it again (R183, R185). -/
def Problem.fallbackOf (p : Problem) (committed : Nat) : Nat :=
  if ¬ p.idx < committed ∧ 2 ≤ p.status ∧ p.status ≤ 7 then 1 else 0

theorem Problem.fallbackOf_eq (p : Problem) (committed : Nat) : p.fallbackOf committed =
    if p.idx < committed then 0 else bit01 (decide (2 ≤ p.status) && decide (p.status ≤ 7)) := by
  unfold Problem.fallbackOf
  by_cases hagain : p.idx < committed <;> simp [hagain, bit01]

/-- Solitaire `i` once problem `p` has written its outputs and left its buffer; `rest` stay. -/
def State.solCommitted (s : State) (i : Fin 16) (p : Problem) (rest : List Problem) : State :=
  let e := s.engine .sol i
  let committed := e.head.run.committed
  let fallback := p.fallbackOf committed
  ((s.commitProblem e.solHead e.solFormula p).pulse (.sol i) 0x0303 fallback).onHead .sol i (fun h => { h with
    flags := h.flags.or p.fl
    run := { h.run with
      problems := rest, committed := if p.idx < committed then h.run.committed else h.run.committed + 1
      fallbacks := h.run.fallbacks + fallback } })

/-- The first problem in the buffers commits once it is done, and the last one ends the descriptor. -/
theorem solProblemCommit_answers {s : State} {i : Fin 16} {p : Problem} {rest : List Problem} (hs : s.serves = true)
    (hphase : (s.engine .sol i).head.phase = .running) (hw : s.solWaits i = false) (hp : (s.engine .sol i).head.run.problems = p :: rest)
    (hsound : p.poisoned = false) (hdone : p.done = true) :
    Answers (exec (.solProblemCommit i) s)
      (if (s.engine .sol i).solHead.nprob ≤ p.idx + 1 then (s.solCommitted i p rest).finish .sol i 0 else s.solCommitted i p rest) := by
  have hready : ¬ ((s.engine .sol i).head.phase ≠ .running ∨ s.solWaits i = true) := by simp [hphase, hw]
  unfold Answers
  rw [exec_solProblemCommit, execSolProblemCommit, inService_next hs]
  simp only [hp, if_neg hready, hsound, hdone, ← Problem.fallbackOf_eq, decide_eq_true_eq, Bool.false_eq_true, Bool.not_true, if_false]
  rfl

/-! ### The obligations -/

/-- Settles O28: the group is a list of indices, assembled one by one, and each assembly adds one problem to the buffers. -/
theorem compounderAssemblesTheNextLaneGroup : Obligations.CompounderAssemblesTheNextLaneGroup := by
  unfold Obligations.CompounderAssemblesTheNextLaneGroup
  intro s i hs hphase hslot hw e d r n hleft hfree
  obtain ⟨hcores, new, hidx, hfresh, hengine⟩ := assemble_group i e.nextGroup s
  have hlen : new.length = n := by simpa [Engine.nextGroup] using congrArg List.length hidx
  refine ⟨_, compounderLaneGroup_answers hs hphase hslot hw hleft hfree, ?_⟩
  dsimp only
  rw [hengine]
  exact ⟨congrArg (r.assembled + ·) hlen, rfl, ⟨new, rfl, hidx, hfresh⟩, rfl, hcores⟩

/-- Settles O29: the commands on one problem by whether it has factors and where it takes them from, and the commit by whether it is the last. -/
theorem solitaireTakesEachProblemToItsStatus : Obligations.SolitaireTakesEachProblemToItsStatus := by
  unfold Obligations.SolitaireTakesEachProblemToItsStatus
  intro s i n p hs hphase hcalm hw e d f fl put cold a slot
  refine ⟨fun hbuf hundone hsound hslot => ?_, fun rest hp hsound hdone => solProblemCommit_answers hs hphase hw hp hsound hdone⟩
  have h : s.SolWorks i n p := ⟨hs, hphase, hslot, hbuf, hundone, hsound, hcalm⟩
  refine ⟨fun hf => ?_, solRefine_answers h⟩
  have hanswers := solFactorise_answers h hf
  have hslotted (hwarm : d.warm = true) (hclean : s.poisonedIn a (slotBytes f.n) = false) :=
    hanswers.trans (congrArg _ ((if_neg (ne_false_of_eq_true hwarm)).trans (if_neg (ne_true_of_eq_false hclean))))
  refine ⟨fun hwarm => ?_, fun hwarm hclean hmatch => ?_, fun hwarm hclean hmatch => ?_⟩
  · exact hanswers.trans (congrArg _ (if_pos hwarm))
  · exact (hslotted hwarm hclean).trans (congrArg _ (if_pos hmatch))
  · exact (hslotted hwarm hclean).trans (congrArg _ (if_neg (ne_true_of_eq_false hmatch)))

end Sys2Proof.Machine
end
